-- ==== Sys2Proof/Word.lean ====
section
/-! DEFINITION. The word types of the block: bytes of system memory, 16-bit samples, 32-bit register and address words. -/

namespace Sys2Proof

/-- One byte of system memory. -/
abbrev Byte := BitVec 8

/-- One 16-bit sample or coefficient (R1, R96). -/
abbrev Sample := BitVec 16

/-- One 32-bit register value, tag, frame counter or byte address. -/
abbrev Word := BitVec 32

end Sys2Proof
end

