-- ==== Sys2Proof/Config.lean ====
section
/-! DEFINITION. The sizes the manual fixes for the part. The manual leaves no value open inside the engine, so there is no
opaque constant here: what it leaves open (orders, paces, the content of system memory) comes in with the commands
(log 4, 5, 13). -/

namespace Sys2Proof.Config

/-- Words of the sample store (R1). -/
def storeWords : Nat := 32768

/-- One past the last byte address of system memory (R51, R82, R172). -/
def addrTop : Nat := 2 ^ 32

/-- Most entries of the chain cache that may be pinned (R80, R87). -/
def maxPins : Nat := 7

/-- Most samples GATHER holds (R95, R109). -/
def gatherMax : Nat := 16

/-- Bytes of the setup record (R172). -/
def setupBytes : Nat := 128

/-- Largest value of the 16-bit saturating counters OVRCNT, UNDCNT, FOLDCNT and CLIPS (R2, R95, R151). -/
def counterMax : Nat := 65535

/-- Lengths a submission ring may have (R27, R170). -/
def queueSizes : List Nat := [16, 32, 64, 128, 256, 512, 1024]

/-- Lengths the completion ring may have (R151, R170). -/
def cqSizes : List Nat := [16, 32, 64, 128, 256, 512, 1024, 2048, 4096]

end Sys2Proof.Config
end

