-- ==== Sys2Proof/Syntax.lean ====
section
/-! DEFINITION. The commands of the block: one constructor of `Instr` for each row of spec/opcode_table.json. A command is a
register write, an event on a pin, an answer of the memory port, or an event of one of the engine's own blocks; each is
one whole step (95_what_each_step_holds.md). The table lists no operands: those here are what the row's rule reads. -/

namespace Sys2Proof

/-- The two frame ports (R131). -/
inductive PortId where
  | a
  | b
  deriving DecidableEq, Repr

/-- The memory port's answer to a read of several bytes: the bytes in ascending address order, or an error for a read of
that many bytes (R83, R172). -/
inductive Answer where
  | ok (data : List Byte)
  | error (bytes : Nat)
  deriving DecidableEq, Repr

/-- A read the datapath issues ahead of need: of which input, and of how many words at most (R108, log 4). -/
structure ReadChoice where
  input : Nat
  words : Nat
  deriving DecidableEq, Repr

/-- The commands. `order` operands list queues whose heads are served first, where the rules leave the order of heads
open; `reads` operands list the reads the datapath issues in the step, where R108 leaves their pace open (log 4). `k`
operands pick one of the outstanding accesses, oldest first. -/
inductive Instr where
  /-- ENGCTL with RUN (R172, R178). -/
  | run
  /-- ENGCTL with HALT (R177). -/
  | halt
  /-- ENGCTL with CLEAR (R181). -/
  | clear
  /-- ENGCTL with NONE (R169). -/
  | engctlNone
  /-- POST with ADVANCE (R32). -/
  | postAdvance (queue : Fin 4) (index : BitVec 12)
  /-- POST with RESTART (R33). -/
  | postRestart (queue : Fin 4)
  /-- POST with FLUSH (R34). -/
  | postFlush (queue : Fin 4)
  /-- Write of CQHEAD (R157). -/
  | cqheadWrite (index : BitVec 16)
  /-- Write of IRQPEND (R164). -/
  | irqpendWrite (value : Word)
  /-- Write of IRQMASK (R165). -/
  | irqmaskWrite (value : Word)
  /-- Write of SETUPADR (R171). -/
  | setupadrWrite (value : Word)
  /-- A write that no register takes (R167). -/
  | registerWriteIgnored (offset : Nat) (strobes : BitVec 4) (value : Word)
  /-- Assertion of RESET_N (R182). -/
  | pinReset
  /-- Release of RESET_N (R182). -/
  | resetRelease
  /-- One microsecond tick (R183). -/
  | tick
  /-- Expiry of the wait timer of a queue's head (R58). -/
  | waitTimerExpiry (queue : Fin 4)
  /-- Expiry of CTIMER (R162). -/
  | coalescingTimerExpiry
  /-- Answer to a read of part of the setup record, from byte `offset` of it (R172). -/
  | setupReadAnswer (offset : Nat) (answer : Answer)
  /-- The 64 bytes of a head fetch arrive (R42, R43). -/
  | headFetchData (queue : Fin 4) (bytes : List Byte)
  /-- A head fetch is answered with an error (R40). -/
  | headFetchError (queue : Fin 4)
  /-- The control unit selects and executes a record (R47). -/
  | controlSelect
  /-- The snapshot write is answered, OK or with an error (R24). -/
  | snapshotWriteAnswer (ok : Bool)
  /-- The stop request of an ABORT reaches the datapath (R114). -/
  | stopRequest
  /-- The scheduler takes a change notice (R55). -/
  | changeNotice (stream : Fin 48) (order : List (Fin 4))
  /-- The arbiter grants (R60). -/
  | grant (reads : List ReadChoice)
  /-- The loader begins a fill (R82). -/
  | fillBegin (order : List (Fin 4))
  /-- Answer to a read of part of the fill's present part, from byte `offset` of that part (R83). -/
  | fillReadAnswer (offset : Nat) (answer : Answer) (order : List (Fin 4)) (reads : List ReadChoice)
  /-- The datapath computes sample NEXT (R107). -/
  | computeSample (reads : List ReadChoice)
  /-- OK answer to an input read (R108). -/
  | dpReadAnswer (k : Nat) (data : List Byte) (reads : List ReadChoice)
  /-- Error answer to an input read (R112). -/
  | dpReadError (k : Nat)
  /-- OK answer to an output write (R109). -/
  | dpWriteAnswer (k : Nat)
  /-- Error answer to an output write (R113). -/
  | dpWriteError (k : Nat)
  /-- Frame event (R138). -/
  | frameEvent (port : PortId)
  /-- A sync mark that becomes the candidate (R133). -/
  | huntSyncMark (port : PortId)
  /-- The candidate is dropped (R133). -/
  | candidateDrop (port : PortId)
  /-- Lock event (R134). -/
  | lockEvent (port : PortId)
  /-- Loss event (R136). -/
  | lossEvent (port : PortId)
  /-- OK answer to a record's 31-byte body write (R155). -/
  | bodyWriteAnswer
  /-- OK answer to a record's phase write (R155). -/
  | phaseWriteAnswer
  /-- Error answer to a completion write (R156). -/
  | cqWriteError
  /-- An answer of so many bytes to an access issued before a CLEAR or pin reset (R181, R182). -/
  | staleAnswerDiscard (k : Nat) (bytes : Nat)
  /-- One bit clock of a port's line, with the levels of FxDIN and FxSYNC (R128). -/
  | bitClock (port : PortId) (din : Bool) (sync : Bool)
  /-- ENGCTL with a code that is no command (R169, R184). -/
  | engctlReservedCode (code : BitVec 4)
  /-- POST with the reserved action (R31, R184). -/
  | postReservedAction (queue : Fin 4)
  deriving DecidableEq, Repr

end Sys2Proof
end

