-- ==== Sys2Proof/WellFormed.lean ====
section
/-! DEFINITION. Which terms of `Instr` spell a command of the hardware. -/

namespace Sys2Proof

/-- Number of bytes an answer covers. -/
def answerLength : Answer → Nat
  | .ok data => data.length
  | .error n => n

/-- Whether a write at this offset with these strobes reaches one of the six registers that take writes (R167). -/
def writeTaken (offset : Nat) (strobes : BitVec 4) : Bool :=
  strobes == 15#4 && [0x00, 0x08, 0x0C, 0x10, 0x14, 0x18].contains offset

/-- A read choice names one of the four inputs a job may have and 1 to 16 words (R108: no read crosses a 32-byte
boundary). -/
def readChoiceOk (c : ReadChoice) : Bool :=
  decide (c.input < 4) && decide (1 ≤ c.words) && decide (c.words ≤ 16)

/-- A term of `Instr` spells a command of the hardware. -/
def wellFormed : Instr → Bool
  | .registerWriteIgnored offset strobes _ => !writeTaken offset strobes
  | .setupReadAnswer offset a =>
      decide (1 ≤ answerLength a) && decide (offset + answerLength a ≤ Config.setupBytes)
        && decide (offset / 64 = (offset + answerLength a - 1) / 64)
  | .headFetchData _ bytes => decide (bytes.length = 64)
  | .changeNotice _ order => decide order.Nodup
  | .grant reads => reads.all readChoiceOk
  | .fillBegin order => decide order.Nodup
  | .fillReadAnswer _ a order reads =>
      decide (1 ≤ answerLength a) && decide order.Nodup && reads.all readChoiceOk
  | .computeSample reads => reads.all readChoiceOk
  | .dpReadAnswer _ data reads =>
      decide (2 ≤ data.length) && decide (data.length ≤ 32) && decide (data.length % 2 = 0)
        && reads.all readChoiceOk
  | .staleAnswerDiscard _ bytes => decide (1 ≤ bytes)
  | .engctlReservedCode code => decide (4 ≤ code.toNat)
  | .run => true
  | .halt => true
  | .clear => true
  | .engctlNone => true
  | .postAdvance _ _ => true
  | .postRestart _ => true
  | .postFlush _ => true
  | .cqheadWrite _ => true
  | .irqpendWrite _ => true
  | .irqmaskWrite _ => true
  | .setupadrWrite _ => true
  | .pinReset => true
  | .resetRelease => true
  | .tick => true
  | .waitTimerExpiry _ => true
  | .coalescingTimerExpiry => true
  | .headFetchError _ => true
  | .controlSelect => true
  | .snapshotWriteAnswer _ => true
  | .stopRequest => true
  | .dpReadError _ => true
  | .dpWriteAnswer _ => true
  | .dpWriteError _ => true
  | .frameEvent _ => true
  | .huntSyncMark _ => true
  | .candidateDrop _ => true
  | .lockEvent _ => true
  | .lossEvent _ => true
  | .bodyWriteAnswer => true
  | .phaseWriteAnswer => true
  | .cqWriteError => true
  | .bitClock _ _ _ => true
  | .postReservedAction _ => true

end Sys2Proof
end

