-- ==== Sys2Proof/Decode.lean ====
section
/-! DEFINITION. Decoding. The opcode table gives bits for none of its rows, so `decodeTableWord` answers none for every word
(log 32). What the hardware does decode into commands is a write of its register window: `decodeWrite`, from the
offsets of R167 and the fields of R184. -/

namespace Sys2Proof

/-- The command that a word spells by the table's bits: the table gives no row bits. -/
def decodeTableWord (_nbits _w : Nat) : Option Instr := none

/-- The command a write of ENGCTL spells, by its CMD field, bits 3:0 (R169, R184). -/
def decodeEngctl (value : Word) : Instr :=
  let cmd := value.extractLsb' 0 4
  if cmd = 0#4 then .engctlNone
  else if cmd = 1#4 then .run
  else if cmd = 2#4 then .halt
  else if cmd = 3#4 then .clear
  else .engctlReservedCode cmd

/-- The command a write of POST spells, by QUEUE in bits 1:0, ACTION in bits 5:4 and INDEX in bits 27:16 (R184). -/
def decodePost (value : Word) : Instr :=
  let queue := (value.extractLsb' 0 2).toFin
  let action := value.extractLsb' 4 2
  if action = 0#2 then .postAdvance queue (value.extractLsb' 16 12)
  else if action = 1#2 then .postRestart queue
  else if action = 2#2 then .postFlush queue
  else .postReservedAction queue

/-- The command a host write of the register window spells (R167, R184): a write without all four strobes, at an offset
that holds no register, or of ENGSTAT is ignored. -/
def decodeWrite (offset : Nat) (strobes : BitVec 4) (value : Word) : Instr :=
  if strobes ≠ 15#4 then .registerWriteIgnored offset strobes value
  else if offset = 0x00 then decodeEngctl value
  else if offset = 0x08 then .setupadrWrite value
  else if offset = 0x0C then decodePost value
  else if offset = 0x10 then .cqheadWrite (value.extractLsb' 0 16)
  else if offset = 0x14 then .irqpendWrite value
  else if offset = 0x18 then .irqmaskWrite value
  else .registerWriteIgnored offset strobes value

end Sys2Proof
end

