-- ==== Sys2Proof/Machine/State.lean ====
section
/-! DEFINITION. The state of the block: every register, table, list, counter and mode the manual gives it, as plain data,
and `State.reset`, the block after a pin reset with RESET_N released (R182). Numbers the manual counts are `Nat`;
what it treats as bits (samples, addresses, tags, the wrapping frame counter) are bit vectors. -/

namespace Sys2Proof.Machine

open Sys2Proof

/-! ### Outcomes -/

/-- Reasons the block stops with a fault. The manual names none: every failure is reported by a status, by ENGSTAT or by
IRQPEND, and the engine goes on (INVENTORY, Faults). -/
inductive Fault where
  deriving DecidableEq, Repr

/-- Reasons a step has no meaning. -/
inductive Refusal where
  /-- Raised by `exec`'s arm of a row that has no meaning yet; safe. No arm raises it now. -/
  | notModelled (mnemonic : String)
  /-- Raised by ENGCTL_RESERVED_CODE with a code that is a command, and by REGISTER_WRITE_IGNORED with a write that a
  register takes: the term spells another row's command, not this one's; safe (log 27). -/
  | notThisRow
  deriving DecidableEq, Repr

/-! ### Engine control (chapter 9) -/

/-- The engine state (R168). -/
inductive EngState where
  | off | configuring | running | draining | halted | faulted
  deriving DecidableEq, Repr

/-- FAULT codes of ENGSTAT (R168). -/
inductive FaultCode where
  | none | setupAlign | setupBus | queueAlign | queueSize | queueWeight | cqAlign | cqSize | coalesce | portMode
  | portSlots | portDivisor | ringRange | ringOverlap | cqWrite
  deriving DecidableEq, Repr

/-- Source of the most recent refused POST or CQHEAD write (R168). -/
inductive ErrSrc where
  | none | post | cqhead
  deriving DecidableEq, Repr

/-- Bytes of a region being read in several reads: each byte answered or not yet, and whether a read of it was answered
with an error (R83, R172). A byte answered with an error holds 0 and is not used. -/
structure ReadBuf where
  cells : List (Option Byte)
  err : Bool
  deriving DecidableEq, Repr

/-- Engine control's registers (R168, R171, R172) and the RESET_N pin (R182). -/
structure Engine where
  st : EngState
  fault : FaultCode
  faultIdx : Nat
  refused : Bool
  errSrc : ErrSrc
  errQ : Fin 4
  setupAdr : Word
  setup : Option ReadBuf
  inReset : Bool
  deriving DecidableEq, Repr

/-- One bit for each interrupt source (R164, R165). -/
structure IrqBits where
  completion : Bool
  engine : Bool
  indexError : Bool
  deriving DecidableEq, Repr

/-! ### Work records (chapters 2, 3, 10) -/

/-- An endpoint of a job (R51). -/
inductive Endpoint where
  | stream (n : Fin 48)
  | memory (addr : Word)
  deriving DecidableEq, Repr

/-- Overflow policy of a job (R99). -/
inductive OvfPolicy where
  | saturate | wrap | trap
  deriving DecidableEq, Repr

/-- Rounding mode of a job (R98). -/
inductive Rounding where
  | round | trunc
  deriving DecidableEq, Repr

/-- What a data record computes: a FILTER's chain address and context, or a MIX's gains in record order. -/
inductive JobKind where
  | filter (chain : Word) (context : Option (Fin 32))
  | mix (gains : List Sample)
  deriving DecidableEq, Repr

/-- The decoded fields of a FILTER or MIX record (R51, R187). -/
structure DataRec where
  kind : JobKind
  inputs : List Endpoint
  output : Endpoint
  n : Nat
  policy : OvfPolicy
  rounding : Rounding
  monitor : Bool
  thresh : Nat
  waitLimit : Nat
  deriving DecidableEq, Repr

/-- PRODUCER of a stream (R2). -/
inductive Producer where
  | portRx | job
  deriving DecidableEq, Repr

/-- CONSUMER of a stream (R2). -/
inductive Consumer where
  | portTx | job
  deriving DecidableEq, Repr

/-- Overrun policy of a stream (R2). -/
inductive OverrunPolicy where
  | dropNew | dropOld
  deriving DecidableEq, Repr

/-- Direction of a slot binding (R142). -/
inductive Dir where
  | rx | tx
  deriving DecidableEq, Repr

/-- Action of a BIND_SLOT record. -/
inductive BindAction where
  | bind (dir : Dir) (stream : Fin 48)
  | unbind
  deriving DecidableEq, Repr

/-- Action of a CHAIN_CONTROL record. -/
inductive ChainAction where
  | load | loadPin | unpin | invalidate | invalidateAll
  deriving DecidableEq, Repr

/-- The decoded fields of a control record (R186, R187). -/
inductive ControlRec where
  | defineStream (stream : Fin 48) (base length hist : Nat) (producer : Producer) (consumer : Consumer)
      (policy : OverrunPolicy) (idle : Sample)
  | retireStream (stream : Fin 48)
  | readStream (stream : Fin 48) (addr : Word) (rearm : Bool)
  | bindSlot (port : PortId) (slot : Fin 32) (action : BindAction)
  | chainControl (action : ChainAction) (addr : Word)
  | clearContext (context : Fin 32)
  | abort (target : Fin 4) (tag : Word)
  | marker
  deriving DecidableEq, Repr

/-- What the common header gives a record's completion: kind code as found, IRQ_NOW flag and tag (R42). -/
structure Header where
  kind : Byte
  irqNow : Bool
  tag : Word
  deriving DecidableEq, Repr

/-! ### Queue fetcher and job scheduler (chapters 2, 3) -/

/-- STATE of a queue (R27). -/
inductive QState where
  | absent | active | stopped
  deriving DecidableEq, Repr

/-- JSTATE of a job record (R53). -/
inductive JState where
  | waiting | ready | starting | running
  deriving DecidableEq, Repr

/-- CHAINWAIT of a job record (R53). -/
inductive ChainWait where
  | none | requested | filling
  deriving DecidableEq, Repr

/-- The job record of a data head (R53), with the two flags its completion will carry: CHAIN_HIT (R63) and CONTEXT_RESET
(R118). `timer` at 0 is an expiry that is due and not yet taken (R58, log 10). -/
structure JobRec where
  data : DataRec
  jstate : JState
  waited : Bool
  timer : Option Nat
  trun : Bool
  claims : Bool
  chainWait : ChainWait
  chainEnt : Option (Fin 8)
  chainHit : Bool
  ctxReset : Bool
  deriving DecidableEq, Repr

/-- Record state of a control head (R44). -/
inductive CtlState where
  | controlWait | executing | parked
  deriving DecidableEq, Repr

/-- HEAD of a queue: EMPTY, or the record held with its ring position and record state (R27, R44). A head that is not
empty holds one completion reservation, but for a FETCHING head whose data is to be discarded (R35). -/
inductive Head where
  | empty
  | fetching (pos : Nat)
  | data (pos : Nat) (hdr : Header) (job : JobRec)
  | control (pos : Nat) (hdr : Header) (body : ControlRec) (st : CtlState)
  deriving DecidableEq, Repr

/-- One queue record (R27). -/
structure QueueRec where
  state : QState
  base : Word
  size : Nat
  weight : Nat
  prod : Nat
  cons : Nat
  head : Head
  discard : Bool
  flushPend : Bool
  deriving DecidableEq, Repr

/-- Purpose of an entry of the reservation wait list (R38). -/
inductive Purpose where
  | fetch | flush
  deriving DecidableEq, Repr

/-- What an EXECUTING record keeps the control unit busy for: the answer of its snapshot write (R23), the completion of the
job its ABORT stops (R72), or a free CONTROL place (R90). -/
inductive CuWork where
  | snapshot (queue : Fin 4) (stream : Fin 48) (addr : Word) (rearm : Bool) (bytes : List Byte)
  | abortWait (queue : Fin 4) (target : Fin 4)
  | placeWait (queue : Fin 4)
  deriving DecidableEq, Repr

/-- The control unit (R47): busy exactly while it has work. -/
structure ControlUnit where
  work : Option CuWork
  last : Fin 4
  deriving DecidableEq, Repr

/-! ### Chain cache (chapter 4) -/

/-- A decoded stage (R75, R76). A FIR holds its coefficients c_0 first. -/
inductive StageRec where
  | fir (coefs : List Sample)
  | biquad (b0 b1 b2 a1 a2 : Sample)
  | gain (g : Sample) (shift : Nat)
  deriving DecidableEq, Repr

/-- ESTATE of a cache entry (R76). -/
inductive EState where
  | empty | filling | valid
  deriving DecidableEq, Repr

/-- A cache entry (R76). STAGES is the length of the stage list. -/
structure Entry where
  estate : EState
  addr : Word
  stages : List StageRec
  pinned : Bool
  inuse : Bool
  stale : Bool
  deriving DecidableEq, Repr

/-- Place of a request in the loader's list (R81). -/
inductive Place where
  | job | control
  deriving DecidableEq, Repr

/-- A request of the loader's list (R81). Waiters are the queues whose heads wait for it. -/
structure Request where
  addr : Word
  place : Place
  waiters : List (Fin 4)
  deriving DecidableEq, Repr

/-- Part of the descriptor a fill is reading (R83). -/
inductive FillPart where
  | header | stages | coefs
  deriving DecidableEq, Repr

/-- The fill under way (R82, R83). -/
structure Fill where
  addr : Word
  entry : Fin 8
  waiters : List (Fin 4)
  part : FillPart
  buf : ReadBuf
  count : Nat
  coefAdr : Word
  taps : Nat
  deriving DecidableEq, Repr

/-- The chain cache with its LRU list, least recently used first (R78), and the chain loader (R81). -/
structure Cache where
  entries : Vector Entry 8
  lru : List (Fin 8)
  reqs : List Request
  fill : Option Fill
  deriving DecidableEq, Repr

/-! ### Context table and datapath (chapters 5, 6) -/

/-- The four state samples of a biquad section (R95, R116). -/
structure BqState where
  x1 : Sample
  x2 : Sample
  y1 : Sample
  y2 : Sample
  deriving DecidableEq, Repr

/-- A filter context (R116). -/
structure Context where
  binding : Option Word
  sstate : Vector BqState 6
  held : Bool
  deriving DecidableEq, Repr

/-- DPSTATE (R95). -/
inductive DpState where
  | idle | compute | settle
  deriving DecidableEq, Repr

/-- ENDSTAT (R95). -/
inductive EndStat where
  | none | ok | overflowTrap | busError | aborted
  deriving DecidableEq, Repr

/-- Progress of a job input: RDNEXT and the words answered so far, by byte address. Both stay 0 and empty for a STREAM
input (R95, R107). -/
structure DpInput where
  rdnext : Nat
  words : List (Nat × Sample)
  deriving DecidableEq, Repr

/-- An input read issued and not yet answered (R108). -/
structure DpRead where
  input : Nat
  addr : Nat
  words : Nat
  deriving DecidableEq, Repr

/-- An output write issued and not yet answered (R109). -/
structure DpWrite where
  addr : Nat
  data : List Sample
  deriving DecidableEq, Repr

/-- The datapath's working record (R95). RDOUT is the number of `reads`, WROUT the number of `writes` (log 26). `clipsDone` is
the part of CLIPS that the finished samples gave (R97, log 38). -/
structure Datapath where
  st : DpState
  jobq : Fin 4
  next : Nat
  finished : Nat
  delay : List Sample
  bq : Vector BqState 6
  clips : Nat
  clipsDone : Nat
  peak : Nat
  peakIdx : Nat
  overCnt : Nat
  endStat : EndStat
  trapAt : Option (Nat × Nat)
  gather : List Sample
  reads : List DpRead
  writes : List DpWrite
  inputs : List DpInput
  deriving DecidableEq, Repr

/-! ### Stream table and sample store (chapter 1) -/

/-- Phase of a binding mirror (R2). -/
inductive BindPhase where
  | pending | current | unbinding
  deriving DecidableEq, Repr

/-- A present RXBIND or TXBIND (R2). -/
structure BindMirror where
  port : PortId
  slot : Fin 32
  phase : BindPhase
  deriving DecidableEq, Repr

/-- A stream record (R2). -/
structure StreamRec where
  defined : Bool
  base : Nat
  length : Nat
  hist : Nat
  producer : Producer
  consumer : Consumer
  wrpos : Nat
  rdpos : Nat
  fill : Nat
  policy : OverrunPolicy
  idle : Sample
  ovrcnt : Nat
  undcnt : Nat
  ovrarm : Bool
  undarm : Bool
  claimed : Bool
  rxbind : Option BindMirror
  txbind : Option BindMirror
  stamp : Word
  deriving DecidableEq, Repr

/-- The sample store (R1): word addresses with their samples, strictly rising, no sample 0; an address that is not listed
holds 0. -/
abbrev Store := List (Nat × Sample)

/-! ### Frame ports (chapter 7) -/

/-- MODE of a port (R131). -/
inductive PortMode where
  | off | master | follower
  deriving DecidableEq, Repr

/-- LOCK of a port (R131). -/
inductive LockState where
  | off | hunting | locked
  deriving DecidableEq, Repr

/-- Reason of a loss event (R136). -/
inductive LossReason where
  | misplaced | missing
  deriving DecidableEq, Repr

/-- The line event that falls at the bit clock last taken and has not been taken yet (R133, R135, R136, log 6). A frame
event says whether its boundary saw its sync mark. -/
inductive LineDue where
  | frame (mark : Bool)
  | huntMark
  | drop
  | lock
  | loss (reason : LossReason)
  deriving DecidableEq, Repr

/-- PENDING of a slot, with the queue of the parked record that made it (R142). -/
inductive PendingChange where
  | bind (dir : Dir) (stream : Fin 48) (queue : Fin 4)
  | unbind (queue : Fin 4)
  deriving DecidableEq, Repr

/-- A slot map entry (R142). -/
structure Slot where
  current : Option (Dir × Fin 48)
  pending : Option PendingChange
  deriving DecidableEq, Repr

/-- A frame port (R131), with the levels of FxSYNC and FxDIN at its last bit clock (R128). `opening` says that a master has not
yet taken the bit clock of position 0 of its first frame (R129, R140, log 7). -/
structure PortRec where
  mode : PortMode
  slots : Nat
  div : Nat
  lock : LockState
  fcount : Word
  miss : Bool
  bitpos : Nat
  candidate : Option Nat
  rxword : Vector Sample 32
  txhold : Vector (Option Sample) 32
  map : Vector Slot 32
  sync : Bool
  din : Bool
  due : Option LineDue
  opening : Bool
  deriving DecidableEq, Repr

/-! ### Completion writer (chapter 8) -/

/-- Status codes (10.4). -/
inductive Status where
  | ok | waitExpired | aborted | queueFlushed | badRecord | noStream | wrongEndpoint | blockTooLong | historyShort
  | needsContext | chainInvalid | chainNoRoom | overflowTrap | busError | fetchError | inUse | bound | exists_
  | overlap | slotBusy | pinLimit | notFound | portOff
  deriving DecidableEq, Repr

/-- Event kinds that can be folded (R151). -/
inductive EvKind where
  | portLocked | portSyncLost | streamOverrun | streamUnderrun
  deriving DecidableEq, Repr

/-- Reasons of event records (10.4). -/
inductive EvReason where
  | none | misplaced | missing | newDropped | newDroppedClaimed | oldDropped | empty
  deriving DecidableEq, Repr

/-- FOLDSET: which event kinds are in it (R151). -/
structure FoldSet where
  locked : Bool
  lost : Bool
  overrun : Bool
  underrun : Bool
  deriving DecidableEq, Repr

/-- The DETAIL word of a record (R188). -/
inductive Detail where
  | none
  | trap (stage : Nat) (sample : Nat)
  | entry (e : Fin 8)
  | event (kind : EvKind) (subject : Nat) (reason : EvReason)
  | summary (set : FoldSet)
  deriving DecidableEq, Repr

/-- A completion or event record (10.4), with the tail index it was posted at, and its IRQ_NOW flag, which is not written
to memory (R163). -/
structure CqRec where
  tag : Word
  status : Status
  kind : Byte
  queue : Fin 4
  chainHit : Bool
  ctxReset : Bool
  waited : Bool
  count : Nat
  clips : Nat
  peak : Nat
  peakIdx : Nat
  overCnt : Nat
  stampA : BitVec 16
  stampB : BitVec 16
  detail : Detail
  irqNow : Bool
  idx : Nat
  phase : Bool
  deriving DecidableEq, Repr

/-- The completion write outstanding for the oldest record of WRLIST (R155). -/
inductive CqPhase where
  | idle | body | phase
  deriving DecidableEq, Repr

/-- The completion writer (R151). -/
structure CqWriter where
  base : Word
  size : Nat
  tailx : Nat
  headx : Nat
  resv : Nat
  foldSet : FoldSet
  foldCnt : Nat
  wrlist : List CqRec
  wr : CqPhase
  ccount : Nat
  ctimer : Option Nat
  cthresh : Nat
  cdelay : Nat
  deriving DecidableEq, Repr

/-! ### Memory port -/

/-- Who issued an access of the memory port. -/
inductive AccessKind where
  | setup | headFetch (queue : Fin 4) | fill | dpRead | dpWrite | snapshot | cqWrite
  deriving DecidableEq, Repr

/-- An access outstanding on the memory port: its address and how many of its bytes are not answered yet (log 14). -/
structure Access where
  kind : AccessKind
  addr : Nat
  bytes : Nat
  deriving DecidableEq, Repr

/-! ### The whole block -/

/-- The state of the block. `pending` is the queue of commands that wait (log 1). -/
structure State where
  pending : List Instr
  eng : Engine
  irqPend : IrqBits
  irqMask : IrqBits
  queues : Vector QueueRec 4
  waitList : List (Fin 4 × Purpose)
  turn : Fin 4
  credit : Nat
  notices : List (Fin 48)
  cu : ControlUnit
  cache : Cache
  contexts : Vector Context 32
  dp : Datapath
  stopReq : Bool
  streams : Vector StreamRec 48
  store : Store
  portA : PortRec
  portB : PortRec
  cq : CqWriter
  stale : List Access
  deriving DecidableEq, Repr

/-! ### Reset values -/

/-- No interrupt bit (R164, R165). -/
def IrqBits.zero : IrqBits := ⟨false, false, false⟩

/-- Engine control after a pin reset (R168, R171). -/
def Engine.reset : Engine :=
  { st := .off, fault := .none, faultIdx := 0, refused := false, errSrc := .none, errQ := 0, setupAdr := 0,
    setup := none, inReset := false }

/-- A queue after a pin reset (R28). -/
def QueueRec.reset : QueueRec :=
  { state := .absent, base := 0, size := 0, weight := 0, prod := 0, cons := 0, head := .empty, discard := false,
    flushPend := false }

/-- An EMPTY cache entry (R76). -/
def Entry.free : Entry :=
  { estate := .empty, addr := 0, stages := [], pinned := false, inuse := false, stale := false }

/-- The cache and loader after a pin reset (R79). -/
def Cache.reset : Cache :=
  { entries := Vector.replicate 8 Entry.free, lru := [], reqs := [], fill := none }

/-- Zero biquad state. -/
def BqState.zero : BqState := ⟨0, 0, 0, 0⟩

/-- Six records of zero biquad state (R95, R116). -/
def bqZero : Vector BqState 6 := Vector.replicate 6 BqState.zero

/-- An UNBOUND context (R116, R117). -/
def Context.unbound : Context := { binding := none, sstate := bqZero, held := false }

/-- The datapath at rest (R95). -/
def Datapath.idle : Datapath :=
  { st := .idle, jobq := 0, next := 0, finished := 0, delay := [], bq := bqZero, clips := 0, clipsDone := 0, peak := 0,
    peakIdx := 0, overCnt := 0, endStat := .none, trapAt := none, gather := [], reads := [], writes := [], inputs := [] }

/-- A FREE stream with the free values (R3). -/
def StreamRec.free : StreamRec :=
  { defined := false, base := 0, length := 0, hist := 0, producer := .portRx, consumer := .portTx, wrpos := 0,
    rdpos := 0, fill := 0, policy := .dropNew, idle := 0, ovrcnt := 0, undcnt := 0, ovrarm := false, undarm := false,
    claimed := false, rxbind := none, txbind := none, stamp := 0 }

/-- A slot with no binding (R132). -/
def Slot.free : Slot := { current := none, pending := none }

/-- A port after a pin reset (R132). The last samples of FxSYNC and FxDIN are low: DESIGN CHOICE, log 8. -/
def PortRec.reset : PortRec :=
  { mode := .off, slots := 0, div := 0, lock := .off, fcount := 0, miss := false, bitpos := 0, candidate := none,
    rxword := Vector.replicate 32 0, txhold := Vector.replicate 32 none, map := Vector.replicate 32 Slot.free,
    sync := false, din := false, due := none, opening := false }

/-- The empty FOLDSET. -/
def FoldSet.none : FoldSet := ⟨false, false, false, false⟩

/-- The completion writer after a pin reset (R152). -/
def CqWriter.reset : CqWriter :=
  { base := 0, size := 0, tailx := 0, headx := 0, resv := 0, foldSet := FoldSet.none, foldCnt := 0, wrlist := [],
    wr := .idle, ccount := 0, ctimer := none, cthresh := 0, cdelay := 0 }

/-- The control unit after a pin reset (R47). -/
def ControlUnit.reset : ControlUnit := { work := none, last := 3 }

/-- The block right after a pin reset, RESET_N released (R182). -/
def State.reset : State :=
  { pending := [], eng := Engine.reset, irqPend := IrqBits.zero, irqMask := IrqBits.zero,
    queues := Vector.replicate 4 QueueRec.reset, waitList := [], turn := 0, credit := 0, notices := [],
    cu := ControlUnit.reset, cache := Cache.reset, contexts := Vector.replicate 32 Context.unbound,
    dp := Datapath.idle, stopReq := false, streams := Vector.replicate 48 StreamRec.free, store := [],
    portA := PortRec.reset, portB := PortRec.reset, cq := CqWriter.reset, stale := [] }

end Sys2Proof.Machine
end

