-- ==== Sys2Proof/Machine/Ops.lean ====
section
/-! DEFINITION. The named operations over the tables of the state: reading and replacing one record of a table, the sample
store, ring positions, and small list operations. -/

namespace Sys2Proof.Machine

open Sys2Proof

/-! ### Records of the tables -/

/-- Queue record of a queue (R27). -/
def State.queue (s : State) (q : Fin 4) : QueueRec := s.queues[q.val]

/-- Replace a queue record. -/
def State.setQueue (s : State) (q : Fin 4) (r : QueueRec) : State := { s with queues := s.queues.set q.val r }

/-- Stream record of a stream (R2). -/
def State.stream (s : State) (n : Fin 48) : StreamRec := s.streams[n.val]

/-- Replace a stream record. -/
def State.setStream (s : State) (n : Fin 48) (r : StreamRec) : State := { s with streams := s.streams.set n.val r }

/-- Context of a number (R116). -/
def State.context (s : State) (c : Fin 32) : Context := s.contexts[c.val]

/-- Replace a context. -/
def State.setContext (s : State) (c : Fin 32) (x : Context) : State := { s with contexts := s.contexts.set c.val x }

/-- Cache entry of an index (R76). -/
def State.entry (s : State) (e : Fin 8) : Entry := s.cache.entries[e.val]

/-- Replace a cache entry. -/
def State.setEntry (s : State) (e : Fin 8) (x : Entry) : State :=
  { s with cache := { s.cache with entries := s.cache.entries.set e.val x } }

/-- Record of a port (R131). -/
def State.port (s : State) : PortId → PortRec
  | .a => s.portA
  | .b => s.portB

/-- Replace a port's record. -/
def State.setPort (s : State) (p : PortId) (r : PortRec) : State :=
  match p with
  | .a => { s with portA := r }
  | .b => { s with portB := r }

/-- Replace the head of a queue. -/
def State.setHead (s : State) (q : Fin 4) (h : Head) : State := s.setQueue q { s.queue q with head := h }

/-- Slot map entry of a port. -/
def PortRec.slot (r : PortRec) (j : Fin 32) : Slot := r.map[j.val]

/-- Replace a slot map entry. -/
def PortRec.setSlot (r : PortRec) (j : Fin 32) (x : Slot) : PortRec := { r with map := r.map.set j.val x }

/-- Replace a TXHOLD entry. -/
def PortRec.setTx (r : PortRec) (j : Fin 32) (x : Option Sample) : PortRec := { r with txhold := r.txhold.set j.val x }

/-- The queues in number order. -/
def queueIds : List (Fin 4) := [0, 1, 2, 3]

/-- The cache entries in index order. -/
def entryIds : List (Fin 8) := [0, 1, 2, 3, 4, 5, 6, 7]

/-- The slots in number order. -/
def slotIds : List (Fin 32) := List.finRange 32

/-- The streams in number order. -/
def streamIds : List (Fin 48) := List.finRange 48

/-- The queues in the order that begins after `q` and ends with `q` (R47, R60). -/
def queuesAfter (q : Fin 4) : List (Fin 4) := [q + 1, q + 2, q + 3, q]

/-- The members of `xs`, those named in `order` first, in that order (log 4). -/
def inOrder (order xs : List (Fin 4)) : List (Fin 4) :=
  order.dedup.filter (fun q => xs.contains q) ++ xs.filter (fun q => !order.contains q)

/-! ### Counters -/

/-- A counter that stops at 65535 (R2, R99, R151). -/
def satSucc (n : Nat) : Nat := if n < Config.counterMax then n + 1 else n

/-! ### The sample store (R1) -/

/-- The word at an address: 0 where none is listed, the value after a pin reset (R1). -/
def storeRead : Store → Nat → Sample
  | [], _ => 0
  | (k, v) :: rest, a => if a < k then 0 else if a = k then v else storeRead rest a

/-- Write a word, keeping the canonical form: a word that becomes 0 is not listed. -/
def storeWrite : Store → Nat → Sample → Store
  | [], a, v => if v = 0 then [] else [(a, v)]
  | (k, w) :: rest, a, v =>
      if a < k then (if v = 0 then (k, w) :: rest else (a, v) :: (k, w) :: rest)
      else if a = k then (if v = 0 then rest else (a, v) :: rest)
      else (k, w) :: storeWrite rest a v

/-- Canonical form of the store from an address on: addresses rising and below 32768, no word 0. -/
def storeWfFrom : Nat → Store → Bool
  | _, [] => true
  | lo, (k, v) :: rest => decide (lo ≤ k) && decide (k < Config.storeWords) && decide (v ≠ 0) && storeWfFrom (k + 1) rest

/-- Canonical form of the store. -/
def storeWf (m : Store) : Bool := storeWfFrom 0 m

/-- Write consecutive ring positions given with their samples. -/
def storeWriteAll (m : Store) : List (Nat × Sample) → Store
  | [] => m
  | (a, v) :: rest => storeWriteAll (storeWrite m a v) rest

/-! ### Rings -/

/-- Store word of a ring position (R1). A store address has 15 bits, so no address outside the store exists; every DEFINED
ring lies inside it (R19, log 16). -/
def ringWord (r : StreamRec) (pos : Nat) : Nat := (r.base + pos % r.length) % Config.storeWords

/-- Free space of a stream: LENGTH − FILL − H (R4). -/
def freeSpace (r : StreamRec) : Nat := r.length - r.fill - r.hist

/-- Ring position `k` places before RDPOS, `k ≤ LENGTH` (R5). -/
def histPos (r : StreamRec) (k : Nat) : Nat := (r.rdpos + r.length - k) % r.length

/-! ### Read buffers -/

/-- A region of `n` bytes of which no read is answered. -/
def bufNew (n : Nat) : ReadBuf := { cells := List.replicate n none, err := false }

/-- Every byte of the region is answered. -/
def bufDone (b : ReadBuf) : Bool := b.cells.all Option.isSome

/-- Bytes of the region that are not answered yet. -/
def bufOpen (b : ReadBuf) : Nat := (b.cells.filter Option.isNone).length

/-- The bytes of the region. -/
def bufBytes (b : ReadBuf) : List Byte := b.cells.map (fun c => c.getD 0)

/-- Put bytes into the region from an offset on. -/
def cellsPut : List (Option Byte) → Nat → List Byte → List (Option Byte)
  | [], _, _ => []
  | cs, _, [] => cs
  | _ :: cs, 0, x :: xs => some x :: cellsPut cs 0 xs
  | c :: cs, off + 1, xs => c :: cellsPut cs off xs

/-- Whether an answer from `off` of `len` bytes answers a read of the region that is outstanding: at least one byte, all
inside the region and none answered before (log 5). -/
def answerFits (b : ReadBuf) (off len : Nat) : Bool :=
  decide (1 ≤ len) && decide (off + len ≤ b.cells.length) && ((b.cells.drop off).take len).all Option.isNone

/-- Take an answer into the region. -/
def bufTake (b : ReadBuf) (off : Nat) : Answer → ReadBuf
  | .ok data => { b with cells := cellsPut b.cells off data }
  | .error n => { cells := cellsPut b.cells off (List.replicate n 0), err := true }

end Sys2Proof.Machine
end

