-- ==== Sys2Proof/Machine/Operands.lean ====
section
/-! DEFINITION. The operand forms: little-endian fields of records in system memory, and the decoding of work records (R186,
R187), of the setup record (R185) and of chain descriptors (R190). -/

namespace Sys2Proof.Machine

open Sys2Proof

/-! ### Little-endian fields -/

/-- Byte at an offset. -/
def byteAt (bs : List Byte) (off : Nat) : Byte := bs.getD off 0

/-- 16-bit field at an offset. -/
def half (bs : List Byte) (off : Nat) : BitVec 16 := byteAt bs (off + 1) ++ byteAt bs off

/-- 32-bit field at an offset. -/
def word (bs : List Byte) (off : Nat) : Word := half bs (off + 2) ++ half bs off

/-- Number held by the byte at an offset. -/
def num8 (bs : List Byte) (off : Nat) : Nat := (byteAt bs off).toNat

/-- Number held by the 16-bit field at an offset. -/
def num16 (bs : List Byte) (off : Nat) : Nat := (half bs off).toNat

/-- The bytes of a 16-bit value, less significant first. -/
def bytes16 (v : BitVec 16) : List Byte := [v.extractLsb' 0 8, v.extractLsb' 8 8]

/-- The bytes of a 32-bit value, least significant first. -/
def bytes32 (v : Word) : List Byte := bytes16 (v.extractLsb' 0 16) ++ bytes16 (v.extractLsb' 16 16)

/-- A number in a range of table indices. -/
def index? (bound : Nat) (n : Nat) : Option (Fin bound) := if h : n < bound then some ⟨n, h⟩ else none

/-! ### Enumerated fields (R186): a code a table does not list gives none -/

/-- Overflow policy codes. -/
def policyOf : Nat → Option OvfPolicy
  | 0 => some .saturate
  | 1 => some .wrap
  | 2 => some .trap
  | _ => none

/-- Rounding mode codes. -/
def roundingOf : Nat → Option Rounding
  | 0 => some .round
  | 1 => some .trunc
  | _ => none

/-- PRODUCER codes. -/
def producerOf : Nat → Option Producer
  | 0 => some .portRx
  | 1 => some .job
  | _ => none

/-- CONSUMER codes. -/
def consumerOf : Nat → Option Consumer
  | 0 => some .portTx
  | 1 => some .job
  | _ => none

/-- Overrun policy codes. -/
def overrunPolicyOf : Nat → Option OverrunPolicy
  | 0 => some .dropNew
  | 1 => some .dropOld
  | _ => none

/-- PORT codes. -/
def portOf : Nat → Option PortId
  | 0 => some .a
  | 1 => some .b
  | _ => none

/-- CHAIN_CONTROL action codes. -/
def chainActionOf : Nat → Option ChainAction
  | 0 => some .load
  | 1 => some .loadPin
  | 2 => some .unpin
  | 3 => some .invalidate
  | 4 => some .invalidateAll
  | _ => none

/-! ### Data records -/

/-- An endpoint from its KIND, STREAM and ADDR fields, with the checks of R51 for a block of `n` samples. -/
def endpointOf (kind stream : Nat) (addr : Word) (n : Nat) : Option Endpoint :=
  match kind with
  | 0 => (index? 48 stream).map Endpoint.stream
  | 1 => if addr.toNat % 2 = 0 ∧ addr.toNat + 2 * n ≤ Config.addrTop then some (.memory addr) else none
  | _ => none

/-- N is a block length (R51). -/
def blockOk (n : Nat) : Bool := decide (1 ≤ n) && decide (n ≤ 1024)

/-- CONTEXT of a FILTER: a context number, or FFh for NONE (R187). The outer none is a value out of range. -/
def contextOf (c : Nat) : Option (Option (Fin 32)) := if c = 255 then some none else (index? 32 c).map some

/-- Both endpoints are STREAM and name one stream (R51). -/
def sameStream : Endpoint → Endpoint → Bool
  | .stream i, .stream o => i == o
  | _, _ => false

/-- The FILTER body (R51, R187). -/
def decodeFilter (bs : List Byte) (monitor : Bool) : Option DataRec :=
  let n := num16 bs 0x14
  if !blockOk n then none else
  match endpointOf (num8 bs 0x08) (num8 bs 0x09) (word bs 0x0C) n,
      endpointOf (num8 bs 0x0A) (num8 bs 0x0B) (word bs 0x10) n, contextOf (num8 bs 0x16), policyOf (num8 bs 0x17),
      roundingOf (num8 bs 0x18) with
  | some input, some output, some context, some policy, some rounding =>
      if sameStream input output then none else
      some { kind := .filter (word bs 0x20) context, inputs := [input], output, n, policy, rounding, monitor,
             thresh := num16 bs 0x1A % 32768, waitLimit := num16 bs 0x1C }
  | _, _, _, _, _ => none

/-- Input `j` of a MIX body: its endpoint and gain. -/
def mixInput (bs : List Byte) (n j : Nat) : Option (Endpoint × Sample) :=
  (endpointOf (num8 bs (0x18 + 8 * j)) (num8 bs (0x18 + 8 * j + 1)) (word bs (0x18 + 8 * j + 4)) n).map
    (fun e => (e, half bs (0x18 + 8 * j + 2)))

/-- The MIX body (R51, R187). COUNT is taken first; no two STREAM inputs name one stream and no two MEMORY inputs one
address. -/
def decodeMix (bs : List Byte) (monitor : Bool) : Option DataRec :=
  let count := num8 bs 0x08
  let n := num16 bs 0x10
  if !(decide (1 ≤ count) && decide (count ≤ 4) && blockOk n) then none else
  match (List.range count).mapM (mixInput bs n), endpointOf (num8 bs 0x09) (num8 bs 0x0A) (word bs 0x0C) n,
      policyOf (num8 bs 0x0B), roundingOf (num8 bs 0x12) with
  | some ins, some output, some policy, some rounding =>
      if (ins.map Prod.fst).Nodup then
        some { kind := .mix (ins.map Prod.snd), inputs := ins.map Prod.fst, output, n, policy, rounding, monitor,
               thresh := num16 bs 0x14 % 32768, waitLimit := num16 bs 0x16 }
      else none
  | _, _, _, _ => none

/-! ### Control records -/

/-- The DEFINE_STREAM body with the decode checks of R19. -/
def decodeDefine (bs : List Byte) : Option ControlRec :=
  let base := num16 bs 0x0C
  let length := num16 bs 0x0E
  let hist := num8 bs 0x10
  if 32 ≤ length ∧ length ≤ 8192 ∧ hist ≤ 127 ∧ base + length ≤ 32768 ∧ hist + 16 ≤ length then
    match index? 48 (num8 bs 0x08), producerOf (num8 bs 0x09), consumerOf (num8 bs 0x0A),
        overrunPolicyOf (num8 bs 0x0B) with
    | some n, some p, some c, some o => some (.defineStream n base length hist p c o (half bs 0x12))
    | _, _, _, _ => none
  else none

/-- The BIND_SLOT body with the decode checks of R143. -/
def decodeBind (bs : List Byte) : Option ControlRec :=
  match portOf (num8 bs 0x08), index? 32 (num8 bs 0x09) with
  | some p, some j =>
      match num8 bs 0x0A with
      | 0 => (index? 48 (num8 bs 0x0B)).map (fun n => .bindSlot p j (.bind .rx n))
      | 1 => (index? 48 (num8 bs 0x0B)).map (fun n => .bindSlot p j (.bind .tx n))
      | 2 => some (.bindSlot p j .unbind)
      | _ => none
  | _, _ => none

/-- The READ_STREAM body (R23); REARM is bit 1 of FLAGS. -/
def decodeRead (bs : List Byte) (rearm : Bool) : Option ControlRec :=
  let addr := word bs 0x0C
  if addr.toNat % 32 = 0 then (index? 48 (num8 bs 0x08)).map (fun n => .readStream n addr rearm) else none

/-- The ABORT body: no queue above 3 and not the record's own queue (R67). -/
def decodeAbort (bs : List Byte) (q : Fin 4) : Option ControlRec :=
  match index? 4 (num8 bs 0x08) with
  | some t => if t = q then none else some (.abort t (word bs 0x0C))
  | none => none

/-! ### The work record -/

/-- A decoded body. -/
inductive Body where
  | data (d : DataRec)
  | control (c : ControlRec)
  deriving DecidableEq, Repr

/-- The common header (R42): KIND as found, IRQ_NOW in bit 0 of FLAGS, TAG. -/
def decodeHeader (bs : List Byte) : Header :=
  { kind := byteAt bs 0, irqNow := (byteAt bs 1).getLsbD 0, tag := word bs 4 }

/-- The body of the record's kind, for a record of queue `q`; none where the record completes BAD_RECORD (R43 cases 1 and 2,
R186). The kind's own flag is bit 1 of FLAGS. -/
def decodeBody (q : Fin 4) (bs : List Byte) : Option Body :=
  let flag := (byteAt bs 1).getLsbD 1
  match num8 bs 0 with
  | 0x01 => (decodeFilter bs flag).map Body.data
  | 0x02 => (decodeMix bs flag).map Body.data
  | 0x03 => (decodeDefine bs).map Body.control
  | 0x04 => (index? 48 (num8 bs 0x08)).map (fun n => .control (.retireStream n))
  | 0x05 => (decodeRead bs flag).map Body.control
  | 0x06 => (decodeBind bs).map Body.control
  | 0x07 => (chainActionOf (num8 bs 0x08)).map (fun a => .control (.chainControl a (word bs 0x0C)))
  | 0x08 => (index? 32 (num8 bs 0x08)).map (fun c => .control (.clearContext c))
  | 0x09 => (decodeAbort bs q).map Body.control
  | 0x0A => some (.control .marker)
  | _ => none

/-! ### The setup record (10.2) -/

/-- Setup fields of one queue. -/
structure SetupQueue where
  present : Bool
  base : Word
  size : Nat
  weight : Nat
  deriving DecidableEq, Repr

/-- Setup fields of one port: PMODE as found, PSLOTS and PDIV. -/
structure SetupPort where
  mode : Nat
  slots : Nat
  div : Nat
  deriving DecidableEq, Repr

/-- The setup record's fields (R170). -/
structure SetupRec where
  queues : Vector SetupQueue 4
  cqBase : Word
  cqSize : Nat
  cqThresh : Nat
  cqDelay : Nat
  ports : Vector SetupPort 2
  deriving DecidableEq, Repr

/-- Queue descriptor `q` (10.2). SQPRESENT is bit 0 of its byte (R185). -/
def setupQueue (bs : List Byte) (q : Nat) : SetupQueue :=
  { present := (byteAt bs (16 * q + 7)).getLsbD 0, base := word bs (16 * q), size := num16 bs (16 * q + 4),
    weight := num8 bs (16 * q + 6) }

/-- Port descriptor `p` (10.2). -/
def setupPort (bs : List Byte) (p : Nat) : SetupPort :=
  { mode := num8 bs (0x50 + 8 * p), slots := num8 bs (0x50 + 8 * p + 1), div := num16 bs (0x50 + 8 * p + 2) }

/-- The setup record of 128 bytes (R185). -/
def decodeSetup (bs : List Byte) : SetupRec :=
  { queues := #v[setupQueue bs 0, setupQueue bs 1, setupQueue bs 2, setupQueue bs 3], cqBase := word bs 0x40,
    cqSize := num16 bs 0x44, cqThresh := num8 bs 0x46, cqDelay := num16 bs 0x48,
    ports := #v[setupPort bs 0, setupPort bs 1] }

/-! ### The chain descriptor (10.6) -/

/-- What a stage record's bytes give: a FIR's tap count (its coefficients come from the table), or a decoded stage. -/
inductive RawStage where
  | fir (taps : Nat)
  | stage (s : StageRec)
  deriving DecidableEq, Repr

/-- Stage record at stage index `k` of the stage part; none where it fails a check of R83. -/
def decodeStage (bs : List Byte) (k : Nat) : Option RawStage :=
  let o := 16 * k
  match num8 bs o with
  | 1 => if k = 0 ∧ 1 ≤ num16 bs (o + 2) ∧ num16 bs (o + 2) ≤ 128 then some (.fir (num16 bs (o + 2))) else none
  | 2 => some (.stage (.biquad (half bs (o + 2)) (half bs (o + 4)) (half bs (o + 6)) (half bs (o + 8)) (half bs (o + 10))))
  | 3 => if num8 bs (o + 1) ≤ 7 then some (.stage (.gain (half bs (o + 2)) (num8 bs (o + 1)))) else none
  | _ => none

/-- The stage records of a descriptor of `count` stages (R83). -/
def decodeStages (bs : List Byte) (count : Nat) : Option (List RawStage) := (List.range count).mapM (decodeStage bs)

/-- A coefficient table of `taps` signed Q15 values, c_0 first (10.6). -/
def decodeCoefs (bs : List Byte) (taps : Nat) : List Sample := (List.range taps).map (fun k => half bs (2 * k))

end Sys2Proof.Machine
end

