-- ==== Sys2Proof/Machine/Flags.lean ====
section
/-! DEFINITION. Status bits and codes: the interrupt bits and IRQ_N (R164, R165), the register window's read view (R167, R168,
R184), and the layouts of completion records, event records and stream snapshots (R188, R189). -/

namespace Sys2Proof.Machine

open Sys2Proof

/-! ### Interrupts -/

/-- Set IRQPEND.COMPLETION (R164). -/
def setCompletion (s : State) : State := { s with irqPend := { s.irqPend with completion := true } }

/-- Set IRQPEND.ENGINE (R164). -/
def setEngine (s : State) : State := { s with irqPend := { s.irqPend with engine := true } }

/-- Set IRQPEND.INDEX_ERROR (R164). -/
def setIndexError (s : State) : State := { s with irqPend := { s.irqPend with indexError := true } }

/-- The bits of IRQPEND or IRQMASK in a written word (10.1). -/
def irqBitsOf (v : Word) : IrqBits := ⟨v.getLsbD 0, v.getLsbD 1, v.getLsbD 2⟩

/-- Clear each bit that is written as 1 (R164). -/
def irqClear (b w : IrqBits) : IrqBits :=
  ⟨b.completion && !w.completion, b.engine && !w.engine, b.indexError && !w.indexError⟩

/-- IRQ_N is asserted (driven low): a bit is 1 both in IRQPEND and in IRQMASK (R165). While RESET_N is asserted both are
0. -/
def irqAsserted (s : State) : Bool :=
  (s.irqPend.completion && s.irqMask.completion) || (s.irqPend.engine && s.irqMask.engine)
    || (s.irqPend.indexError && s.irqMask.indexError)

/-! ### Codes of 10.1 and 10.4 -/

/-- STATE code of ENGSTAT. -/
def engStateCode : EngState → Nat
  | .off => 0 | .configuring => 1 | .running => 2 | .draining => 3 | .halted => 4 | .faulted => 5

/-- FAULT code of ENGSTAT. -/
def faultCode : FaultCode → Nat
  | .none => 0 | .setupAlign => 1 | .setupBus => 2 | .queueAlign => 3 | .queueSize => 4 | .queueWeight => 5
  | .cqAlign => 6 | .cqSize => 7 | .coalesce => 8 | .portMode => 9 | .portSlots => 10 | .portDivisor => 11
  | .ringRange => 12 | .ringOverlap => 13 | .cqWrite => 14

/-- ERRSRC code of ENGSTAT. -/
def errSrcCode : ErrSrc → Nat
  | .none => 0 | .post => 1 | .cqhead => 2

/-- Status code of a completion record. -/
def statusCode : Status → Nat
  | .ok => 0x00 | .waitExpired => 0x01 | .aborted => 0x02 | .queueFlushed => 0x03 | .badRecord => 0x04
  | .noStream => 0x05 | .wrongEndpoint => 0x06 | .blockTooLong => 0x07 | .historyShort => 0x08
  | .needsContext => 0x09 | .chainInvalid => 0x0A | .chainNoRoom => 0x0B | .overflowTrap => 0x0C | .busError => 0x0D
  | .fetchError => 0x0E | .inUse => 0x0F | .bound => 0x10 | .exists_ => 0x11 | .overlap => 0x12 | .slotBusy => 0x13
  | .pinLimit => 0x14 | .notFound => 0x15 | .portOff => 0x16

/-- EVKIND code of an event record. -/
def evKindCode : EvKind → Nat
  | .portLocked => 0 | .portSyncLost => 1 | .streamOverrun => 2 | .streamUnderrun => 3

/-- REASON code of an event record. -/
def evReasonCode : EvReason → Nat
  | .none => 0 | .misplaced => 1 | .missing => 2 | .newDropped => 3 | .newDroppedClaimed => 4 | .oldDropped => 5
  | .empty => 6

/-- Port code: 0 for A, 1 for B. -/
def portCode : PortId → Nat
  | .a => 0 | .b => 1

/-- A bit as a number. -/
def bit (b : Bool) : Nat := if b then 1 else 0

/-- FOLDSET byte of a SUMMARY. -/
def foldSetByte (f : FoldSet) : Nat := bit f.locked + 2 * bit f.lost + 4 * bit f.overrun + 8 * bit f.underrun

/-- The member of FOLDSET that an event kind sets (R159). -/
def foldAdd (f : FoldSet) : EvKind → FoldSet
  | .portLocked => { f with locked := true }
  | .portSyncLost => { f with lost := true }
  | .streamOverrun => { f with overrun := true }
  | .streamUnderrun => { f with underrun := true }

/-- FOLDSET is empty. -/
def foldEmpty (f : FoldSet) : Bool := !(f.locked || f.lost || f.overrun || f.underrun)

/-! ### The register window's read view -/

/-- ENGSTAT as a word (10.1, R168). -/
def engStat (e : Engine) : Word :=
  BitVec.ofNat 32 (engStateCode e.st + faultCode e.fault * 2 ^ 8 + e.faultIdx * 2 ^ 12 + bit e.refused * 2 ^ 16
    + errSrcCode e.errSrc * 2 ^ 24 + e.errQ.val * 2 ^ 28)

/-- IRQPEND or IRQMASK as a word (10.1). -/
def irqWord (b : IrqBits) : Word := BitVec.ofNat 32 (bit b.completion + 2 * bit b.engine + 4 * bit b.indexError)

/-- What a read of the register window returns (R167, R184). A read changes nothing. -/
def readRegister (s : State) (offset : Nat) : Word :=
  if offset = 0x04 then engStat s.eng
  else if offset = 0x08 then s.eng.setupAdr
  else if offset = 0x10 then BitVec.ofNat 32 s.cq.headx
  else if offset = 0x14 then irqWord s.irqPend
  else if offset = 0x18 then irqWord s.irqMask
  else 0

/-! ### Layout of completion and event records (R188) -/

/-- A byte of a number. -/
def byteOf (n : Nat) : Byte := BitVec.ofNat 8 n

/-- The two bytes of a 16-bit number. -/
def bytesOfHalf (n : Nat) : List Byte := bytes16 (BitVec.ofNat 16 n)

/-- The DETAIL word's four bytes (10.4). -/
def detailBytes : Detail → List Byte
  | .none => [0, 0, 0, 0]
  | .trap stage sample => [byteOf stage, 0] ++ bytesOfHalf sample
  | .entry e => [byteOf e.val, 0, 0, 0]
  | .event kind subject reason => [byteOf (evKindCode kind), byteOf subject, byteOf (evReasonCode reason), 0]
  | .summary set => [4, 0xFF, 0, byteOf (foldSetByte set)]

/-- FLAGS byte of a record. -/
def cqFlags (r : CqRec) : Byte := byteOf (bit r.chainHit + 2 * bit r.ctxReset + 4 * bit r.waited)

/-- The 31 bytes of a record's body write (R155, R188). -/
def cqBody (r : CqRec) : List Byte :=
  bytes32 r.tag ++ [byteOf (statusCode r.status), r.kind, byteOf r.queue.val, cqFlags r] ++ bytesOfHalf r.count
    ++ bytesOfHalf r.clips ++ bytesOfHalf r.peak ++ bytesOfHalf r.peakIdx ++ bytesOfHalf r.overCnt ++ bytes16 r.stampA
    ++ bytes16 r.stampB ++ [0, 0] ++ detailBytes r.detail ++ [0, 0, 0]

/-- The byte of a record's phase write (R155, R188). -/
def cqPhaseByte (r : CqRec) : Byte := byteOf (bit r.phase)

/-- The 32 bytes of a record in memory. -/
def cqBytes (r : CqRec) : List Byte := cqBody r ++ [cqPhaseByte r]

/-! ### Layout of the stream snapshot (R189) -/

/-- PRODUCER code. -/
def producerCode : Producer → Nat
  | .portRx => 0 | .job => 1

/-- CONSUMER code. -/
def consumerCode : Consumer → Nat
  | .portTx => 0 | .job => 1

/-- Overrun policy code. -/
def overrunPolicyCode : OverrunPolicy → Nat
  | .dropNew => 0 | .dropOld => 1

/-- Binding phase code. -/
def bindPhaseCode : BindPhase → Nat
  | .pending => 1 | .current => 2 | .unbinding => 3

/-- A binding mirror's byte: slot in bits 4:0, port in bit 5, phase in bits 7:6; 0 for NONE. -/
def mirrorByte : Option BindMirror → Byte
  | none => 0
  | some m => byteOf (m.slot.val + 32 * portCode m.port + 64 * bindPhaseCode m.phase)

/-- The 32 bytes of a stream's snapshot (R189). -/
def snapshotBytes (n : Fin 48) (r : StreamRec) : List Byte :=
  [byteOf n.val, 1, byteOf (producerCode r.producer), byteOf (consumerCode r.consumer)] ++ bytesOfHalf r.base
    ++ bytesOfHalf r.length ++ [byteOf r.hist, byteOf (overrunPolicyCode r.policy)] ++ bytes16 r.idle
    ++ bytesOfHalf r.wrpos ++ bytesOfHalf r.rdpos ++ bytesOfHalf r.fill ++ bytesOfHalf (freeSpace r)
    ++ bytesOfHalf r.ovrcnt ++ bytesOfHalf r.undcnt
    ++ [byteOf (bit r.ovrarm + 2 * bit r.undarm + 4 * bit r.claimed), mirrorByte r.rxbind, mirrorByte r.txbind, 0]
    ++ bytes32 r.stamp

end Sys2Proof.Machine
end

