-- ==== Sys2Proof/Machine/Writer.lean ====
section
/-! DEFINITION. The completion writer (chapter 8): the ring's counts, posting, events and the SUMMARY, coalescing. -/

namespace Sys2Proof.Machine

open Sys2Proof

/-! ### The ring (R151) -/

/-- Posted count: entries posted and not returned. -/
def postedCount (c : CqWriter) : Nat := (c.tailx + 2 * c.size - c.headx) % (2 * c.size)

/-- Free, unreserved count: SIZE − posted count − RESV. -/
def freeCount (c : CqWriter) : Nat := c.size - postedCount c - c.resv

/-- The pass: 1 while TAILX lies in the lower half of the indices. -/
def cqPass (c : CqWriter) : Bool := decide (c.tailx < c.size)

/-- Byte address of the entry a record was posted into (R151). -/
def cqAddr (c : CqWriter) (r : CqRec) : Nat := c.base.toNat + 32 * (r.idx % c.size)

/-- Place a record at the tail with the pass as its phase bit and put it at the end of WRLIST; a writer with no write
outstanding issues its body write at once (R154, R155, R159). -/
def cqPost (c : CqWriter) (r : CqRec) : CqWriter :=
  { c with
    tailx := (c.tailx + 1) % (2 * c.size)
    wrlist := c.wrlist ++ [{ r with idx := c.tailx, phase := cqPass c }]
    wr := if c.wr = .idle then .body else c.wr }

/-- Post a record against a reservation (R154). -/
def cqPostReserved (c : CqWriter) (r : CqRec) : CqWriter := { cqPost c r with resv := c.resv - 1 }

/-- The writer posts records in every state but FAULTED (R154). -/
def posts (s : State) : Bool := decide (s.eng.st ≠ .faulted)

/-- RUNNING, DRAINING or HALTED: the states in which the writer takes events, posts SUMMARY records and serves flushes. -/
def live (s : State) : Bool :=
  decide (s.eng.st = .running) || decide (s.eng.st = .draining) || decide (s.eng.st = .halted)

/-! ### Stamps and record fields -/

/-- Low 16 bits of port A's frame counter (R141). -/
def stampA (s : State) : BitVec 16 := s.portA.fcount.extractLsb' 0 16

/-- Low 16 bits of port B's frame counter (R141). -/
def stampB (s : State) : BitVec 16 := s.portB.fcount.extractLsb' 0 16

/-- A record with every field 0. -/
def cqZero : CqRec :=
  { tag := 0, status := .ok, kind := 0, queue := 0, chainHit := false, ctxReset := false, waited := false, count := 0,
    clips := 0, peak := 0, peakIdx := 0, overCnt := 0, stampA := 0, stampB := 0, detail := .none, irqNow := false,
    idx := 0, phase := false }

/-- A completion with the header's fields, its queue and its status, and 0 in every other field, the stamps too (R40, R43, log
9). -/
def plainCompletion (q : Fin 4) (h : Header) (st : Status) : CqRec :=
  { cqZero with tag := h.tag, status := st, kind := h.kind, queue := q, irqNow := h.irqNow }

/-- A completion that carries the stamps as they stand, with 0 in its count and detail fields (R49, R72, R89, R126, R144,
log 9). -/
def completion (s : State) (q : Fin 4) (h : Header) (st : Status) : CqRec :=
  { plainCompletion q h st with stampA := stampA s, stampB := stampB s }

/-- Header of a completion that answers no decoded record: tag 0, kind NONE, no IRQ_NOW (R35, R40). -/
def noHeader : Header := { kind := 0, irqNow := false, tag := 0 }

/-- Kind code of event records (10.3). -/
def eventKind : Byte := 0x0F

/-! ### Events (R159, R160) -/

/-- The event record of an event (R159). -/
def eventRec (s : State) (kind : EvKind) (subject : Nat) (reason : EvReason) : CqRec :=
  { cqZero with
    kind := eventKind, detail := .event kind subject reason, stampA := stampA s, stampB := stampB s }

/-- The SUMMARY record of the fold set as it stands (R160). -/
def summaryRec (s : State) : CqRec :=
  { cqZero with
    kind := eventKind, count := s.cq.foldCnt, detail := .summary s.cq.foldSet, stampA := stampA s, stampB := stampB s }

/-- Post the SUMMARY if FOLDSET is not empty and an entry is free (R160). -/
def postSummary (s : State) : State :=
  if foldEmpty s.cq.foldSet || freeCount s.cq = 0 then s
  else { s with cq := { cqPost s.cq (summaryRec s) with foldSet := FoldSet.none, foldCnt := 0 } }

/-- Fold an event (R159). -/
def foldEvent (s : State) (kind : EvKind) : State :=
  { s with cq := { s.cq with foldSet := foldAdd s.cq.foldSet kind, foldCnt := satSucc s.cq.foldCnt } }

/-- An event handed to the writer: posted, after a SUMMARY if one is owed, or folded; discarded in the other engine states
(R159). -/
def raiseEvent (s : State) (kind : EvKind) (subject : Nat) (reason : EvReason) : State :=
  if !live s then s else
  let s1 := postSummary s
  if freeCount s1.cq = 0 then foldEvent s1 kind
  else { s1 with cq := cqPost s1.cq (eventRec s1 kind subject reason) }

/-! ### Writing and coalescing (R155, R161 to R163) -/

/-- Set COMPLETION and begin counting afresh (R161, R162, R163). -/
def reportCompletions (s : State) : State :=
  setCompletion { s with cq := { s.cq with ccount := 0, ctimer := none } }

/-- Count a written record (R161, R162, R163). -/
def countWritten (s : State) (irqNow : Bool) : State :=
  let c := s.cq.ccount + 1
  if irqNow || c = s.cq.cthresh then reportCompletions s
  else { s with cq := { s.cq with ccount := c,
                                  ctimer := if s.cq.ccount = 0 ∧ s.cq.cdelay ≠ 0 then some s.cq.cdelay else s.cq.ctimer } }

/-- The oldest record of WRLIST is written: it leaves the list, is counted, and the next record's body write is issued
(R155). -/
def recordWritten (s : State) : State :=
  match s.cq.wrlist with
  | [] => s
  | r :: rest =>
      countWritten { s with cq := { s.cq with wrlist := rest, wr := if rest.isEmpty then .idle else .body } } r.irqNow

end Sys2Proof.Machine
end

