-- ==== Sys2Proof/Machine/Fetcher.lean ====
section
/-! DEFINITION. The queue fetcher (chapter 2): counts, reservations and the wait list, fetches, flushes, and the end of a head
with its completion. -/

namespace Sys2Proof.Machine

open Sys2Proof

/-- A queue's count: the records available and not yet taken (R30). -/
def qCount (r : QueueRec) : Nat := (r.prod + r.size - r.cons) % r.size

/-- Byte address of a ring position (R30). -/
def recordAddr (r : QueueRec) (pos : Nat) : Nat := r.base.toNat + 64 * pos

/-- The queue exists: ACTIVE or STOPPED. -/
def present (r : QueueRec) : Bool := decide (r.state ≠ .absent)

/-- A queue is eligible for a fetch (R37). -/
def eligible (s : State) (q : Fin 4) : Bool :=
  let r := s.queue q
  decide (s.eng.st = .running) && decide (r.state = .active) && decide (r.prod ≠ r.cons) && decide (r.head = .empty)
    && !r.flushPend

/-- A queue stands in the reservation wait list (R38). -/
def listed (s : State) (q : Fin 4) : Bool := s.waitList.any (fun e => e.1 == q)

/-- A queue leaves the reservation wait list. -/
def unlist (s : State) (q : Fin 4) : State := { s with waitList := s.waitList.filter (fun e => e.1 != q) }

/-- A reservation is granted: RESV rises by one (R153). -/
def reserve (s : State) : State := { s with cq := { s.cq with resv := s.cq.resv + 1 } }

/-- A reservation is returned in FAULTED (R154). -/
def unreserve (s : State) : State := { s with cq := { s.cq with resv := s.cq.resv - 1 } }

/-! ### Fetch (R38, R39) -/

/-- A granted fetch reservation issues the 64-byte read at CONSIDX: the head is FETCHING and CONSIDX advances (R39). -/
def issueFetch (q : Fin 4) (s : State) : State :=
  let r := s.queue q
  (reserve s).setQueue q { r with head := .fetching r.cons, cons := (r.cons + 1) % r.size }

/-- An eligible queue asks for a reservation: it fetches, or is listed for FETCH (R38). -/
def askFetch (q : Fin 4) (s : State) : State :=
  if freeCount s.cq = 0 then { s with waitList := s.waitList ++ [(q, .fetch)] } else issueFetch q s

/-- Ask at once if the queue is eligible and does not wait in the list already (R37, R38). -/
def askIfEligible (q : Fin 4) (s : State) : State :=
  if eligible s q && !listed s q then askFetch q s else s

/-! ### Flush (R34 to R36) -/

/-- The head holds a record that a flush counts (R35). -/
def headCounted (r : QueueRec) : Bool :=
  match r.head with
  | .empty => false
  | .fetching _ => !r.discard
  | .data _ _ j => decide (j.jstate = .waiting) || decide (j.jstate = .ready)
  | .control _ _ _ st => decide (st = .controlWait)

/-- The head is one that a flush waits for: STARTING, RUNNING, EXECUTING or PARKED (R34). -/
def headHoldsFlush (r : QueueRec) : Bool :=
  match r.head with
  | .empty => false
  | .fetching _ => false
  | .data _ _ j => decide (j.jstate = .starting) || decide (j.jstate = .running)
  | .control _ _ _ st => decide (st = .executing) || decide (st = .parked)

/-- Skipped count of a flush that takes effect now (R35 step 1). -/
def skippedCount (r : QueueRec) : Nat := bit (headCounted r) + qCount r

/-- The queue record after a flush took effect: empty, its head dropped, or left FETCHING with DISCARD set (R35 steps 2 and
3). -/
def flushedQueue (r : QueueRec) : QueueRec :=
  match r.head with
  | .fetching _ => { r with cons := r.prod, flushPend := false, discard := true }
  | _ => { r with cons := r.prod, flushPend := false, head := .empty }

/-- A flush takes effect, against a reservation held for it: the head's own or one just granted (R35). -/
def flushEffect (q : Fin 4) (s : State) : State :=
  let r := s.queue q
  let c := { plainCompletion q noHeader .queueFlushed with count := skippedCount r }
  { s with cq := cqPostReserved s.cq c }.setQueue q (flushedQueue r)

/-- A queue asks for a reservation for its flush, in the place it may hold in the wait list already (R38). -/
def listForFlush (q : Fin 4) (s : State) : State :=
  if listed s q then { s with waitList := s.waitList.map (fun e => if e.1 = q then (q, .flush) else e) }
  else { s with waitList := s.waitList ++ [(q, .flush)] }

/-- A flush that needs a reservation of its own: it takes effect, or stays pending in the wait list (R35, R36, log 18). -/
def flushOwn (q : Fin 4) (s : State) : State :=
  if freeCount s.cq = 0 then listForFlush q (s.setQueue q { s.queue q with flushPend := true })
  else flushEffect q (reserve (unlist s q))

/-! ### The wait list is served (R38, R158, R178) -/

/-- Whether an entry's purpose can be served in the present engine state (R38). -/
def purposeServed (s : State) : Purpose → Bool
  | .fetch => decide (s.eng.st = .running)
  | .flush => live s

/-- Ask for the given entries, oldest first, until a request is refused (R38). -/
def serveEntries : List (Fin 4 × Purpose) → State → State
  | [], s => s
  | (q, p) :: rest, s =>
      if !purposeServed s p then serveEntries rest s
      else if freeCount s.cq = 0 then s
      else
        match p with
        | .fetch => serveEntries rest (issueFetch q (unlist s q))
        | .flush => serveEntries rest (flushEffect q (reserve (unlist s q)))

/-- Serve the wait list (R38). -/
def serveWaitList (s : State) : State := serveEntries s.waitList s

/-! ### The end of a head (R45, R50, R154) -/

/-- What a head's emptying does on its queue: a pending flush takes effect, or the queue asks for its next record (R45). -/
def afterEmpty (q : Fin 4) (s : State) : State :=
  if (s.queue q).flushPend then flushOwn q s else askIfEligible q s

/-- A head's completion is handed to the writer. In FAULTED it is not written and its reservation returns (R50, R154);
otherwise it is posted and the head becomes EMPTY (R45). -/
def completeHead (q : Fin 4) (r : CqRec) (s : State) : State :=
  if posts s then afterEmpty q ({ s with cq := cqPostReserved s.cq r }.setHead q .empty)
  else (unreserve s).setHead q .empty

/-- A refused POST write (R31). -/
def refusePost (q : Fin 4) (s : State) : State :=
  setIndexError { s with eng := { s.eng with errSrc := .post, errQ := q } }

end Sys2Proof.Machine
end

