-- ==== Sys2Proof/Machine/Streams.lean ====
section
/-! DEFINITION. The stream table (chapter 1): checks and readiness, port append and take, claim, release and commit, definition
and retirement, the binding mirror. -/

namespace Sys2Proof.Machine

open Sys2Proof

/-! ### Change notices and queries (R17, R18) -/

/-- The stream table sends the scheduler a change notice (R18). -/
def notify (s : State) (n : Fin 48) : State := { s with notices := s.notices ++ [n] }

/-- Role of a stream in a job (R17). -/
inductive Role where
  | input | output
  deriving DecidableEq, Repr

/-- Readiness query (R17). -/
def streamReady (r : StreamRec) (role : Role) (n : Nat) : Bool :=
  match role with
  | .input => r.defined && decide (n ≤ r.fill)
  | .output => r.defined && decide (n ≤ freeSpace r)

/-- The stream has the endpoint kind its role requires (R12, R52). -/
def endpointKindOk (r : StreamRec) : Role → Bool
  | .input => decide (r.consumer = .job)
  | .output => decide (r.producer = .job)

/-- The stream checks of R52 for one stream in one role: the status of the first that fails. -/
def streamCheck (r : StreamRec) (role : Role) (n : Nat) : Option Status :=
  if !r.defined then some .noStream
  else if !endpointKindOk r role then some .wrongEndpoint
  else if r.length - r.hist < n then some .blockTooLong
  else none

/-- Stream of an endpoint. -/
def endpointStream : Endpoint → Option (Fin 48)
  | .stream n => some n
  | .memory _ => none

/-- The STREAM inputs of a job, in record order. -/
def streamInputs (d : DataRec) : List (Fin 48) := d.inputs.filterMap endpointStream

/-- The STREAM endpoints of a job with their roles: inputs in record order, the output last (R12, R52). -/
def streamRoles (d : DataRec) : List (Fin 48 × Role) :=
  (streamInputs d).map (fun n => (n, .input)) ++ ((endpointStream d.output).map (fun n => (n, Role.output))).toList

/-- The streams a job names, each once. -/
def namedStreams (d : DataRec) : List (Fin 48) := ((streamRoles d).map Prod.fst).dedup

/-- The first failing stream check of a job (R52). -/
def jobCheck (s : State) (d : DataRec) : Option Status :=
  (streamRoles d).findSome? (fun x => streamCheck (s.stream x.1) x.2 d.n)

/-- A job is ready (R54). -/
def jobReady (s : State) (d : DataRec) : Bool :=
  (streamRoles d).all (fun x => streamReady (s.stream x.1) x.2 d.n)

/-! ### Port append and take (R6, R7, R9, R10) -/

/-- Reason of an overrun event (R7). -/
def overrunReason (r : StreamRec) : EvReason :=
  match r.policy with
  | .dropNew => .newDropped
  | .dropOld => if r.claimed then .newDroppedClaimed else .oldDropped

/-- The stream record after an overrun, before its event (R7). -/
def overrunRec (r : StreamRec) (frame : Word) : StreamRec :=
  let r1 := { r with ovrcnt := satSucc r.ovrcnt, stamp := frame, ovrarm := false }
  if overrunReason r = .oldDropped then
    { r1 with rdpos := (r.rdpos + 1) % r.length, wrpos := (r.wrpos + 1) % r.length }
  else r1

/-- A port append of a sample, carrying a frame counter value (R6, R7). -/
def portAppend (n : Fin 48) (frame : Word) (x : Sample) (s : State) : State :=
  let r := s.stream n
  if 1 ≤ freeSpace r then
    notify ({ s with store := storeWrite s.store (ringWord r r.wrpos) x }.setStream n
      { r with wrpos := (r.wrpos + 1) % r.length, fill := r.fill + 1, stamp := frame }) n
  else
    let s1 := s.setStream n (overrunRec r frame)
    let s2 := if overrunReason r = .oldDropped then { s1 with store := storeWrite s.store (ringWord r r.wrpos) x } else s1
    if r.ovrarm then raiseEvent s2 .streamOverrun n.val (overrunReason r) else s2

/-- The sample a port take returns: the oldest committed one, or IDLE on an underrun (R9, R10). -/
def takeSample (s : State) (n : Fin 48) : Sample :=
  let r := s.stream n
  if 1 ≤ r.fill then storeRead s.store (ringWord r r.rdpos) else r.idle

/-- The state after a port take, carrying a frame counter value (R9, R10). -/
def portTake (n : Fin 48) (frame : Word) (s : State) : State :=
  let r := s.stream n
  if 1 ≤ r.fill then
    notify (s.setStream n { r with rdpos := (r.rdpos + 1) % r.length, fill := r.fill - 1, stamp := frame }) n
  else
    let s1 := s.setStream n { r with undcnt := satSucc r.undcnt, stamp := frame, undarm := false }
    if r.undarm then raiseEvent s1 .streamUnderrun n.val .empty else s1

/-! ### Claim, release and commit (R12, R14, R16) -/

/-- Result of a claim request (R12). -/
inductive ClaimResult where
  | granted
  | unready
  | failed (st : Status)
  deriving DecidableEq, Repr

/-- First failing condition of one stream of a claim request. -/
def claimOne (r : StreamRec) (role : Role) (n : Nat) : ClaimResult :=
  match streamCheck r role n with
  | some st => .failed st
  | none => if streamReady r role n then .granted else .unready

/-- First failing condition of the first failing stream. -/
def claimAll (s : State) (n : Nat) : List (Fin 48 × Role) → ClaimResult
  | [] => .granted
  | x :: rest =>
      match claimOne (s.stream x.1) x.2 n with
      | .granted => claimAll s n rest
      | other => other

/-- What a claim request of a job answers (R12). -/
def claimResult (s : State) (d : DataRec) : ClaimResult := claimAll s d.n (streamRoles d)

/-- Set or clear CLAIMED on streams. -/
def setClaims (b : Bool) : List (Fin 48) → State → State
  | [], s => s
  | n :: rest, s => setClaims b rest (s.setStream n { s.stream n with claimed := b })

/-- A change notice for each of some streams. -/
def notifyAll (ns : List (Fin 48)) (s : State) : State := { s with notices := s.notices ++ ns }

/-- Release of a job's streams (R14). -/
def releaseStreams (d : DataRec) (s : State) : State :=
  notifyAll (namedStreams d) (setClaims false (namedStreams d) s)

/-- Commit of an input stream (R16). -/
def commitInput (n : Nat) (r : StreamRec) : StreamRec := { r with rdpos := (r.rdpos + n) % r.length, fill := r.fill - n }

/-- Commit of the output stream (R16). -/
def commitOutput (n : Nat) (r : StreamRec) : StreamRec := { r with wrpos := (r.wrpos + n) % r.length, fill := r.fill + n }

/-- Commit of one stream in its role. -/
def commitRole (n : Nat) (role : Role) (r : StreamRec) : StreamRec :=
  match role with
  | .input => commitInput n r
  | .output => commitOutput n r

/-- Commit of streams in their roles. -/
def commitRoles (n : Nat) : List (Fin 48 × Role) → State → State
  | [], s => s
  | (x, role) :: rest, s => commitRoles n rest (s.setStream x (commitRole n role (s.stream x)))

/-- Commit of a job's streams: positions and fills move, claims are cleared, notices are sent (R16). -/
def commitStreams (d : DataRec) (s : State) : State := releaseStreams d (commitRoles d.n (streamRoles d) s)

/-! ### Definition and retirement (R19 to R22) -/

/-- Two word ranges share a word. -/
def rangesMeet (a la b lb : Nat) : Bool := decide (a < b + lb) && decide (b < a + la)

/-- The placement meets the ring of a DEFINED stream other than `n` (R19). -/
def placementMeets (s : State) (n : Fin 48) (base length : Nat) : Bool :=
  streamIds.any (fun m => m != n && (s.stream m).defined && rangesMeet base length (s.stream m).base (s.stream m).length)

/-- The store words of the history of a ring at definition, with 0 (R20). -/
def historyZeroes (base length hist : Nat) : List (Nat × Sample) :=
  (List.range hist).map (fun i => ((base + (length - hist + i)) % Config.storeWords, 0))

/-- A stream as DEFINE_STREAM sets it (R20). -/
def definedStream (base length hist : Nat) (producer : Producer) (consumer : Consumer) (policy : OverrunPolicy)
    (idle : Sample) : StreamRec :=
  { StreamRec.free with
    defined := true, base, length, hist, producer, consumer, policy, idle, ovrarm := true, undarm := true }

/-- A retire's status (R21). -/
def retireStatus (r : StreamRec) : Status :=
  if !r.defined then .noStream
  else if r.claimed then .inUse
  else if r.rxbind.isSome || r.txbind.isSome then .bound
  else .ok

/-- Rearm of a stream after its snapshot was accepted (R24). -/
def rearmStream (r : StreamRec) : StreamRec := { r with ovrcnt := 0, undcnt := 0, ovrarm := true, undarm := true }

/-! ### Binding mirror (R26) -/

/-- The mirror of a stream for a direction. -/
def mirror (r : StreamRec) : Dir → Option BindMirror
  | .rx => r.rxbind
  | .tx => r.txbind

/-- Write the mirror of a stream for a direction (R26). -/
def setMirror (n : Fin 48) (dir : Dir) (m : Option BindMirror) (s : State) : State :=
  match dir with
  | .rx => s.setStream n { s.stream n with rxbind := m }
  | .tx => s.setStream n { s.stream n with txbind := m }

end Sys2Proof.Machine
end

