-- ==== Sys2Proof/Machine/Arith.lean ====
section
/-! DEFINITION. Datapath arithmetic (chapter 5, 5.2 to 5.7): exact sums, the rounding shift, the overflow policy, the stages,
and the monitor. Sums are exact integers: the accumulator's 40 bits hold every sum of a stage of the sizes the manual
allows (R96, log 17). -/

namespace Sys2Proof.Machine

open Sys2Proof

/-- Exact product of a coefficient and a sample (R96). -/
def product (c x : Sample) : Int := c.toInt * x.toInt

/-- Exact sum of the products of two lists, term by term (R100, R104). -/
def dot : List Sample → List Sample → Int
  | c :: cs, x :: xs => product c x + dot cs xs
  | _, _ => 0

/-- The shift back to sample format by `k` places (R98). -/
def roundShift (mode : Rounding) (k : Nat) (acc : Int) : Int :=
  match mode with
  | .round => (acc + 2 ^ (k - 1)) / 2 ^ k
  | .trunc => acc / 2 ^ k

/-- What a stage gives: an output, with whether it was replaced, or a trap (R99). -/
inductive StageOut where
  | out (y : Sample) (clipped : Bool)
  | trapped
  deriving DecidableEq, Repr

/-- Range check and overflow policy (R99). -/
def applyPolicy (policy : OvfPolicy) (v : Int) : StageOut :=
  if -32768 ≤ v ∧ v ≤ 32767 then .out (BitVec.ofInt 16 v) false
  else
    match policy with
    | .saturate => .out (if 32767 < v then 0x7FFF#16 else 0x8000#16) true
    | .wrap => .out (BitVec.ofInt 16 v) true
    | .trap => .trapped

/-- Shift and check of an accumulator (R98, R99). -/
def stageResult (policy : OvfPolicy) (mode : Rounding) (k : Nat) (acc : Int) : StageOut :=
  applyPolicy policy (roundShift mode k acc)

/-- Accumulator of a stage for its input: a FIR sums over its input and the delay line, newest first (R100), a BIQUAD over
its input and its state (R102), a GAIN scales its input (R103). -/
def stageAcc (st : StageRec) (x : Sample) (delay : List Sample) (b : BqState) : Int :=
  match st with
  | .fir coefs => dot coefs (x :: delay)
  | .biquad b0 b1 b2 a1 a2 =>
      product b0 x + product b1 b.x1 + product b2 b.x2 - product a1 b.y1 - product a2 b.y2
  | .gain g _ => product g x

/-- Shift of a stage (R98). -/
def stageShift : StageRec → Nat
  | .fir _ => 15
  | .biquad _ _ _ _ _ => 14
  | .gain _ shift => 15 - shift

/-- The biquad state of a stage's index after it gave output `y` for input `x`; stages without state keep it (R102). -/
def stageState (st : StageRec) (x y : Sample) (b : BqState) : BqState :=
  match st with
  | .biquad _ _ _ _ _ => { x1 := x, x2 := b.x1, y1 := y, y2 := b.y1 }
  | .fir _ => b
  | .gain _ _ => b

/-- Biquad state of a stage index. -/
def bqAt (bq : Vector BqState 6) (i : Nat) : BqState := if h : i < 6 then bq[i] else BqState.zero

/-- Replace the biquad state of a stage index. -/
def bqSet (bq : Vector BqState 6) (i : Nat) (b : BqState) : Vector BqState 6 := if h : i < 6 then bq.set i b else bq

/-- What a sample's passage through its stages gives: the final output with the biquad state and the number of results
replaced, or a trap at a stage index. -/
inductive ChainOut where
  | out (y : Sample) (bq : Vector BqState 6) (clips : Nat)
  | trapped (stage : Nat)
  deriving DecidableEq, Repr

/-- Pass a sample through the stages from index `i` on (R97). The delay line serves a FIR, which stands first. -/
def runStages (policy : OvfPolicy) (mode : Rounding) (delay : List Sample) :
    List StageRec → Nat → Sample → Vector BqState 6 → Nat → ChainOut
  | [], _, x, bq, clips => .out x bq clips
  | st :: rest, i, x, bq, clips =>
      match stageResult policy mode (stageShift st) (stageAcc st x delay (bqAt bq i)) with
      | .trapped => .trapped i
      | .out y clipped =>
          runStages policy mode delay rest (i + 1) y (bqSet bq i (stageState st x y (bqAt bq i)))
            (if clipped then satSucc clips else clips)

/-- The single operation of a MIX (R104). -/
def runMix (policy : OvfPolicy) (mode : Rounding) (gains xs : List Sample) (bq : Vector BqState 6) (clips : Nat) :
    ChainOut :=
  match stageResult policy mode 15 (dot gains xs) with
  | .trapped => .trapped 0
  | .out y clipped => .out y bq (if clipped then satSucc clips else clips)

/-- Tap count of a chain's FIR, 0 where stage 1 is no FIR. -/
def chainTaps : List StageRec → Nat
  | .fir coefs :: _ => coefs.length
  | _ => 0

/-- A chain has a BIQUAD stage (R64). -/
def chainHasBiquad (stages : List StageRec) : Bool :=
  stages.any (fun st => match st with | .biquad _ _ _ _ _ => true | .fir _ => false | .gain _ _ => false)

/-- Magnitude of a final output (R105). -/
def magnitude (y : Sample) : Nat := y.toInt.natAbs

/-- Finish the next sample with its final output: the monitor measures it and FINISHED counts it (R97, R105). -/
def finishSample (monitor : Bool) (thresh : Nat) (dp : Datapath) (y : Sample) : Datapath :=
  if monitor then
    let larger := decide (dp.peak < magnitude y) || decide (dp.finished = 0)
    { dp with
      finished := dp.finished + 1
      peak := if larger then magnitude y else dp.peak
      peakIdx := if larger then dp.finished else dp.peakIdx
      overCnt := if thresh ≤ magnitude y then dp.overCnt + 1 else dp.overCnt }
  else { dp with finished := dp.finished + 1 }

/-- Finish several samples in order. -/
def finishSamples (monitor : Bool) (thresh : Nat) : List Sample → Datapath → Datapath
  | [], dp => dp
  | y :: rest, dp => finishSamples monitor thresh rest (finishSample monitor thresh dp y)

end Sys2Proof.Machine
end

