-- ==== Sys2Proof/Machine/Cache.lean ====
section
/-! DEFINITION. The chain cache (chapter 4): lookup, the LRU list, requests and their waiters, pins, invalidation, the end of a
use, and the choice of a victim. -/

namespace Sys2Proof.Machine

open Sys2Proof

/-- The entry that holds an address in FILLING or VALID (R80). -/
def findEntry (s : State) (addr : Word) : Option (Fin 8) :=
  entryIds.find? (fun e => decide ((s.entry e).estate ≠ .empty) && decide ((s.entry e).addr = addr))

/-- A listed request names the address (R80). -/
def requested (s : State) (addr : Word) : Bool := s.cache.reqs.any (fun r => decide (r.addr = addr))

/-- A place of the request list is free (R81). -/
def placeFree (s : State) (p : Place) : Bool := !s.cache.reqs.any (fun r => decide (r.place = p))

/-- Join the listed request of an address as a waiter (R81). -/
def joinRequest (addr : Word) (q : Fin 4) (s : State) : State :=
  { s with cache := { s.cache with
      reqs := s.cache.reqs.map (fun r => if r.addr = addr then { r with waiters := r.waiters ++ [q] } else r) } }

/-- Place a new request with its first waiter (R81). -/
def placeRequest (addr : Word) (p : Place) (q : Fin 4) (s : State) : State :=
  { s with cache := { s.cache with reqs := s.cache.reqs ++ [{ addr, place := p, waiters := [q] }] } }

/-- Join the fill under way as a waiter (R80, R90). -/
def joinFill (q : Fin 4) (s : State) : State :=
  { s with cache := { s.cache with fill := s.cache.fill.map (fun f => { f with waiters := f.waiters ++ [q] }) } }

/-- A waiter is withdrawn from every request and from the fill; a request left with no waiter leaves the list (R69, R71,
R81). -/
def withdrawWaiter (q : Fin 4) (s : State) : State :=
  { s with cache := { s.cache with
      reqs := (s.cache.reqs.map (fun r => { r with waiters := r.waiters.filter (fun w => w != q) })).filter
        (fun r => !r.waiters.isEmpty)
      fill := s.cache.fill.map (fun f => { f with waiters := f.waiters.filter (fun w => w != q) }) } }

/-- Move an entry of the LRU list to its most recent end (R78). -/
def lruTouch (e : Fin 8) (l : List (Fin 8)) : List (Fin 8) := if l.contains e then l.erase e ++ [e] else l

/-- Touch an entry (R78). -/
def touchEntry (e : Fin 8) (s : State) : State := { s with cache := { s.cache with lru := lruTouch e s.cache.lru } }

/-- An entry leaves the LRU list (R78). -/
def lruDrop (e : Fin 8) (s : State) : State :=
  { s with cache := { s.cache with lru := s.cache.lru.filter (fun x => x != e) } }

/-- An entry joins the LRU list at its most recent end (R78). -/
def lruJoin (e : Fin 8) (s : State) : State := { s with cache := { s.cache with lru := s.cache.lru ++ [e] } }

/-- The entry an invalidation leaves (R88). -/
def invalidatedEntry (x : Entry) : Entry :=
  match x.estate with
  | .empty => x
  | .filling => { x with stale := true }
  | .valid => if x.stale then x else if x.inuse then { x with stale := true, pinned := false } else Entry.free

/-- Invalidation of an entry (R88): a VALID entry leaves the LRU list. -/
def invalidate (e : Fin 8) (s : State) : State :=
  let s1 := s.setEntry e (invalidatedEntry (s.entry e))
  if (s.entry e).estate = .valid then lruDrop e s1 else s1

/-- INVALIDATE_ALL on entries in index order (R93). -/
def invalidateAll : List (Fin 8) → State → State
  | [], s => s
  | e :: rest, s => invalidateAll rest (invalidate e s)

/-- Number of entries an INVALIDATE_ALL empties or marks stale (R93). -/
def invalidatedCount (s : State) : Nat :=
  (entryIds.filter (fun e => decide ((s.entry e).estate ≠ .empty) && !(s.entry e).stale)).length

/-- Use-end request for an entry (R86). -/
def useEnd (e : Fin 8) (s : State) : State :=
  if (s.entry e).stale then s.setEntry e Entry.free else s.setEntry e { s.entry e with inuse := false }

/-- Use-end for the entry a job holds, if any. -/
def useEndOf (j : JobRec) (s : State) : State :=
  match j.chainEnt with
  | some e => useEnd e s
  | none => s

/-- The address a head waits to pin: that of a parked LOAD_PIN (R87). -/
def pendingPin (h : Head) : Option Word :=
  match h with
  | .control _ _ (.chainControl .loadPin addr) .parked => some addr
  | _ => none

/-- An entry holds the address PINNED. -/
def pinnedAt (s : State) (addr : Word) : Bool :=
  entryIds.any (fun e => (s.entry e).pinned && decide ((s.entry e).addr = addr))

/-- The addresses of parked LOAD_PIN records, each once. -/
def pendingPins (s : State) : List Word := (queueIds.filterMap (fun q => pendingPin (s.queue q).head)).dedup

/-- The pin count (R87). -/
def pinCount (s : State) : Nat :=
  (entryIds.filter (fun e => (s.entry e).pinned)).length
    + ((pendingPins s).filter (fun a => !pinnedAt s a)).length

/-- The victim of a fill that begins: the lowest EMPTY entry, or the least recently used one that is neither pinned nor in
use (R82). -/
def chooseVictim (s : State) : Option (Fin 8) :=
  match entryIds.find? (fun e => decide ((s.entry e).estate = .empty)) with
  | some e => some e
  | none => s.cache.lru.find? (fun e => !(s.entry e).pinned && !(s.entry e).inuse)

/-- The loader is idle (R94). -/
def loaderIdle (s : State) : Bool := s.cache.fill.isNone && s.cache.reqs.isEmpty

end Sys2Proof.Machine
end

