-- ==== Sys2Proof/Machine/Jobs.lean ====
section
/-! DEFINITION. The job scheduler's heads (chapter 3): job records, completions of data and control heads, re-examination, the
move from DRAINING to HALTED, and the guard every command passes while RESET_N is asserted. -/

namespace Sys2Proof.Machine

open Sys2Proof

/-- What a command answers: nothing is taken while RESET_N is asserted (R182, log 15). -/
def taken (s t : State) : Host.Outcome State Fault Refusal := if s.eng.inReset then .next s else .next t

/-! ### Heads -/

/-- Replace the job record of a data head. -/
def setJob (q : Fin 4) (j : JobRec) (s : State) : State :=
  match (s.queue q).head with
  | .data pos h _ => s.setHead q (.data pos h j)
  | _ => s

/-- Header of a decoded head; that of no record otherwise. -/
def headHeader : Head → Header
  | .data _ h _ => h
  | .control _ h _ _ => h
  | _ => noHeader

/-- Job record of a head. -/
def headJob : Head → Option JobRec
  | .data _ _ j => some j
  | _ => none

/-- The head is STARTING or RUNNING. -/
def jobActive (h : Head) : Bool :=
  match h with
  | .data _ _ j => decide (j.jstate = .starting) || decide (j.jstate = .running)
  | _ => false

/-- The head is WAITING or READY. -/
def jobQueued (h : Head) : Bool :=
  match h with
  | .data _ _ j => decide (j.jstate = .waiting) || decide (j.jstate = .ready)
  | _ => false

/-- The head is in a job state. -/
def headIn (st : JState) (h : Head) : Bool :=
  match h with
  | .data _ _ j => decide (j.jstate = st)
  | _ => false

/-- The head is a control record in a record state. -/
def ctlIn (st : CtlState) (h : Head) : Bool :=
  match h with
  | .control _ _ _ c => decide (c = st)
  | _ => false

/-! ### DRAINING to HALTED (R177) -/

/-- The datapath is idle: no job STARTING or RUNNING (R73). -/
def datapathIdle (s : State) : Bool := queueIds.all (fun q => !jobActive (s.queue q).head)

/-- The control unit is idle (R48). -/
def controlIdle (s : State) : Bool := s.cu.work.isNone

/-- The engine's work has come to rest (R177). -/
def atRest (s : State) : Bool := datapathIdle s && controlIdle s && loaderIdle s

/-- A report of a block that became idle: a DRAINING engine at rest becomes HALTED and ENGINE is set (R177). -/
def checkDrain (s : State) : State :=
  if s.eng.st = .draining ∧ atRest s = true then setEngine { s with eng := { s.eng with st := .halted } } else s

/-! ### Completions of heads -/

/-- Completion of a data record that ends before RUNNING (R56). -/
def jobCompletion (s : State) (q : Fin 4) (h : Header) (j : JobRec) (st : Status) : CqRec :=
  { completion s q h st with waited := j.waited, chainHit := j.chainHit }

/-- A data head completes before RUNNING (R56). -/
def completeJob (q : Fin 4) (st : Status) (s : State) : State :=
  match (s.queue q).head with
  | .data _ h j => completeHead q (jobCompletion s q h j st) s
  | _ => s

/-- A control head completes with a status, a count, a detail and CHAIN_HIT (R48, R89). -/
def completeControl (q : Fin 4) (st : Status) (count : Nat) (detail : Detail) (hit : Bool) (s : State) : State :=
  match (s.queue q).head with
  | .control _ h _ _ => completeHead q { completion s q h st with count, detail, chainHit := hit } s
  | _ => s

/-- A PARKED head completes by the block whose event released it, without passing through the control unit (R48). -/
def completeParked (q : Fin 4) (st : Status) (detail : Detail) (s : State) : State :=
  match (s.queue q).head with
  | .control _ h _ .parked => completeHead q { completion s q h st with detail } s
  | _ => s

/-- A control head completes through the control unit, which becomes idle (R48). -/
def finishControl (q : Fin 4) (st : Status) (count : Nat) (detail : Detail) (hit : Bool) (s : State) : State :=
  completeControl q st count detail hit { s with cu := { s.cu with work := none } }

/-- A control head parks and the control unit becomes idle (R48). -/
def parkControl (q : Fin 4) (s : State) : State :=
  match (s.queue q).head with
  | .control pos h body _ => { s with cu := { s.cu with work := none } }.setHead q (.control pos h body .parked)
  | _ => s

/-- A starting job fails: it releases its claims, gives up its entry and completes (R63, R64, R69). -/
def failStart (q : Fin 4) (st : Status) (s : State) : State :=
  match (s.queue q).head with
  | .data _ _ j =>
      let s1 := if j.claims then releaseStreams j.data s else s
      completeJob q st (useEndOf j s1)
  | _ => s

/-! ### Decode into the scheduler, re-examination (R52, R55) -/

/-- The job record of a data record that enters the scheduler (R52, R53, R57). -/
def newJob (s : State) (d : DataRec) : JobRec :=
  let ready := jobReady s d
  { data := d, jstate := if ready then .ready else .waiting, waited := !ready,
    timer := if d.waitLimit = 0 then none else some d.waitLimit, trun := true, claims := false, chainWait := .none,
    chainEnt := none, chainHit := false, ctxReset := false }

/-- A job record moved by its readiness (R55). -/
def examinedJob (s : State) (j : JobRec) : JobRec :=
  if jobReady s j.data then { j with jstate := .ready } else { j with jstate := .waiting, waited := true }

/-- The stream checks of a job for one of its streams (R55). -/
def recheckStream (s : State) (d : DataRec) (n : Fin 48) : Option Status :=
  ((streamRoles d).filter (fun x => x.1 == n)).findSome? (fun x => streamCheck (s.stream x.1) x.2 d.n)

/-- Re-examination of a head on a change notice of a stream (R55). -/
def reexamine (n : Fin 48) (q : Fin 4) (s : State) : State :=
  match (s.queue q).head with
  | .data _ _ j =>
      if (j.jstate = .waiting ∨ j.jstate = .ready) ∧ n ∈ namedStreams j.data then
        match recheckStream s j.data n with
        | some st => completeJob q st s
        | none => setJob q (examinedJob s j) s
      else s
  | _ => s

/-- Re-examination of heads one after another. -/
def reexamineAll (n : Fin 48) : List (Fin 4) → State → State
  | [], s => s
  | q :: rest, s => reexamineAll n rest (reexamine n q s)

/-- A job's wait timer is due: the head is WAITING or READY and its remaining time is 0 (R58). -/
def timerDue (h : Head) : Bool :=
  match h with
  | .data _ _ j => (decide (j.jstate = .waiting) || decide (j.jstate = .ready)) && decide (j.timer = some 0)
  | _ => false

/-- A job record after a tick (R57). -/
def tickJob (j : JobRec) : JobRec := if j.trun then { j with timer := j.timer.map (fun t => t - 1) } else j

/-- A head after a tick (R57). -/
def tickHead : Head → Head
  | .data pos h j => .data pos h (tickJob j)
  | other => other

/-! ### The commands of the timers and of change notices -/

/-- CHANGE_NOTICE (R55): the oldest notice of the stream is taken; with none sent there is nothing to take (log 3). The heads
named in `order` come first (log 4). -/
def execChangeNotice (n : Fin 48) (order : List (Fin 4)) (s : State) : Host.Outcome State Fault Refusal :=
  taken s (if s.notices.contains n then
    reexamineAll n (inOrder order queueIds) { s with notices := s.notices.erase n } else s)

/-- WAIT_TIMER_EXPIRY (R58): not taken in FAULTED (R74). -/
def execWaitTimerExpiry (q : Fin 4) (s : State) : Host.Outcome State Fault Refusal :=
  taken s (if live s && timerDue (s.queue q).head then completeJob q .waitExpired s else s)

/-- A queue after a tick (R57). -/
def tickQueue (r : QueueRec) : QueueRec := { r with head := tickHead r.head }

/-- Wait timers after a tick: held in FAULTED (R57, R74). -/
def tickQueues (s : State) : State :=
  if s.eng.st = .faulted then s
  else { s with queues := #v[tickQueue (s.queue 0), tickQueue (s.queue 1), tickQueue (s.queue 2), tickQueue (s.queue 3)] }

/-- TICK (R183): the wait timers (R57) and CTIMER (R162) fall by one. -/
def execTick (s : State) : Host.Outcome State Fault Refusal :=
  let s1 := tickQueues s
  taken s { s1 with cq := { s1.cq with ctimer := s1.cq.ctimer.map (fun t => t - 1) } }

/-- COALESCING_TIMER_EXPIRY (R162): CTIMER has reached 0. -/
def execCoalescingTimerExpiry (s : State) : Host.Outcome State Fault Refusal :=
  taken s (if s.cq.ctimer = some 0 then
    (if 0 < s.cq.ccount then reportCompletions s
     else { s with cq := { s.cq with ccount := 0, ctimer := none } }) else s)

end Sys2Proof.Machine
end

