-- ==== Sys2Proof/Machine/Datapath.lean ====
section
/-! DEFINITION. The datapath (chapter 5, 5.8 to 5.12) and the end-of-job sequence (chapter 6): reads ahead of need, computing a
sample, GATHER and its writes, the four ends, SETTLE, the end report, commit and release. -/

namespace Sys2Proof.Machine

open Sys2Proof

/-! ### The job in the datapath -/

/-- The running job's record (R95: JOBQ names the head). -/
def runningJob (s : State) : Option JobRec := headJob (s.queue s.dp.jobq).head

/-- The stages of the chain a job holds (R86, R106). -/
def jobStages (s : State) (j : JobRec) : List StageRec :=
  match j.chainEnt with
  | some e => (s.entry e).stages
  | none => []

/-- Input region of an endpoint: its lowest byte address and its number of words, the delay-line words of a FIR before the
block included, those below byte 0 left out (R108). -/
def inputRegion (e : Endpoint) (n taps : Nat) : Option (Nat × Nat) :=
  match e with
  | .stream _ => none
  | .memory a =>
      let before := min (taps - 1) (a.toNat / 2)
      some (a.toNat - 2 * before, before + n)

/-- Input regions of a job, in record order. -/
def jobRegions (s : State) (j : JobRec) : List (Option (Nat × Nat)) :=
  j.data.inputs.map (fun e => inputRegion e j.data.n (chainTaps (jobStages s j)))

/-! ### Reads ahead of need (R108) -/

/-- Words of the next read of an input: as many as asked for, within its region and up to the next 32-byte boundary. -/
def readLength (region : Nat × Nat) (rdnext asked : Nat) : Nat :=
  min asked (min ((region.1 + 2 * region.2 - rdnext) / 2) ((32 - rdnext % 32) / 2))

/-- Issue one read: RDOUT rises and RDNEXT moves past its words. -/
def issueRead (regions : List (Option (Nat × Nat))) (dp : Datapath) (c : ReadChoice) : Datapath :=
  match regions[c.input]?, dp.inputs[c.input]? with
  | some (some region), some inp =>
      let w := readLength region inp.rdnext c.words
      if w = 0 then dp
      else { dp with reads := dp.reads ++ [{ input := c.input, addr := inp.rdnext, words := w }],
                     inputs := dp.inputs.set c.input { inp with rdnext := inp.rdnext + 2 * w } }
  | _, _ => dp

/-- The datapath issues the chosen reads; it issues none after it has left COMPUTE (R108). -/
def issueReads (reads : List ReadChoice) (s : State) : State :=
  match runningJob s with
  | some j =>
      if s.dp.st = .compute then { s with dp := reads.foldl (issueRead (jobRegions s j)) s.dp } else s
  | none => s

/-! ### Words of the inputs (R101, R107) -/

/-- Word of an input's answered reads. -/
def inputWord (inp : DpInput) (addr : Nat) : Option Sample := inp.words.lookup addr

/-- Input sample `i` of an endpoint, once it is available (R15, R107). -/
def inputSample (s : State) (i : Nat) (e : Endpoint) (inp : DpInput) : Option Sample :=
  match e with
  | .stream n => some (storeRead s.store (ringWord (s.stream n) ((s.stream n).rdpos + i)))
  | .memory a => inputWord inp (a.toNat + 2 * i)

/-- Delay-line sample x[−m] of an endpoint, once it is available: a word below byte 0 is 0 (R101). -/
def delaySample (s : State) (e : Endpoint) (inp : DpInput) (m : Nat) : Option Sample :=
  match e with
  | .stream n => some (storeRead s.store (ringWord (s.stream n) (histPos (s.stream n) m)))
  | .memory a => if a.toNat < 2 * m then some 0 else inputWord inp (a.toNat - 2 * m)

/-- The delay line of an endpoint for a FIR of `taps` taps, newest first. -/
def delayLine (s : State) (e : Endpoint) (inp : DpInput) (taps : Nat) : List (Option Sample) :=
  (List.range (taps - 1)).map (fun k => delaySample s e inp (k + 1))

/-- Input samples `i` of all inputs, in record order, once all are available. -/
def inputSamples (s : State) (d : DataRec) (i : Nat) : Option (List Sample) :=
  (d.inputs.zip s.dp.inputs).mapM (fun x => inputSample s i x.1 x.2)

/-- The delay line of a job's first input, where its chain begins with a FIR. -/
def jobDelay (s : State) (j : JobRec) : List (Option Sample) :=
  match j.data.inputs, s.dp.inputs with
  | e :: _, inp :: _ => delayLine s e inp (chainTaps (jobStages s j))
  | _, _ => []

/-- DELAY before sample 0, from the words that are available (R106, log 22). -/
def loadDelay (s : State) : State :=
  match runningJob s with
  | some j => { s with dp := { s.dp with delay := (jobDelay s j).map (fun x => x.getD 0) } }
  | none => s

/-- Every input word that sample NEXT needs is available (R107). -/
def wordsReady (s : State) (j : JobRec) : Bool :=
  (inputSamples s j.data s.dp.next).isSome && (decide (s.dp.next ≠ 0) || (jobDelay s j).all Option.isSome)

/-! ### GATHER (R109) -/

/-- Issue GATHER as one write: WROUT rises and its samples are finished, with the overflows they gave (R97). -/
def issueGather (d : DataRec) (dp : Datapath) : Datapath :=
  match d.output, dp.gather with
  | .memory b, _ :: _ =>
      finishSamples d.monitor d.thresh dp.gather
        { dp with
          gather := [], clipsDone := dp.clips
          writes := dp.writes ++ [{ addr := b.toNat + 2 * dp.finished, data := dp.gather }] }
  | _, _ => dp

/-- GATHER is to be issued: it is full, its next word lies at a 32-byte boundary, or the last sample is in it. -/
def gatherDue (d : DataRec) (dp : Datapath) : Bool :=
  match d.output with
  | .memory b =>
      !dp.gather.isEmpty && (decide (dp.gather.length = Config.gatherMax) || decide ((b.toNat + 2 * dp.next) % 32 = 0)
        || decide (dp.next = d.n))
  | .stream _ => false

/-- The word at an address lies in an input region and its read is not answered. -/
def wordUnread (regions : List (Option (Nat × Nat))) (inputs : List DpInput) (addr : Nat) : Bool :=
  (regions.zip inputs).any (fun x =>
    match x.1 with
    | some r => decide (r.1 ≤ addr) && decide (addr < r.1 + 2 * r.2) && (inputWord x.2 addr).isNone
    | none => false)

/-- GATHER's write is held: one of its words also lies in an input region and is not read yet. -/
def gatherHeld (s : State) (j : JobRec) : Bool :=
  match j.data.output with
  | .memory b =>
      (List.range s.dp.gather.length).any
        (fun k => wordUnread (jobRegions s j) s.dp.inputs (b.toNat + 2 * (s.dp.finished + k)))
  | .stream _ => false

/-- Issue GATHER if it is due and not held. -/
def pushGather (j : JobRec) (s : State) : State :=
  if gatherDue j.data s.dp && !gatherHeld s j then { s with dp := issueGather j.data s.dp } else s

/-! ### The end of a job (R110 to R115) -/

/-- The datapath takes an end and enters SETTLE. -/
def takeEnd (st : EndStat) (dp : Datapath) : Datapath := { dp with endStat := st, st := .settle }

/-- Status of an end. -/
def endStatus : EndStat → Status
  | .none => .ok
  | .ok => .ok
  | .overflowTrap => .overflowTrap
  | .busError => .busError
  | .aborted => .aborted

/-- DETAIL of a job's completion (R123). -/
def endDetail (dp : Datapath) : Detail :=
  match dp.endStat, dp.trapAt with
  | .overflowTrap, some (stage, sample) => .trap stage sample
  | _, _ => .none

/-- Completion of a job that ran, from its end report (R115, R123). -/
def endCompletion (s : State) (q : Fin 4) (h : Header) (j : JobRec) (dp : Datapath) : CqRec :=
  { completion s q h (endStatus dp.endStat) with
    chainHit := j.chainHit, ctxReset := j.ctxReset, waited := j.waited, count := dp.finished, clips := dp.clips,
    peak := dp.peak, peakIdx := dp.peakIdx, overCnt := dp.overCnt, detail := endDetail dp }

/-- Context of a job (R116). -/
def jobContext (d : DataRec) : Option (Fin 32) :=
  match d.kind with
  | .filter _ c => c
  | .mix _ => none

/-- Address of a job's chain: the ADDR of the entry it holds (R118, R122). -/
def jobChain (s : State) (j : JobRec) : Option Word := j.chainEnt.map (fun e => (s.entry e).addr)

/-- The context write of an OK end (R122), or the clearing of HELD at another end (R124). -/
def endContext (j : JobRec) (dp : Datapath) (s : State) : State :=
  match jobContext j.data with
  | none => s
  | some c =>
      if dp.endStat = .ok then s.setContext c { binding := jobChain s j, sstate := dp.bq, held := false }
      else s.setContext c { s.context c with held := false }

/-- Commit of an OK end, release of any other (R120). -/
def endStreams (j : JobRec) (dp : Datapath) (s : State) : State :=
  if dp.endStat = .ok then commitStreams j.data s else releaseStreams j.data s

/-- An ABORT that waited for this head's completion completes OK (R72). -/
def endAbort (q : Fin 4) (s : State) : State :=
  match s.cu.work with
  | some (.abortWait aq t) => if t = q then finishControl aq .ok 0 .none false s else s
  | _ => s

/-- The end report is handed over, the datapath returns to IDLE and drops a stop request still on its way, and the
end-of-job sequence runs (R115, R120, log 12). -/
def endOfJob (s : State) : State :=
  let dp := s.dp
  match (s.queue dp.jobq).head with
  | .data _ h j =>
      let s1 := useEndOf j (endContext j dp (endStreams j dp { s with dp := Datapath.idle, stopReq := false }))
      checkDrain (endAbort dp.jobq (completeHead dp.jobq (endCompletion s1 dp.jobq h j dp) s1))
  | _ => { s with dp := Datapath.idle, stopReq := false }

/-- In SETTLE with no access outstanding the report is handed over (R115). -/
def settle (s : State) : State :=
  if s.dp.st = .settle ∧ s.dp.reads = [] ∧ s.dp.writes = [] then endOfJob s else s

/-! ### Computing a sample (R97, R107) -/

/-- What sample NEXT gives for its input samples. -/
def computeOut (s : State) (j : JobRec) (xs : List Sample) : ChainOut :=
  match j.data.kind with
  | .filter _ _ =>
      runStages j.data.policy j.data.rounding s.dp.delay (jobStages s j) 0 (xs.headD 0) s.dp.bq s.dp.clips
  | .mix gains => runMix j.data.policy j.data.rounding gains xs s.dp.bq s.dp.clips

/-- The working record after sample NEXT gave `y`: NEXT moves on and the input enters DELAY (R100, R102). -/
def advanceDp (s : State) (j : JobRec) (xs : List Sample) (bq : Vector BqState 6) (clips : Nat) : Datapath :=
  { s.dp with
    next := s.dp.next + 1, bq := bq, clips := clips,
    delay := (xs.headD 0 :: s.dp.delay).take (chainTaps (jobStages s j) - 1) }

/-- The final output of sample `i` is handed on: written to the output stream and finished, or put into GATHER (R107). -/
def handOn (j : JobRec) (i : Nat) (y : Sample) (s : State) : State :=
  match j.data.output with
  | .stream n =>
      { s with
        store := storeWrite s.store (ringWord (s.stream n) ((s.stream n).wrpos + i)) y
        dp := finishSample j.data.monitor j.data.thresh { s.dp with clipsDone := s.dp.clips } y }
  | .memory _ => { s with dp := { s.dp with gather := s.dp.gather ++ [y] } }

/-- After a sample: the end with OK is taken when it was the last (R110); otherwise GATHER is issued if it is due. -/
def afterSample (j : JobRec) (s : State) : State :=
  if s.dp.next = j.data.n then { s with dp := takeEnd .ok (issueGather j.data s.dp) } else pushGather j s

/-- The trap end at a stage index: GATHER is issued, nothing of the sample is kept (R111). -/
def trapEnd (j : JobRec) (stage : Nat) (s : State) : State :=
  let dp := issueGather j.data s.dp
  { s with dp := takeEnd .overflowTrap { dp with trapAt := some (stage, s.dp.next) } }

/-- Compute sample NEXT if its words are available and no held write makes the computation wait (R107, R109). -/
def computeNext (j : JobRec) (s : State) : State :=
  if gatherDue j.data s.dp || !wordsReady s j then s
  else
    match inputSamples s j.data s.dp.next with
    | none => s
    | some xs =>
        match computeOut s j xs with
        | .trapped stage => trapEnd j stage s
        | .out y bq clips => afterSample j (handOn j s.dp.next y { s with dp := advanceDp s j xs bq clips })

/-- One COMPUTE_SAMPLE step on a job in COMPUTE. -/
def computeStep (reads : List ReadChoice) (s : State) : State :=
  match runningJob s with
  | some j => if s.dp.st = .compute then settle (computeNext j (pushGather j (issueReads reads s))) else s
  | none => s

/-! ### Answers of the memory port -/

/-- The words an answer of an input read brings. -/
def answerWords (r : DpRead) (data : List Byte) : List (Nat × Sample) :=
  (List.range r.words).map (fun i => (r.addr + 2 * i, half data (2 * i)))

/-- An input's words after an answer. -/
def addWords (inputs : List DpInput) (r : DpRead) (data : List Byte) : List DpInput :=
  match inputs[r.input]? with
  | some inp => inputs.set r.input { inp with words := inp.words ++ answerWords r data }
  | none => inputs

/-- An OK answer in COMPUTE: its words are available, DELAY is loaded before sample 0, a held GATHER may go, and reads are
issued (R106, R108, R109). -/
def takeWords (r : DpRead) (data : List Byte) (reads : List ReadChoice) (s : State) : State :=
  let s1 := { s with dp := { s.dp with inputs := addWords s.dp.inputs r data } }
  let s2 := if s.dp.next = 0 then loadDelay s1 else s1
  match runningJob s2 with
  | some j => issueReads reads (pushGather j s2)
  | none => s2

/-- An error end in COMPUTE: GATHER is discarded, and with it the overflows that its samples gave, which are not reported (R97,
R112, R113, log 38). -/
def busErrorEnd (dp : Datapath) : Datapath := takeEnd .busError { dp with gather := [], clips := dp.clipsDone }

/-- The stop request's end: GATHER is issued (R114). -/
def stopEnd (d : DataRec) (dp : Datapath) : Datapath := takeEnd .aborted (issueGather d dp)

/-! ### The commands of the datapath -/

/-- COMPUTE_SAMPLE (R107). -/
def execComputeSample (reads : List ReadChoice) (s : State) : Host.Outcome State Fault Refusal :=
  taken s (computeStep reads s)

/-- DP_READ_ANSWER (R108): an answer that is not one of an outstanding read of that length answers nothing (log 3). -/
def execDpReadAnswer (k : Nat) (data : List Byte) (reads : List ReadChoice) (s : State) :
    Host.Outcome State Fault Refusal :=
  taken s (match s.dp.reads[k]? with
    | none => s
    | some r =>
        if data.length ≠ 2 * r.words then s
        else
          let s1 := { s with dp := { s.dp with reads := s.dp.reads.eraseIdx k } }
          settle (if s.dp.st = .compute then takeWords r data reads s1 else s1))

/-- DP_READ_ERROR (R112). -/
def execDpReadError (k : Nat) (s : State) : Host.Outcome State Fault Refusal :=
  taken s (match s.dp.reads[k]? with
    | none => s
    | some _ =>
        let dp := { s.dp with reads := s.dp.reads.eraseIdx k }
        settle { s with dp := if s.dp.st = .compute then busErrorEnd dp else dp })

/-- DP_WRITE_ANSWER (R109). -/
def execDpWriteAnswer (k : Nat) (s : State) : Host.Outcome State Fault Refusal :=
  taken s (match s.dp.writes[k]? with
    | none => s
    | some _ => settle { s with dp := { s.dp with writes := s.dp.writes.eraseIdx k } })

/-- DP_WRITE_ERROR (R113): in SETTLE it changes an OK end to BUS_ERROR. -/
def execDpWriteError (k : Nat) (s : State) : Host.Outcome State Fault Refusal :=
  taken s (match s.dp.writes[k]? with
    | none => s
    | some _ =>
        let dp := { s.dp with writes := s.dp.writes.eraseIdx k }
        settle { s with dp :=
          if s.dp.st = .compute then busErrorEnd dp
          else if s.dp.endStat = .ok then { dp with endStat := .busError } else dp })

/-- STOP_REQUEST (R114): dropped where no job is computing. -/
def execStopRequest (s : State) : Host.Outcome State Fault Refusal :=
  taken s (if s.stopReq then
    let s1 := { s with stopReq := false }
    match runningJob s1 with
    | some j =>
        if s1.dp.st = .compute ∧ s1.dp.endStat = .none then settle { s1 with dp := stopEnd j.data s1.dp } else s1
    | none => s1
  else s)

end Sys2Proof.Machine
end

