-- ==== Sys2Proof/Machine/Start.lean ====
section
/-! DEFINITION. The arbiter and the start sequence (chapter 3, 3.5 and 3.6): grant, claim, chain lookup, chain checks, context
read, entry to RUNNING. -/

namespace Sys2Proof.Machine

open Sys2Proof

/-! ### Entry to RUNNING (R65, R106, R118) -/

/-- Progress of one input at the start of a job: RDNEXT at the lowest byte of its region (R106). -/
def freshInput (region : Option (Nat × Nat)) : DpInput :=
  match region with
  | some r => { rdnext := r.1, words := [] }
  | none => { rdnext := 0, words := [] }

/-- The context names the job's chain (R118). -/
def contextMatches (s : State) (j : JobRec) : Bool :=
  match jobContext j.data with
  | some c => decide ((s.context c).binding ≠ none) && decide ((s.context c).binding = jobChain s j)
  | none => false

/-- BQSTATE at the start of a job (R118). -/
def startState (s : State) (j : JobRec) : Vector BqState 6 :=
  match jobContext j.data with
  | some c => if contextMatches s j then (s.context c).sstate else bqZero
  | none => bqZero

/-- CONTEXT_RESET of a job (R118). -/
def startReset (s : State) (j : JobRec) : Bool := (jobContext j.data).isSome && !contextMatches s j

/-- The context read marks the context HELD (R118). -/
def holdContext (j : JobRec) (s : State) : State :=
  match jobContext j.data with
  | some c => s.setContext c { s.context c with held := true }
  | none => s

/-- The working record of a job that enters RUNNING (R106). -/
def freshDp (s : State) (q : Fin 4) (j : JobRec) : Datapath :=
  { Datapath.idle with
    st := .compute, jobq := q, bq := startState s j, inputs := (jobRegions s j).map freshInput }

/-- The job record in RUNNING: the timer is discarded (R57, R65). -/
def runningRec (s : State) (j : JobRec) : JobRec :=
  { j with jstate := .running, timer := none, trun := false, chainWait := .none, ctxReset := startReset s j }

/-- The context read and the entry to RUNNING: the datapath takes the job and loads its record (R65, R106, R118). -/
def enterRunning (q : Fin 4) (reads : List ReadChoice) (s : State) : State :=
  match headJob (s.queue q).head with
  | some j =>
      issueReads reads (loadDelay
        (setJob q (runningRec s j) { holdContext j s with dp := freshDp s q j }))
  | none => s

/-! ### Chain checks and chain step (R63, R64, R80) -/

/-- FIR history check of R64 for an input. -/
def historyShort (s : State) (taps : Nat) (e : Endpoint) : Bool :=
  match e with
  | .stream n => decide ((s.stream n).hist < taps - 1)
  | .memory _ => false

/-- The status with which a chain check fails (R64). -/
def chainCheck (s : State) (j : JobRec) : Option Status :=
  let stages := jobStages s j
  if (jobContext j.data).isNone && chainHasBiquad stages then some .needsContext
  else if j.data.inputs.any (historyShort s (chainTaps stages)) then some .historyShort
  else none

/-- A job that holds its chain entry passes the chain checks and enters RUNNING, or fails (R64, R65). -/
def startWithChain (q : Fin 4) (reads : List ReadChoice) (s : State) : State :=
  match headJob (s.queue q).head with
  | some j =>
      match chainCheck s j with
      | some st => failStart q st s
      | none => enterRunning q reads s
  | none => s

/-- A job's use of an entry begins (R86). -/
def holdEntry (q : Fin 4) (e : Fin 8) (hit : Bool) (j : JobRec) (s : State) : State :=
  setJob q { j with chainEnt := some e, chainWait := .none, chainHit := hit }
    (s.setEntry e { s.entry e with inuse := true })

/-- The chain step of a starting FILTER: hit, fill to wait for, request to join, or miss (R63, R80, R81). -/
def chainStep (q : Fin 4) (reads : List ReadChoice) (s : State) : State :=
  match headJob (s.queue q).head with
  | none => s
  | some j =>
      match j.data.kind with
      | .mix _ => enterRunning q reads s
      | .filter addr _ =>
          match findEntry s addr with
          | some e =>
              if (s.entry e).estate = .valid then startWithChain q reads (touchEntry e (holdEntry q e true j s))
              else joinFill q (setJob q { j with chainWait := .filling } s)
          | none =>
              let s1 := setJob q { j with chainWait := .requested } s
              if requested s addr then joinRequest addr q s1
              else if placeFree s .job then placeRequest addr .job q s1
              else s1

/-- A job that waits for the JOB place looks up its address again once the place is free (R81). -/
def retryJobPlace (s : State) : State :=
  match queueIds.find? (fun q => headIn .starting (s.queue q).head
      && decide ((headJob (s.queue q).head).map (fun j => j.chainWait) = some .requested)
      && !s.cache.reqs.any (fun r => r.waiters.contains q)) with
  | some q => if placeFree s .job then chainStep q [] s else s
  | none => s

/-! ### Claim and grant (R60, R62) -/

/-- The start sequence of a head that has just entered STARTING (R62). -/
def startSequence (q : Fin 4) (reads : List ReadChoice) (s : State) : State :=
  match headJob (s.queue q).head with
  | none => s
  | some j =>
      match claimResult s j.data with
      | .failed st => completeJob q st s
      | .unready => setJob q { j with jstate := .waiting, waited := true, trun := true } s
      | .granted =>
          chainStep q reads
            (setJob q { j with claims := !(namedStreams j.data).isEmpty } (setClaims true (namedStreams j.data) s))

/-- The queue the arbiter grants (R60). -/
def arbiterChoice (s : State) : Option (Fin 4) :=
  if headIn .ready (s.queue s.turn).head ∧ 0 < s.credit then some s.turn
  else (queuesAfter s.turn).find? (fun q => headIn .ready (s.queue q).head)

/-- The turn and the credit after a grant of `q` (R60). -/
def arbiterMove (q : Fin 4) (s : State) : State :=
  if headIn .ready (s.queue s.turn).head ∧ 0 < s.credit then { s with credit := s.credit - 1 }
  else { s with turn := q, credit := (s.queue q).weight - 1 }

/-- The granted head enters STARTING; its timer stops (R57, R60). -/
def enterStarting (q : Fin 4) (s : State) : State :=
  match headJob (s.queue q).head with
  | some j => setJob q { j with jstate := .starting, trun := false } s
  | none => s

/-- The arbiter may grant (R60). -/
def mayGrant (s : State) : Bool := decide (s.eng.st = .running) && datapathIdle s

/-- GRANT (R60, R62): the choice, the move to STARTING and the start sequence. -/
def execGrant (reads : List ReadChoice) (s : State) : Host.Outcome State Fault Refusal :=
  taken s (if mayGrant s then
    match arbiterChoice s with
    | some q => startSequence q reads (enterStarting q (arbiterMove q s))
    | none => s
  else s)

end Sys2Proof.Machine
end

