-- ==== Sys2Proof/Machine/Loader.lean ====
section
/-! DEFINITION. The chain loader (chapter 4, 4.4) and the CHAIN_CONTROL actions at the cache (4.8): fills, their parts and ends,
the waiters they serve, LOAD, LOAD_PIN, UNPIN and INVALIDATE. -/

namespace Sys2Proof.Machine

open Sys2Proof

/-! ### Waiters (R84, R85) -/

/-- The waiter is a STARTING job. -/
def waiterIsJob (s : State) (q : Fin 4) : Bool := headIn .starting (s.queue q).head

/-- The fill's entry after its checks passed serves one waiter, a STARTING job or a PARKED CHAIN_CONTROL record (R84). -/
def servePassed (e : Fin 8) (stale : Bool) (reads : List ReadChoice) (q : Fin 4) (s : State) : State :=
  match (s.queue q).head with
  | .data _ _ j =>
      if j.jstate = .starting then
        startWithChain q reads (setJob q { j with chainEnt := some e, chainWait := .none } s)
      else s
  | _ => if stale then completeParked q .notFound .none s else completeParked q .ok (.entry e) s

/-- Serve waiters one after another after a fill that passed. -/
def servePassedAll (e : Fin 8) (stale : Bool) (reads : List ReadChoice) : List (Fin 4) → State → State
  | [], s => s
  | q :: rest, s => servePassedAll e stale reads rest (servePassed e stale reads q s)

/-- A failed fill serves one waiter with its status (R85). -/
def serveFailed (st : Status) (q : Fin 4) (s : State) : State :=
  if waiterIsJob s q then failStart q st s else completeParked q st .none s

/-- Serve waiters one after another after a fill that failed. -/
def serveFailedAll (st : Status) : List (Fin 4) → State → State
  | [], s => s
  | q :: rest, s => serveFailedAll st rest (serveFailed st q s)

/-- No fill is under way. -/
def noFill (s : State) : State := { s with cache := { s.cache with fill := none } }

/-- The entry a passed fill leaves (R84): VALID with its pin and its user; EMPTY where it is stale and no job waits. -/
def filledEntry (x : Entry) (jobWaits pins : Bool) : Entry :=
  if x.stale then
    (if jobWaits then { x with estate := .valid, inuse := true, pinned := false } else Entry.free)
  else { x with estate := .valid, inuse := jobWaits, pinned := pins }

/-- A fill ends with its checks passed (R84). -/
def fillPassed (f : Fill) (order : List (Fin 4)) (reads : List ReadChoice) (s : State) : State :=
  let x := s.entry f.entry
  let pins := f.waiters.any (fun q => (pendingPin (s.queue q).head).isSome)
  let s1 := (noFill s).setEntry f.entry (filledEntry x (f.waiters.any (waiterIsJob s)) pins)
  servePassedAll f.entry x.stale reads (inOrder order f.waiters) (if x.stale then s1 else lruJoin f.entry s1)

/-- A fill that chose an entry ends with a failure (R85). -/
def fillFailed (st : Status) (f : Fill) (order : List (Fin 4)) (s : State) : State :=
  serveFailedAll st (inOrder order f.waiters) ((noFill s).setEntry f.entry Entry.free)

/-! ### The beginning of a fill (R82) -/

/-- The address check of a fill. -/
def fillAddressOk (addr : Word) : Bool :=
  decide (addr.toNat % 16 = 0) && decide (addr.toNat + (16 + 16 * 6) ≤ Config.addrTop)

/-- CHAINWAIT of the job among a fill's waiters becomes FILLING (R82). -/
def markFilling : List (Fin 4) → State → State
  | [], s => s
  | q :: rest, s =>
      markFilling rest (match headJob (s.queue q).head with
        | some j => setJob q { j with chainWait := .filling } s
        | none => s)

/-- The fill that reads a request's descriptor into a victim. -/
def newFill (r : Request) (e : Fin 8) : Fill :=
  { addr := r.addr, entry := e, waiters := r.waiters, part := .header, buf := bufNew 16, count := 0, coefAdr := 0,
    taps := 0 }

/-- The loader takes a request off its list and begins its fill (R82). -/
def beginFill (r : Request) (rest : List Request) (order : List (Fin 4)) (s : State) : State :=
  let s1 := markFilling r.waiters { s with cache := { s.cache with reqs := rest } }
  if !fillAddressOk r.addr then serveFailedAll .chainInvalid (inOrder order r.waiters) s1
  else
    match chooseVictim s1 with
    | none => serveFailedAll .chainNoRoom (inOrder order r.waiters) s1
    | some e =>
        let s2 := (lruDrop e s1).setEntry e { Entry.free with estate := .filling, addr := r.addr }
        { s2 with cache := { s2.cache with fill := some (newFill r e) } }

/-! ### The parts of a fill (R83) -/

/-- Go on to a part of `n` bytes. -/
def nextPart (f : Fill) (part : FillPart) (n : Nat) (s : State) : State :=
  { s with cache := { s.cache with fill := some { f with part := part, buf := bufNew n } } }

/-- A decoded stage, a FIR still without its coefficients. -/
def stageOfRaw : RawStage → StageRec
  | .fir _ => .fir []
  | .stage st => st

/-- Tap count of the first stage, where it is a FIR. -/
def rawTaps : List RawStage → Option Nat
  | .fir taps :: _ => some taps
  | _ => none

/-- Stages with the FIR's coefficients put in. -/
def withCoefs (coefs : List Sample) : List StageRec → List StageRec
  | .fir _ :: rest => .fir coefs :: rest
  | other => other

/-- The stages read so far stand in the FILLING entry (R83). -/
def putStages (f : Fill) (stages : List StageRec) (s : State) : State :=
  s.setEntry f.entry { s.entry f.entry with stages := stages }

/-- The header is answered (R83 part 1). -/
def headerDone (f : Fill) (order : List (Fin 4)) (s : State) : State :=
  let bs := bufBytes f.buf
  let count := num8 bs 0
  if 1 ≤ count ∧ count ≤ 6 then nextPart { f with count := count, coefAdr := word bs 4 } .stages (16 * count) s
  else fillFailed .chainInvalid f order s

/-- The coefficient table lies in memory (R83 part 2). -/
def coefTableOk (f : Fill) (taps : Nat) : Bool :=
  decide (f.coefAdr.toNat % 2 = 0) && decide (f.coefAdr.toNat + 2 * taps ≤ Config.addrTop)

/-- The stage records are answered (R83 part 2). -/
def stagesDone (f : Fill) (order : List (Fin 4)) (reads : List ReadChoice) (s : State) : State :=
  match decodeStages (bufBytes f.buf) f.count with
  | none => fillFailed .chainInvalid f order s
  | some raws =>
      match rawTaps raws with
      | none => fillPassed f order reads (putStages f (raws.map stageOfRaw) s)
      | some taps =>
          if coefTableOk f taps then
            nextPart { f with taps := taps } .coefs (2 * taps) (putStages f (raws.map stageOfRaw) s)
          else fillFailed .chainInvalid f order s

/-- The coefficient table is answered (R83 part 3). -/
def coefsDone (f : Fill) (order : List (Fin 4)) (reads : List ReadChoice) (s : State) : State :=
  fillPassed f order reads
    (putStages f (withCoefs (decodeCoefs (bufBytes f.buf) f.taps) (s.entry f.entry).stages) s)

/-- Every read of the fill's part is answered: an error takes precedence over the part's checks (R83). -/
def partDone (f : Fill) (order : List (Fin 4)) (reads : List ReadChoice) (s : State) : State :=
  if f.buf.err then fillFailed .busError f order s
  else
    match f.part with
    | .header => headerDone f order s
    | .stages => stagesDone f order reads s
    | .coefs => coefsDone f order reads s

/-- FILL_READ_ANSWER (R83): an answer that fits no outstanding read answers nothing (log 3). -/
def execFillReadAnswer (off : Nat) (a : Answer) (order : List (Fin 4)) (reads : List ReadChoice) (s : State) :
    Host.Outcome State Fault Refusal :=
  taken s (match s.cache.fill with
    | none => s
    | some f =>
        if answerFits f.buf off (answerLength a) then
          let f1 := { f with buf := bufTake f.buf off a }
          if bufDone f1.buf then checkDrain (partDone f1 order reads s)
          else { s with cache := { s.cache with fill := some f1 } }
        else s)

/-! ### CHAIN_CONTROL at the cache (R90 to R93) -/

/-- A new pin of an address does not fit under the pin limit (R87, R91). -/
def pinRefused (s : State) (pin : Bool) (addr : Word) : Bool :=
  pin && !(pendingPins s).contains addr && decide (Config.maxPins ≤ pinCount s)

/-- An executing LOAD or LOAD_PIN looks up its address (R90, R91). CHAIN_HIT says that the address was found VALID and no fill
was made, whatever the status (R89). -/
def chainLoad (q : Fin 4) (pin : Bool) (addr : Word) (s : State) : State :=
  match findEntry s addr with
  | some e =>
      let x := s.entry e
      let hit := decide (x.estate = .valid)
      if x.stale then finishControl q .inUse 0 .none hit s
      else if !x.pinned && pinRefused s pin addr then finishControl q .pinLimit 0 .none hit s
      else if hit then
        finishControl q .ok 0 (.entry e) hit (touchEntry e (s.setEntry e { x with pinned := x.pinned || pin }))
      else parkControl q (joinFill q s)
  | none =>
      if pinRefused s pin addr then finishControl q .pinLimit 0 .none false s
      else if requested s addr then parkControl q (joinRequest addr q s)
      else if placeFree s .control then parkControl q (placeRequest addr .control q s)
      else { s with cu := { s.cu with work := some (.placeWait q) } }

/-- UNPIN (R92). -/
def chainUnpin (q : Fin 4) (addr : Word) (s : State) : State :=
  match findEntry s addr with
  | some e =>
      let x := s.entry e
      finishControl q .ok 0 (.entry e) false
        (if x.estate = .valid ∧ x.stale = false then s.setEntry e { x with pinned := false } else s)
  | none => finishControl q .notFound 0 .none false s

/-- INVALIDATE (R88, R92). -/
def chainInvalidate (q : Fin 4) (addr : Word) (s : State) : State :=
  match findEntry s addr with
  | some e => finishControl q .ok 0 (.entry e) false (invalidate e s)
  | none => finishControl q .notFound 0 .none false s

/-- INVALIDATE_ALL (R93). -/
def chainInvalidateAll (q : Fin 4) (s : State) : State :=
  finishControl q .ok (invalidatedCount s) .none false (invalidateAll entryIds s)

/-- The action of a CHAIN_CONTROL record (R89). -/
def chainControl (q : Fin 4) (action : ChainAction) (addr : Word) (s : State) : State :=
  match action with
  | .load => chainLoad q false addr s
  | .loadPin => chainLoad q true addr s
  | .unpin => chainUnpin q addr s
  | .invalidate => chainInvalidate q addr s
  | .invalidateAll => chainInvalidateAll q s

/-- A LOAD that waits for the CONTROL place looks up its address again once the place is free (R90). -/
def retryControlPlace (s : State) : State :=
  match s.cu.work with
  | some (.placeWait q) =>
      if placeFree s .control then
        match (s.queue q).head with
        | .control _ _ (.chainControl action addr) _ => chainControl q action addr s
        | _ => s
      else s
  | _ => s

/-- FILL_BEGIN (R82): the oldest request leaves the list, and a party that waits for its place looks again (log 20). -/
def execFillBegin (order : List (Fin 4)) (s : State) : Host.Outcome State Fault Refusal :=
  taken s (match s.cache.fill, s.cache.reqs with
    | none, r :: rest => checkDrain (retryControlPlace (retryJobPlace (beginFill r rest order s)))
    | _, _ => s)

end Sys2Proof.Machine
end

