-- ==== Sys2Proof/Machine/Ports.lean ====
section
/-! DEFINITION. The frame ports (chapter 7): bit clocks, the line events, frame events, the slot map with BIND_SLOT at the port,
and the port's pins. -/

namespace Sys2Proof.Machine

open Sys2Proof

/-! ### Bits of the frame (R128, R139, R140) -/

/-- Bit clocks of a frame. -/
def frameBits (r : PortRec) : Nat := 16 * r.slots

/-- Shift a bit into an RXWORD entry (R140). -/
def shiftIn (x : Sample) (b : Bool) : Sample := x <<< 1 ||| (if b then 1#16 else 0#16)

/-- The bit of the last bit clock goes into the slot of the bit position (R140). -/
def shiftBit (r : PortRec) : PortRec :=
  if h : r.bitpos / 16 < 32 then
    { r with rxword := r.rxword.set (r.bitpos / 16) (shiftIn r.rxword[r.bitpos / 16] r.din) }
  else r

/-- FxDOUT: the bit of the slot that is being sent, or high impedance (R132, R133, R139). At a bit clock with a line event the
pin is read after the event, which loads TXHOLD for the frame that begins (log 23). -/
def portDout (r : PortRec) : Option Bool :=
  if r.lock = .locked then
    (if h : r.bitpos / 16 < 32 then (r.txhold[r.bitpos / 16]).map (fun x => x.getMsbD (r.bitpos % 16)) else none)
  else none

/-- The port drives FxCLK and FxSYNC (R129, R132). -/
def portDrivesClock (r : PortRec) : Bool := decide (r.mode = .master)

/-- FxSYNC as a master drives it: high at bit position 0 (R129). -/
def portSyncOut (r : PortRec) : Option Bool := if r.mode = .master then some (decide (r.bitpos = 0)) else none

/-! ### Line events (R133 to R136) -/

/-- A sync mark: FxSYNC high after being low on the bit clock before (R128). -/
def syncMark (r : PortRec) (sync : Bool) : Bool := sync && !r.sync

/-- The line event of a bit clock in HUNTING, CANDIDATE already increased (R133). -/
def huntingDue (r : PortRec) (mark : Bool) : Option LineDue :=
  if mark then (if r.candidate = some (frameBits r) then some .lock else some .huntMark)
  else if r.candidate = some (frameBits r) then some .drop
  else none

/-- The line event of a bit clock of a LOCKED follower at its new bit position (R135, R136). -/
def lockedDue (r : PortRec) (mark : Bool) : Option LineDue :=
  if r.bitpos = 0 then
    (if mark then some (.frame true) else if r.miss then some (.loss .missing) else some (.frame false))
  else if mark then some (.loss .misplaced)
  else none

/-- The next bit position (R128). -/
def nextBit (r : PortRec) : Nat := if r.bitpos + 1 < frameBits r then r.bitpos + 1 else 0

/-- A bit clock without a line event shifts its bit in; one with a line event leaves that to the event (log 6). -/
def withDue (r : PortRec) (due : Option LineDue) : PortRec :=
  match due with
  | none => { shiftBit r with due := none }
  | some d => { r with due := some d }

/-- A bit clock of a HUNTING port (R133): received bits are discarded. -/
def huntingClock (din sync : Bool) (r : PortRec) : PortRec :=
  let mark := syncMark r sync
  let r1 := { r with sync := sync, din := din, candidate := r.candidate.map (fun c => c + 1) }
  { r1 with due := huntingDue r1 mark }

/-- A bit clock of a LOCKED master: it does not sample FxSYNC (R129). The first one after the port is enabled is that of bit
position 0 of its first frame, which is no frame boundary (R128, R140, log 7). -/
def masterClock (din : Bool) (r : PortRec) : PortRec :=
  if r.opening then shiftBit { r with din := din, opening := false }
  else
    let r1 := { r with din := din, bitpos := nextBit r }
    withDue r1 (if r1.bitpos = 0 then some (.frame true) else none)

/-- A bit clock of a LOCKED follower (R128, R135, R136). -/
def followerClock (din sync : Bool) (r : PortRec) : PortRec :=
  let mark := syncMark r sync
  let r1 := { r with sync := sync, din := din, bitpos := nextBit r }
  withDue r1 (lockedDue r1 mark)

/-- A bit clock of a port (R128, R130). -/
def clockPort (din sync : Bool) (r : PortRec) : PortRec :=
  match r.lock with
  | .off => r
  | .hunting => huntingClock din sync r
  | .locked => if r.mode = .master then masterClock din r else followerClock din sync r

/-! ### Takes, appends and pending changes of a frame event (R138) -/

/-- The stream of a slot whose current binding has a direction, for slots below S. -/
def slotStream (r : PortRec) (dir : Dir) (j : Fin 32) : Option (Fin 48) :=
  match (r.slot j).current with
  | some (d, n) => if d = dir ∧ j.val < r.slots then some n else none
  | none => none

/-- The take of one slot: TXHOLD receives the sample, or becomes absent (R134, R138). -/
def takeSlot (p : PortId) (frame : Word) (j : Fin 32) (s : State) : State :=
  match slotStream (s.port p) .tx j with
  | some n =>
      let x := takeSample s n
      let s1 := portTake n frame s
      s1.setPort p ((s1.port p).setTx j (some x))
  | none => s.setPort p ((s.port p).setTx j none)

/-- The takes of slots in order. -/
def takeSlots (p : PortId) (frame : Word) : List (Fin 32) → State → State
  | [], s => s
  | j :: rest, s => takeSlots p frame rest (takeSlot p frame j s)

/-- The append of one slot (R138). -/
def appendSlot (p : PortId) (frame : Word) (j : Fin 32) (s : State) : State :=
  match slotStream (s.port p) .rx j with
  | some n => portAppend n frame (s.port p).rxword[j.val] s
  | none => s

/-- The appends of slots in order. -/
def appendSlots (p : PortId) (frame : Word) : List (Fin 32) → State → State
  | [], s => s
  | j :: rest, s => appendSlots p frame rest (appendSlot p frame j s)

/-- Queue of the parked record behind a pending change (R142). -/
def pendingQueue : PendingChange → Fin 4
  | .bind _ _ q => q
  | .unbind q => q

/-- A pending change becomes current, or the binding is removed, and the mirror follows (R26, R147). -/
def applySlot (p : PortId) (j : Fin 32) (s : State) : State :=
  let x := (s.port p).slot j
  match x.pending with
  | none => s
  | some (.bind dir n _) =>
      setMirror n dir (some { port := p, slot := j, phase := .current })
        (s.setPort p ((s.port p).setSlot j { current := some (dir, n), pending := none }))
  | some (.unbind _) =>
      let s1 := s.setPort p ((s.port p).setSlot j Slot.free)
      match x.current with
      | some (dir, n) => setMirror n dir none s1
      | none => s1

/-- Pending changes of slots are applied in order. -/
def applySlots (p : PortId) : List (Fin 32) → State → State
  | [], s => s
  | j :: rest, s => applySlots p rest (applySlot p j s)

/-- Queues of the parked records whose changes a port holds, in slot order. -/
def pendingQueues (r : PortRec) : List (Fin 4) := slotIds.filterMap (fun j => (r.slot j).pending.map pendingQueue)

/-- A PARKED BIND_SLOT record is released and completes OK (R147, R148). -/
def releaseBind (q : Fin 4) (s : State) : State :=
  match (s.queue q).head with
  | .control _ _ (.bindSlot _ _ _) .parked => completeParked q .ok .none s
  | _ => s

/-- The released BIND_SLOT records complete, one after another (R138 step 5, R148). -/
def releaseParked : List (Fin 4) → State → State
  | [], s => s
  | q :: rest, s => releaseParked rest (releaseBind q s)

/-- Frame event (R138), at a boundary that saw its sync mark or not (R135). -/
def frameEvent (p : PortId) (mark : Bool) (s : State) : State :=
  let frame := (s.port p).fcount
  let qs := pendingQueues (s.port p)
  let s1 := applySlots p slotIds (appendSlots p frame slotIds (takeSlots p frame slotIds s))
  let r := s1.port p
  releaseParked qs (s1.setPort p (shiftBit { r with fcount := r.fcount + 1, miss := !mark, due := none }))

/-- Lock event (R134). -/
def lockEvent (p : PortId) (s : State) : State :=
  let r := s.port p
  let s1 := s.setPort p { r with lock := .locked, bitpos := 0, miss := false, candidate := none, due := none }
  let s2 := takeSlots p r.fcount slotIds s1
  raiseEvent (s2.setPort p (shiftBit (s2.port p))) .portLocked (portCode p) .none

/-- Reason code of a loss (R137). -/
def lossReason : LossReason → EvReason
  | .misplaced => .misplaced
  | .missing => .missing

/-- Loss event (R136). -/
def lossEvent (p : PortId) (reason : LossReason) (s : State) : State :=
  let r := s.port p
  let qs := pendingQueues r
  let s1 := s.setPort p
    { r with lock := .hunting, miss := false, candidate := if reason = .misplaced then some 0 else none,
             txhold := Vector.replicate 32 none, due := none }
  releaseParked qs (applySlots p slotIds (raiseEvent s1 .portSyncLost (portCode p) (lossReason reason)))

/-- A sync mark becomes the candidate (R133). -/
def huntMark (p : PortId) (s : State) : State := s.setPort p { s.port p with candidate := some 0, due := none }

/-- The candidate is dropped (R133). -/
def dropCandidate (p : PortId) (s : State) : State := s.setPort p { s.port p with candidate := none, due := none }

/-- Take a line event. -/
def takeLineEvent (p : PortId) (d : LineDue) (s : State) : State :=
  match d with
  | .frame mark => frameEvent p mark s
  | .huntMark => huntMark p s
  | .drop => dropCandidate p s
  | .lock => lockEvent p s
  | .loss reason => lossEvent p reason s

/-- Take the line event that is due at a port, if any. -/
def takeDue (p : PortId) (s : State) : State :=
  match (s.port p).due with
  | some d => takeLineEvent p d s
  | none => s

/-- One bit clock: a line event still due from the bit clock before is taken first (R128, log 6). -/
def bitClock (p : PortId) (din sync : Bool) (s : State) : State :=
  let s1 := takeDue p s
  s1.setPort p (clockPort din sync (s1.port p))

/-! ### BIND_SLOT at the port (R144 to R149) -/

/-- The stream has the endpoint kind a binding of this direction needs (R144). -/
def bindKindOk (r : StreamRec) : Dir → Bool
  | .rx => decide (r.producer = .portRx)
  | .tx => decide (r.consumer = .portTx)

/-- The status with which the checks of a BIND_SLOT end (R144). -/
def bindStatus (s : State) (p : PortId) (j : Fin 32) (action : BindAction) : Status :=
  let r := s.port p
  let x := r.slot j
  if r.lock = .off then .portOff
  else if r.slots ≤ j.val then .badRecord
  else
    match action with
    | .bind dir n =>
        if !(s.stream n).defined then .noStream
        else if !bindKindOk (s.stream n) dir then .wrongEndpoint
        else if x.current.isSome || x.pending.isSome then .slotBusy
        else if (mirror (s.stream n) dir).isSome then .bound
        else .ok
    | .unbind =>
        if x.current.isNone then .notFound
        else if x.pending.isSome then .slotBusy
        else .ok

/-- An accepted change is recorded pending, with its mirror (R26, R145). -/
def recordPending (p : PortId) (j : Fin 32) (action : BindAction) (q : Fin 4) (s : State) : State :=
  let x := (s.port p).slot j
  match action with
  | .bind dir n =>
      setMirror n dir (some { port := p, slot := j, phase := .pending })
        (s.setPort p ((s.port p).setSlot j { x with pending := some (.bind dir n q) }))
  | .unbind =>
      let s1 := s.setPort p ((s.port p).setSlot j { x with pending := some (.unbind q) })
      match x.current with
      | some (dir, n) => setMirror n dir (some { port := p, slot := j, phase := .unbinding }) s1
      | none => s1

/-- A change is applied at once, with its mirror (R26, R146). -/
def applyNow (p : PortId) (j : Fin 32) (action : BindAction) (q : Fin 4) (s : State) : State :=
  applySlot p j (recordPending p j action q s)

/-- An executing BIND_SLOT (R144 to R146). -/
def execBind (q : Fin 4) (p : PortId) (j : Fin 32) (action : BindAction) (s : State) : State :=
  match bindStatus s p j action with
  | .ok =>
      if (s.port p).lock = .locked then parkControl q (recordPending p j action q s)
      else finishControl q .ok 0 .none false (applyNow p j action q s)
  | st => finishControl q st 0 .none false s

/-- The pending change of a slot is withdrawn and its mirror restored (R26, R149). -/
def withdrawSlot (p : PortId) (j : Fin 32) (s : State) : State :=
  let x := (s.port p).slot j
  let s1 := s.setPort p ((s.port p).setSlot j { x with pending := none })
  match x.pending with
  | none => s
  | some (.bind dir n _) => setMirror n dir none s1
  | some (.unbind _) =>
      match x.current with
      | some (dir, n) => setMirror n dir (some { port := p, slot := j, phase := .current }) s1
      | none => s1

/-! ### The commands of the ports -/

/-- BIT_CLOCK (R128). -/
def execBitClock (p : PortId) (din sync : Bool) (s : State) : Host.Outcome State Fault Refusal :=
  taken s (bitClock p din sync s)

/-- FRAME_EVENT (R138): taken where a frame event is due (log 3, log 6). -/
def execFrameEvent (p : PortId) (s : State) : Host.Outcome State Fault Refusal :=
  taken s (match (s.port p).due with
    | some (.frame mark) => frameEvent p mark s
    | _ => s)

/-- HUNT_SYNC_MARK (R133). -/
def execHuntSyncMark (p : PortId) (s : State) : Host.Outcome State Fault Refusal :=
  taken s (match (s.port p).due with
    | some .huntMark => huntMark p s
    | _ => s)

/-- CANDIDATE_DROP (R133). -/
def execCandidateDrop (p : PortId) (s : State) : Host.Outcome State Fault Refusal :=
  taken s (match (s.port p).due with
    | some .drop => dropCandidate p s
    | _ => s)

/-- LOCK_EVENT (R134). -/
def execLockEvent (p : PortId) (s : State) : Host.Outcome State Fault Refusal :=
  taken s (match (s.port p).due with
    | some .lock => lockEvent p s
    | _ => s)

/-- LOSS_EVENT (R136). -/
def execLossEvent (p : PortId) (s : State) : Host.Outcome State Fault Refusal :=
  taken s (match (s.port p).due with
    | some (.loss reason) => lossEvent p reason s
    | _ => s)

end Sys2Proof.Machine
end

