-- ==== Sys2Proof/Machine/Control.lean ====
section
/-! DEFINITION. The control unit (chapter 2, 2.8) and the control records it executes: DEFINE_STREAM, RETIRE_STREAM, READ_STREAM,
BIND_SLOT, CHAIN_CONTROL, CLEAR_CONTEXT, ABORT and MARKER. -/

namespace Sys2Proof.Machine

open Sys2Proof

/-! ### Stream records (R19 to R24) -/

/-- An executing DEFINE_STREAM (R19, R20). -/
def execDefine (q : Fin 4) (n : Fin 48) (base length hist : Nat) (producer : Producer) (consumer : Consumer)
    (policy : OverrunPolicy) (idle : Sample) (s : State) : State :=
  if placementMeets s n base length then finishControl q .overlap 0 .none false s
  else if (s.stream n).defined then finishControl q .exists_ 0 .none false s
  else
    finishControl q .ok 0 .none false
      (notify ({ s with store := storeWriteAll s.store (historyZeroes base length hist) }.setStream n
        (definedStream base length hist producer consumer policy idle)) n)

/-- An executing RETIRE_STREAM (R21, R22). -/
def execRetire (q : Fin 4) (n : Fin 48) (s : State) : State :=
  match retireStatus (s.stream n) with
  | .ok => finishControl q .ok 0 .none false (notify (s.setStream n StreamRec.free) n)
  | st => finishControl q st 0 .none false s

/-- An executing READ_STREAM: the snapshot is captured and its write issued (R23). -/
def execRead (q : Fin 4) (n : Fin 48) (addr : Word) (rearm : Bool) (s : State) : State :=
  if (s.stream n).defined then
    { s with cu := { s.cu with work := some (.snapshot q n addr rearm (snapshotBytes n (s.stream n))) } }
  else finishControl q .noStream 0 .none false s

/-! ### CLEAR_CONTEXT (R126) -/

/-- An executing CLEAR_CONTEXT. -/
def execClearContext (q : Fin 4) (c : Fin 32) (s : State) : State :=
  if (s.context c).held then finishControl q .inUse 0 .none false s
  else if (s.context c).binding.isSome then finishControl q .ok 1 .none false (s.setContext c Context.unbound)
  else finishControl q .ok 0 .none false s

/-! ### ABORT (R67 to R72) -/

/-- Tag of the record a head holds, where an ABORT can meet it (R67). -/
def abortTag : Head → Option Word
  | .data _ h _ => some h.tag
  | .control _ h _ _ => some h.tag
  | _ => none

/-- A STARTING target: its start sequence ends at the step it has reached (R69). No other job can wait for the JOB place,
since no other job is STARTING. -/
def abortStarting (t : Fin 4) (s : State) : State := failStart t .aborted (withdrawWaiter t s)

/-- A PARKED target is withdrawn from what it waits for and completes ABORTED (R71, R149). Where the withdrawal frees the JOB
place, the job that waits for it looks up its address before the target's completion is handed over: DESIGN CHOICE, log
37. -/
def abortParked (t : Fin 4) (body : ControlRec) (s : State) : State :=
  completeControl t .aborted 0 .none false
    (match body with
    | .bindSlot p j _ => withdrawSlot p j s
    | .chainControl _ _ => retryJobPlace (withdrawWaiter t s)
    | _ => s)

/-- An ABORT acts on its target by the target's record state; it then completes, or waits for a RUNNING target's completion
(R68 to R72). -/
def abortTarget (q t : Fin 4) (s : State) : State :=
  match (s.queue t).head with
  | .data _ _ j =>
      match j.jstate with
      | .waiting => finishControl q .ok 0 .none false (completeJob t .aborted s)
      | .ready => finishControl q .ok 0 .none false (completeJob t .aborted s)
      | .starting => finishControl q .ok 0 .none false (abortStarting t s)
      | .running => { s with stopReq := true, cu := { s.cu with work := some (.abortWait q t) } }
  | .control _ _ body st =>
      match st with
      | .controlWait => finishControl q .ok 0 .none false (completeControl t .aborted 0 .none false s)
      | .parked => finishControl q .ok 0 .none false (abortParked t body s)
      | .executing => finishControl q .notFound 0 .none false s
  | _ => finishControl q .notFound 0 .none false s

/-- An executing ABORT: the look at the target head (R67). -/
def execAbort (q t : Fin 4) (tag : Word) (s : State) : State :=
  if abortTag (s.queue t).head = some tag then abortTarget q t s else finishControl q .notFound 0 .none false s

/-! ### Selection and execution (R47, R48) -/

/-- Execute a control record by its kind. -/
def executeControl (q : Fin 4) (body : ControlRec) (s : State) : State :=
  match body with
  | .defineStream n base length hist producer consumer policy idle =>
      execDefine q n base length hist producer consumer policy idle s
  | .retireStream n => execRetire q n s
  | .readStream n addr rearm => execRead q n addr rearm s
  | .bindSlot p j action => execBind q p j action s
  | .chainControl action addr => chainControl q action addr s
  | .clearContext c => execClearContext q c s
  | .abort t tag => execAbort q t tag s
  | .marker => finishControl q .ok 0 .none false s

/-- The head the control unit selects (R47). -/
def selected (s : State) : Option (Fin 4) :=
  (queuesAfter s.cu.last).find? (fun q => ctlIn .controlWait (s.queue q).head)

/-- The selected head enters EXECUTING and is executed (R47, R48). -/
def selectAndExecute (q : Fin 4) (s : State) : State :=
  match (s.queue q).head with
  | .control pos h body _ =>
      executeControl q body ({ s with cu := { s.cu with last := q } }.setHead q (.control pos h body .executing))
  | _ => s

/-- CONTROL_SELECT (R47): an idle unit in RUNNING selects. -/
def execControlSelect (s : State) : Host.Outcome State Fault Refusal :=
  taken s (if s.eng.st = .running ∧ controlIdle s = true then
    match selected s with
    | some q => selectAndExecute q s
    | none => s
  else s)

/-- SNAPSHOT_WRITE_ANSWER (R24): the rearming is taken before the completion is handed over. -/
def execSnapshotWriteAnswer (ok : Bool) (s : State) : Host.Outcome State Fault Refusal :=
  taken s (match s.cu.work with
    | some (.snapshot q n _ rearm _) =>
        if ok then
          checkDrain (finishControl q .ok 0 .none false
            (if rearm then s.setStream n (rearmStream (s.stream n)) else s))
        else checkDrain (finishControl q .busError 0 .none false s)
    | _ => s)

end Sys2Proof.Machine
end

