-- ==== Sys2Proof/Machine/Engine.lean ====
section
/-! DEFINITION. Engine control and the register window (chapters 8 and 9): the ENGCTL commands, setup, POST and CQHEAD writes, the
interrupt registers, answers to completion writes, CLEAR, pin reset and the accesses they leave outstanding. -/

namespace Sys2Proof.Machine

open Sys2Proof

/-! ### Accesses outstanding on the memory port -/

/-- The setup reads outstanding. -/
def setupAccesses (s : State) : List Access :=
  match s.eng.setup with
  | some b => if bufOpen b = 0 then [] else [{ kind := .setup, addr := s.eng.setupAdr.toNat, bytes := bufOpen b }]
  | none => []

/-- The head fetch outstanding of a queue (R39). -/
def fetchAccess (s : State) (q : Fin 4) : Option Access :=
  match (s.queue q).head with
  | .fetching pos => some { kind := .headFetch q, addr := recordAddr (s.queue q) pos, bytes := 64 }
  | _ => none

/-- Byte address of the part a fill is reading (R83). -/
def fillPartAddr (f : Fill) : Nat :=
  match f.part with
  | .header => f.addr.toNat
  | .stages => f.addr.toNat + 16
  | .coefs => f.coefAdr.toNat

/-- The fill reads outstanding. -/
def fillAccesses (s : State) : List Access :=
  match s.cache.fill with
  | some f => if bufOpen f.buf = 0 then [] else [{ kind := .fill, addr := fillPartAddr f, bytes := bufOpen f.buf }]
  | none => []

/-- The snapshot write outstanding (R23). -/
def snapshotAccesses (s : State) : List Access :=
  match s.cu.work with
  | some (.snapshot _ _ addr _ bytes) => [{ kind := .snapshot, addr := addr.toNat, bytes := bytes.length }]
  | _ => []

/-- The completion write outstanding: a body of 31 bytes or a phase byte (R155). -/
def cqAccesses (s : State) : List Access :=
  match s.cq.wrlist, s.cq.wr with
  | r :: _, .body => [{ kind := .cqWrite, addr := cqAddr s.cq r, bytes := 31 }]
  | r :: _, .phase => [{ kind := .cqWrite, addr := cqAddr s.cq r + 31, bytes := 1 }]
  | _, _ => []

/-- Every access of the engine that is issued and not answered (R181). -/
def outstandingAccesses (s : State) : List Access :=
  setupAccesses s ++ queueIds.filterMap (fetchAccess s) ++ fillAccesses s
    ++ s.dp.reads.map (fun r => { kind := .dpRead, addr := r.addr, bytes := 2 * r.words })
    ++ s.dp.writes.map (fun w => { kind := .dpWrite, addr := w.addr, bytes := 2 * w.data.length })
    ++ snapshotAccesses s ++ cqAccesses s

/-- The accesses whose answers will be thrown away once the engine is reset now (R181, R182). -/
def abandoned (s : State) : List Access := s.stale ++ outstandingAccesses s

/-! ### Refused and accepted commands (R169) -/

/-- A refused ENGCTL command (R169). -/
def refuseCommand (s : State) : State := { s with eng := { s.eng with refused := true } }

/-- An accepted command moves the engine state and clears REFUSED (R169). -/
def acceptCommand (st : EngState) (s : State) : State := { s with eng := { s.eng with st := st, refused := false } }

/-! ### Setup (R172 to R176) -/

/-- The setup fails (R176). -/
def setupFail (code : FaultCode) (idx : Nat) (s : State) : State :=
  setEngine { s with eng := { s.eng with st := .off, fault := code, faultIdx := idx, setup := none } }

/-- The setup record's address can be read (R172 step 1). -/
def setupAddressOk (addr : Word) : Bool :=
  decide (addr.toNat % 64 = 0) && decide (addr.toNat + Config.setupBytes ≤ Config.addrTop)

/-- RUN accepted in OFF (R172). -/
def runFromOff (s : State) : State :=
  let s1 := acceptCommand .configuring s
  let s2 := { s1 with eng := { s1.eng with fault := .none, faultIdx := 0, setup := some (bufNew Config.setupBytes) } }
  if setupAddressOk s.eng.setupAdr then s2 else setupFail .setupAlign 0 s2

/-- A check of the setup record: whether it holds, and the code and unit of its failure. -/
structure SetupCheck where
  ok : Bool
  code : FaultCode
  idx : Nat
  deriving DecidableEq, Repr

/-- Checks 1 to 4 of R173 for a queue. -/
def queueChecks (r : SetupRec) (q : Fin 4) : List SetupCheck :=
  let x := r.queues[q.val]
  if x.present then
    [⟨decide (x.base.toNat % 64 = 0), .queueAlign, q.val⟩, ⟨Config.queueSizes.contains x.size, .queueSize, q.val⟩,
     ⟨decide (1 ≤ x.weight) && decide (x.weight ≤ 8), .queueWeight, q.val⟩,
     ⟨decide (x.base.toNat + 64 * x.size ≤ Config.addrTop), .ringRange, q.val⟩]
  else []

/-- Checks 5 to 8 of R173. -/
def cqChecks (r : SetupRec) : List SetupCheck :=
  [⟨decide (r.cqBase.toNat % 32 = 0), .cqAlign, 4⟩, ⟨Config.cqSizes.contains r.cqSize, .cqSize, 4⟩,
   ⟨decide (r.cqBase.toNat + 32 * r.cqSize ≤ Config.addrTop), .ringRange, 4⟩,
   ⟨decide (1 ≤ r.cqThresh) && decide (r.cqThresh ≤ 64) && decide (r.cqDelay ≤ 1023), .coalesce, 4⟩]

/-- Checks 9 to 11 of R173 for a port. -/
def portChecks (r : SetupRec) (p : Fin 2) : List SetupCheck :=
  let x := r.ports[p.val]
  [⟨decide (x.mode ≤ 2), .portMode, p.val⟩,
   ⟨decide (x.mode = 0) || (decide (2 ≤ x.slots) && decide (x.slots ≤ 32)), .portSlots, p.val⟩,
   ⟨decide (x.mode ≠ 1) || (decide (4 ≤ x.div) && decide (x.div ≤ 1023)), .portDivisor, p.val⟩]

/-- A ring in memory: unit, first byte and length in bytes (R174). -/
structure MemRing where
  unit : Nat
  base : Nat
  bytes : Nat
  deriving DecidableEq, Repr

/-- The rings in the order SQ0, SQ1, SQ2, SQ3, CQ, absent queues left out (R174). -/
def setupRings (r : SetupRec) : List MemRing :=
  (queueIds.filter (fun q => r.queues[q.val].present)).map
      (fun q => ⟨q.val, r.queues[q.val].base.toNat, 64 * r.queues[q.val].size⟩)
    ++ [⟨4, r.cqBase.toNat, 32 * r.cqSize⟩]

/-- Check 12 of R173: each ring against every ring before it (R174). -/
def overlapChecks : List MemRing → List MemRing → List SetupCheck
  | _, [] => []
  | before, x :: rest =>
      ⟨!before.any (fun y => rangesMeet x.base x.bytes y.base y.bytes), .ringOverlap, x.unit⟩
        :: overlapChecks (before ++ [x]) rest

/-- The checks of the setup record in their order (R173). -/
def setupChecks (r : SetupRec) : List SetupCheck :=
  queueIds.flatMap (queueChecks r) ++ cqChecks r ++ portChecks r 0 ++ portChecks r 1 ++ overlapChecks [] (setupRings r)

/-- A queue as setup loads it (R28). -/
def loadedQueue (x : SetupQueue) : QueueRec :=
  if x.present then
    { QueueRec.reset with state := .active, base := x.base, size := x.size, weight := x.weight }
  else QueueRec.reset

/-- A port as setup loads it (R132). A master's first bit clock will be that of bit position 0 of its first frame (R129, log 7).
The PDIV of a FOLLOWER, which no rule checks or uses, is loaded as found: DESIGN CHOICE, log 36. The last FxSYNC sample stays
(log 8). -/
def loadedPort (x : SetupPort) (r : PortRec) : PortRec :=
  match x.mode with
  | 1 =>
      { PortRec.reset with
        mode := .master, slots := x.slots, div := x.div, lock := .locked, sync := r.sync, opening := true }
  | 2 => { PortRec.reset with mode := .follower, slots := x.slots, div := x.div, lock := .hunting, sync := r.sync }
  | _ => { PortRec.reset with sync := r.sync }

/-- The completion writer as setup loads it (R152). -/
def loadedWriter (r : SetupRec) : CqWriter :=
  { CqWriter.reset with base := r.cqBase, size := r.cqSize, cthresh := r.cqThresh, cdelay := r.cqDelay }

/-- The setup record is accepted: the blocks are loaded together and the engine moves to RUNNING (R175). -/
def setupAccept (r : SetupRec) (s : State) : State :=
  { s with
    eng := { s.eng with st := .running, setup := none }
    queues := #v[loadedQueue r.queues[0], loadedQueue r.queues[1], loadedQueue r.queues[2], loadedQueue r.queues[3]]
    waitList := []
    turn := 0
    credit := if r.queues[0].present then r.queues[0].weight else 0
    cu := ControlUnit.reset
    cq := loadedWriter r
    portA := loadedPort r.ports[0] s.portA
    portB := loadedPort r.ports[1] s.portB }

/-- The record is checked once every read has been answered (R172 step 3, R173). -/
def setupDone (b : ReadBuf) (s : State) : State :=
  if b.err then setupFail .setupBus 0 s
  else
    let r := decodeSetup (bufBytes b)
    match (setupChecks r).find? (fun c => !c.ok) with
    | some c => setupFail c.code c.idx s
    | none => setupAccept r s

/-- An answer of a setup read stays inside one 64-byte block (R172 step 2). -/
def setupRangeOk (off len : Nat) : Bool := decide (off / 64 = (off + len - 1) / 64)

/-! ### Reset (R181, R182) -/

/-- CLEAR: every block at its reset values; the sample store, IRQMASK, SETUPADR, FAULT and FAULTIDX are kept (R181). -/
def clearEngine (s : State) : State :=
  { State.reset with
    pending := s.pending
    eng := { Engine.reset with fault := s.eng.fault, faultIdx := s.eng.faultIdx, setupAdr := s.eng.setupAdr }
    irqMask := s.irqMask
    store := s.store
    stale := abandoned s }

/-- Assertion of RESET_N: every block at its pin reset values (R182). -/
def assertReset (s : State) : State :=
  { State.reset with pending := s.pending, eng := { Engine.reset with inReset := true }, stale := abandoned s }

/-! ### The ENGCTL commands -/

/-- RUN (R172, R178). RUN from HALTED serves the wait list and then the eligible queues that are not listed. -/
def execRun (s : State) : Host.Outcome State Fault Refusal :=
  taken s (match s.eng.st with
    | .off => runFromOff s
    | .halted =>
        let s1 := serveWaitList (acceptCommand .running s)
        askIfEligible 3 (askIfEligible 2 (askIfEligible 1 (askIfEligible 0 s1)))
    | _ => refuseCommand s)

/-- HALT (R177): an engine already at rest passes through DRAINING to HALTED. -/
def execHalt (s : State) : Host.Outcome State Fault Refusal :=
  taken s (if s.eng.st = .running then checkDrain (acceptCommand .draining s) else refuseCommand s)

/-- CLEAR (R181). -/
def execClear (s : State) : Host.Outcome State Fault Refusal :=
  taken s (if s.eng.st = .off ∨ s.eng.st = .halted ∨ s.eng.st = .faulted then clearEngine s else refuseCommand s)

/-- ENGCTL with NONE: accepted in every state with no effect (R169). -/
def execEngctlNone (s : State) : Host.Outcome State Fault Refusal := .next s

/-- ENGCTL with a reserved code is refused in every state (R169, R184). -/
def execEngctlReservedCode (code : BitVec 4) (s : State) : Host.Outcome State Fault Refusal :=
  if 4 ≤ code.toNat then taken s (refuseCommand s) else .refused .notThisRow

/-! ### POST (R31 to R34) -/

/-- POST is taken as ADVANCE of an existing queue (R32). -/
def advanceState (s : State) : Bool := live s || decide (s.eng.st = .faulted)

/-- Distance an ADVANCE moves PRODIDX forward (R32). -/
def advanceDistance (r : QueueRec) (index : Nat) : Nat := (index + r.size - r.prod) % r.size

/-- An ADVANCE is accepted (R32). -/
def advanceOk (s : State) (q : Fin 4) (index : Nat) : Bool :=
  let r := s.queue q
  advanceState s && present r && decide (index < r.size) && decide (qCount r + advanceDistance r index ≤ r.size - 1)

/-- POST ADVANCE (R32). -/
def execPostAdvance (q : Fin 4) (index : BitVec 12) (s : State) : Host.Outcome State Fault Refusal :=
  taken s (if advanceOk s q index.toNat then
    askIfEligible q (s.setQueue q { s.queue q with prod := index.toNat })
  else refusePost q s)

/-- POST RESTART (R33). -/
def execPostRestart (q : Fin 4) (s : State) : Host.Outcome State Fault Refusal :=
  taken s (if (s.queue q).state = .stopped then
    askIfEligible q (s.setQueue q { s.queue q with state := .active }) else s)

/-- POST FLUSH (R34). -/
def execPostFlush (q : Fin 4) (s : State) : Host.Outcome State Fault Refusal :=
  taken s (
    let r := s.queue q
    if !(live s && present r) then refusePost q s
    else if r.flushPend then s
    else if headHoldsFlush r then s.setQueue q { r with flushPend := true }
    else if headCounted r then flushEffect q s
    else flushOwn q s)

/-- POST with the reserved action is refused in every state (R31, R184). -/
def execPostReservedAction (q : Fin 4) (s : State) : Host.Outcome State Fault Refusal := taken s (refusePost q s)

/-! ### CQHEAD, interrupts, SETUPADR (R157, R164, R165, R171) -/

/-- Distance a CQHEAD write moves HEADX forward (R157). -/
def headDistance (c : CqWriter) (index : Nat) : Nat := (index + 2 * c.size - c.headx) % (2 * c.size)

/-- A CQHEAD write is accepted (R157). -/
def cqheadOk (s : State) (index : Nat) : Bool :=
  advanceState s && decide (index < 2 * s.cq.size) && decide (headDistance s.cq index ≤ postedCount s.cq)

/-- A refused CQHEAD write (R157). -/
def refuseCqhead (s : State) : State :=
  setIndexError { s with eng := { s.eng with errSrc := .cqhead, errQ := 0 } }

/-- Returned entries go first to a SUMMARY, then to the wait list (R158). -/
def entriesFreed (s : State) : State := serveWaitList (postSummary s)

/-- CQHEAD write (R157, R158). -/
def execCqheadWrite (index : BitVec 16) (s : State) : Host.Outcome State Fault Refusal :=
  taken s (if cqheadOk s index.toNat then
    let s1 := { s with cq := { s.cq with headx := index.toNat } }
    if live s && decide (headDistance s.cq index.toNat ≠ 0) then entriesFreed s1 else s1
  else refuseCqhead s)

/-- IRQPEND write: write 1 to clear (R164). -/
def execIrqpendWrite (v : Word) (s : State) : Host.Outcome State Fault Refusal :=
  taken s { s with irqPend := irqClear s.irqPend (irqBitsOf v) }

/-- IRQMASK write (R165). -/
def execIrqmaskWrite (v : Word) (s : State) : Host.Outcome State Fault Refusal :=
  taken s { s with irqMask := irqBitsOf v }

/-- SETUPADR write: taken in OFF, ignored elsewhere (R171). -/
def execSetupadrWrite (v : Word) (s : State) : Host.Outcome State Fault Refusal :=
  taken s (if s.eng.st = .off then { s with eng := { s.eng with setupAdr := v } } else s)

/-- A write that no register takes changes nothing (R167). -/
def execRegisterWriteIgnored (offset : Nat) (strobes : BitVec 4) (_value : Word) (s : State) :
    Host.Outcome State Fault Refusal :=
  if writeTaken offset strobes then .refused .notThisRow else .next s

/-! ### Pin reset (R182) -/

/-- PIN_RESET (R182). -/
def execPinReset (s : State) : Host.Outcome State Fault Refusal := .next (assertReset s)

/-- RESET_RELEASE (R182): a release while RESET_N is released already is no event (log 3). -/
def execResetRelease (s : State) : Host.Outcome State Fault Refusal :=
  .next { s with eng := { s.eng with inReset := false } }

/-! ### Answers of the memory port to engine control, the fetcher and the writer -/

/-- SETUP_READ_ANSWER (R172): an answer that fits no outstanding read answers nothing (log 3). -/
def execSetupReadAnswer (off : Nat) (a : Answer) (s : State) : Host.Outcome State Fault Refusal :=
  taken s (match s.eng.setup with
    | none => s
    | some b =>
        if answerFits b off (answerLength a) && setupRangeOk off (answerLength a) then
          let b1 := bufTake b off a
          if bufDone b1 then setupDone b1 s else { s with eng := { s.eng with setup := some b1 } }
        else s)

/-- A fetch answer for a head whose data is to be discarded: the head becomes EMPTY (R41). -/
def discardFetch (q : Fin 4) (s : State) : State :=
  askIfEligible q (s.setQueue q { s.queue q with head := .empty, discard := false })

/-- A data record that passed decode: the stream checks, then the scheduler (R43, R52). -/
def admitData (q : Fin 4) (pos : Nat) (h : Header) (d : DataRec) (s : State) : State :=
  match jobCheck s d with
  | some st => completeHead q (completion s q h st) s
  | none => s.setHead q (.data pos h (newJob s d))

/-- Completion of a record that fails decode: with the stamps where the rule of its kind gives them to every completion of the
record, which is CHAIN_CONTROL (R89) and CLEAR_CONTEXT (R126), and 0 in every other field for the other kinds (R43, R186, log
9). -/
def badRecord (s : State) (q : Fin 4) (h : Header) : CqRec :=
  if h.kind = 0x07 ∨ h.kind = 0x08 then completion s q h .badRecord else plainCompletion q h .badRecord

/-- Decode of an arriving record (R43). -/
def decodeHead (q : Fin 4) (pos : Nat) (bytes : List Byte) (s : State) : State :=
  let h := decodeHeader bytes
  match decodeBody q bytes with
  | none => completeHead q (badRecord s q h) s
  | some (.data d) => admitData q pos h d s
  | some (.control c) => s.setHead q (.control pos h c .controlWait)

/-- HEAD_FETCH_DATA (R41 to R43): bytes that are not the 64 of an outstanding fetch answer nothing (log 3). -/
def execHeadFetchData (q : Fin 4) (bytes : List Byte) (s : State) : Host.Outcome State Fault Refusal :=
  taken s (match (s.queue q).head with
    | .fetching pos =>
        if bytes.length ≠ 64 then s
        else if (s.queue q).discard then discardFetch q s
        else decodeHead q pos bytes s
    | _ => s)

/-- HEAD_FETCH_ERROR (R40, R41). -/
def execHeadFetchError (q : Fin 4) (s : State) : Host.Outcome State Fault Refusal :=
  taken s (match (s.queue q).head with
    | .fetching pos =>
        if (s.queue q).discard then discardFetch q s
        else
          completeHead q { plainCompletion q noHeader .fetchError with count := pos }
            (s.setQueue q { s.queue q with state := .stopped })
    | _ => s)

/-- BODY_WRITE_ANSWER (R155): the phase write is issued. -/
def execBodyWriteAnswer (s : State) : Host.Outcome State Fault Refusal :=
  taken s (if s.cq.wr = .body then { s with cq := { s.cq with wr := .phase } } else s)

/-- PHASE_WRITE_ANSWER (R155). -/
def execPhaseWriteAnswer (s : State) : Host.Outcome State Fault Refusal :=
  taken s (if s.cq.wr = .phase then recordWritten s else s)

/-- Entry to FAULTED (R156, R179). -/
def enterFaulted (s : State) : State :=
  setEngine { s with
    eng := { s.eng with st := .faulted, fault := .cqWrite, faultIdx := 0 }
    cq := { s.cq with wrlist := [], wr := .idle } }

/-- CQ_WRITE_ERROR (R156, R179). -/
def execCqWriteError (s : State) : Host.Outcome State Fault Refusal :=
  taken s (if s.cq.wr = .idle then s else enterFaulted s)

/-- The stale accesses after an answer of so many bytes to the `k`-th of them (log 14). -/
def staleAfter : List Access → Nat → Nat → List Access
  | [], _, _ => []
  | a :: rest, 0, n => if a.bytes ≤ n then rest else { a with bytes := a.bytes - n } :: rest
  | a :: rest, k + 1, n => a :: staleAfter rest k n

/-- STALE_ANSWER_DISCARD (R181, R182): the answer is thrown away; it is one less to come. -/
def execStaleAnswerDiscard (k bytes : Nat) (s : State) : Host.Outcome State Fault Refusal :=
  .next { s with stale := staleAfter s.stale k bytes }

end Sys2Proof.Machine
end

