-- ==== Sys2Proof/Machine/Dispatch.lean ====
section
/-! DEFINITION. The meaning of each command: one arm for each constructor of `Instr`, one direct call of its meaning. -/

namespace Sys2Proof.Machine

open Sys2Proof

/-- The effect of a command on everything but the queue of waiting commands. -/
def exec (i : Instr) (s : State) : Host.Outcome State Fault Refusal :=
  match i with
  | .run => Sys2Proof.Machine.execRun s
  | .halt => Sys2Proof.Machine.execHalt s
  | .clear => Sys2Proof.Machine.execClear s
  | .engctlNone => Sys2Proof.Machine.execEngctlNone s
  | .postAdvance queue index => Sys2Proof.Machine.execPostAdvance queue index s
  | .postRestart queue => Sys2Proof.Machine.execPostRestart queue s
  | .postFlush queue => Sys2Proof.Machine.execPostFlush queue s
  | .cqheadWrite index => Sys2Proof.Machine.execCqheadWrite index s
  | .irqpendWrite value => Sys2Proof.Machine.execIrqpendWrite value s
  | .irqmaskWrite value => Sys2Proof.Machine.execIrqmaskWrite value s
  | .setupadrWrite value => Sys2Proof.Machine.execSetupadrWrite value s
  | .registerWriteIgnored offset strobes value => Sys2Proof.Machine.execRegisterWriteIgnored offset strobes value s
  | .pinReset => Sys2Proof.Machine.execPinReset s
  | .resetRelease => Sys2Proof.Machine.execResetRelease s
  | .tick => Sys2Proof.Machine.execTick s
  | .waitTimerExpiry queue => Sys2Proof.Machine.execWaitTimerExpiry queue s
  | .coalescingTimerExpiry => Sys2Proof.Machine.execCoalescingTimerExpiry s
  | .setupReadAnswer offset answer => Sys2Proof.Machine.execSetupReadAnswer offset answer s
  | .headFetchData queue bytes => Sys2Proof.Machine.execHeadFetchData queue bytes s
  | .headFetchError queue => Sys2Proof.Machine.execHeadFetchError queue s
  | .controlSelect => Sys2Proof.Machine.execControlSelect s
  | .snapshotWriteAnswer ok => Sys2Proof.Machine.execSnapshotWriteAnswer ok s
  | .stopRequest => Sys2Proof.Machine.execStopRequest s
  | .changeNotice stream order => Sys2Proof.Machine.execChangeNotice stream order s
  | .grant reads => Sys2Proof.Machine.execGrant reads s
  | .fillBegin order => Sys2Proof.Machine.execFillBegin order s
  | .fillReadAnswer offset answer order reads => Sys2Proof.Machine.execFillReadAnswer offset answer order reads s
  | .computeSample reads => Sys2Proof.Machine.execComputeSample reads s
  | .dpReadAnswer k data reads => Sys2Proof.Machine.execDpReadAnswer k data reads s
  | .dpReadError k => Sys2Proof.Machine.execDpReadError k s
  | .dpWriteAnswer k => Sys2Proof.Machine.execDpWriteAnswer k s
  | .dpWriteError k => Sys2Proof.Machine.execDpWriteError k s
  | .frameEvent port => Sys2Proof.Machine.execFrameEvent port s
  | .huntSyncMark port => Sys2Proof.Machine.execHuntSyncMark port s
  | .candidateDrop port => Sys2Proof.Machine.execCandidateDrop port s
  | .lockEvent port => Sys2Proof.Machine.execLockEvent port s
  | .lossEvent port => Sys2Proof.Machine.execLossEvent port s
  | .bodyWriteAnswer => Sys2Proof.Machine.execBodyWriteAnswer s
  | .phaseWriteAnswer => Sys2Proof.Machine.execPhaseWriteAnswer s
  | .cqWriteError => Sys2Proof.Machine.execCqWriteError s
  | .staleAnswerDiscard k bytes => Sys2Proof.Machine.execStaleAnswerDiscard k bytes s
  | .bitClock port din sync => Sys2Proof.Machine.execBitClock port din sync s
  | .engctlReservedCode code => Sys2Proof.Machine.execEngctlReservedCode code s
  | .postReservedAction queue => Sys2Proof.Machine.execPostReservedAction queue s

end Sys2Proof.Machine
end

