-- ==== Sys2Proof/Safety.lean ====
section
/-! DEFINITION. What a sound state of the block is: the laws the manual says its blocks keep, each as a property of
one state. The claims show that every step keeps them. -/

namespace Sys2Proof.Machine

open Sys2Proof

/-! ### Words the claims share -/

/-- RESET_N is released: the block takes commands (R182). -/
abbrev awake (s : State) : Prop := s.eng.inReset = false

/-- The idle control unit in RUNNING selects the control record of queue `q`: no queue looked at before it has a head in
CONTROL_WAIT (R47). -/
structure Selects (s : State) (q : Fin 4) (pos : Nat) (h : Header) (body : ControlRec) : Prop where
  awake : s.eng.inReset = false
  running : s.eng.st = .running
  idle : s.cu.work = none
  head : (s.queue q).head = .control pos h body .controlWait
  first : ∀ d : Fin 4, d < q - s.cu.last - 1 → ctlIn .controlWait (s.queue (s.cu.last + 1 + d)).head = false

/-- The state in which the selected record executes: its head EXECUTING, the last-served number its queue (R47). -/
def executing (q : Fin 4) (pos : Nat) (h : Header) (body : ControlRec) (s : State) : State :=
  { s with cu := { work := none, last := q } }.setHead q (.control pos h body .executing)

/-- The job a head holds, in RUNNING, computing. -/
structure Computes (s : State) (pos : Nat) (h : Header) (j : JobRec) : Prop where
  awake : s.eng.inReset = false
  compute : s.dp.st = .compute
  head : (s.queue s.dp.jobq).head = .data pos h j

/-! ### The sample store and the job in the datapath -/

/-- The sample store is in its canonical form, every listed word inside the store (R1). -/
abbrev StoreSound (s : State) : Prop := storeWf s.store = true

/-- At most one job is STARTING or RUNNING (R60). -/
abbrev OneJob (s : State) : Prop :=
  ∀ q r : Fin 4, jobActive (s.queue q).head = true → jobActive (s.queue r).head = true → q = r

/-! ### Heads, reservations and the completion ring (R27, R38, R47, R70, R95, R151) -/

/-- The head is FETCHING and its data is to be discarded: it holds no reservation (R35). -/
def discarding (r : QueueRec) : Bool :=
  match r.head with
  | .fetching _ => r.discard
  | _ => false

/-- A head that is not EMPTY holds one completion reservation, unless its data is to be discarded (R27, R35). -/
def holdsReservation (r : QueueRec) : Bool := decide (r.head ≠ .empty) && !discarding r

/-- Number of heads that hold a reservation. -/
def reservationsHeld (s : State) : Nat := (queueIds.filter (fun q => holdsReservation (s.queue q))).length

/-- Queue of the record that keeps the control unit busy. -/
def workQueue : CuWork → Fin 4
  | .snapshot q _ _ _ _ => q
  | .abortWait q _ => q
  | .placeWait q => q

/-- What an entry of the reservation wait list says of its queue (R37, R38). -/
def waitEntrySound (s : State) (e : Fin 4 × Purpose) : Prop :=
  match e.2 with
  | .fetch => (s.queue e.1).head = .empty ∧ (s.queue e.1).flushPend = false
  | .flush => ((s.queue e.1).head = .empty ∨ discarding (s.queue e.1) = true) ∧ (s.queue e.1).flushPend = true

/-- Each queue stands in the wait list at most once, with a purpose that fits its head (R38). -/
def WaitListSound (s : State) : Prop := (s.waitList.map Prod.fst).Nodup ∧ ∀ e ∈ s.waitList, waitEntrySound s e

/-- DISCARD is 1 only while the head is FETCHING (R27). -/
def DiscardSound (s : State) : Prop := ∀ q : Fin 4, (s.queue q).discard = true → discarding (s.queue q) = true

/-- A head is RUNNING exactly while the datapath holds its job (R95). -/
def RunningSound (s : State) : Prop :=
  ∀ q : Fin 4, headIn .running (s.queue q).head = true ↔ s.dp.st ≠ .idle ∧ s.dp.jobq = q

/-- A head is EXECUTING exactly while the control unit is busy with it (R47). -/
def ExecutingSound (s : State) : Prop :=
  ∀ q : Fin 4, ctlIn .executing (s.queue q).head = true ↔ s.cu.work.map workQueue = some q

/-- An ABORT that waits, waits for a RUNNING head (R72). -/
def AbortSound (s : State) : Prop :=
  match s.cu.work with
  | some (.abortWait _ t) => headIn .running (s.queue t).head = true
  | _ => True

/-- In OFF and CONFIGURING every head is EMPTY and no queue waits for a reservation (R169). -/
def RestSound (s : State) : Prop :=
  s.eng.st = .off ∨ s.eng.st = .configuring → s.waitList = [] ∧ ∀ q : Fin 4, (s.queue q).head = .empty

/-- TAILX and HEADX are indices of the ring, or 0 while no ring is set up (R151). -/
def indicesSound (c : CqWriter) : Prop :=
  if c.size = 0 then c.tailx = 0 ∧ c.headx = 0 else c.tailx < 2 * c.size ∧ c.headx < 2 * c.size

/-- RESV counts the heads that hold a reservation, and reserved entries plus posted, unconsumed entries never exceed the
ring size (R46, R151). -/
def RingSound (s : State) : Prop :=
  indicesSound s.cq ∧ s.cq.resv = reservationsHeld s ∧ postedCount s.cq + s.cq.resv ≤ s.cq.size

/-- The laws of heads, reservations, the control unit and the datapath together. -/
structure HeadsSound (s : State) : Prop where
  wait : WaitListSound s
  discard : DiscardSound s
  oneJob : OneJob s
  running : RunningSound s
  executing : ExecutingSound s
  abort : AbortSound s
  rest : RestSound s
  ring : RingSound s

/-! ### Engine control and the completion writer's writes (R155, R156, R162, R172, R179) -/

/-- A setup read is under way exactly in CONFIGURING. -/
def SetupSound (s : State) : Prop := s.eng.setup.isSome = true ↔ s.eng.st = .configuring

/-- In FAULTED the cause is CQ_WRITE and no record is left to write, and none is in OFF and CONFIGURING; a completion write is
outstanding exactly while a record waits to be written; a running coalescing timer counts at least one written record;
FAULTIDX is 0 to 4. -/
structure EngineSound (s : State) : Prop where
  setup : SetupSound s
  faulted : s.eng.st = .faulted → s.eng.fault = .cqWrite ∧ s.eng.faultIdx = 0 ∧ s.cq.wrlist = []
  rest : s.eng.st = .off ∨ s.eng.st = .configuring → s.cq.wrlist = []
  writing : s.cq.wr = .idle ↔ s.cq.wrlist = []
  timer : s.cq.ctimer.isSome = true → 1 ≤ s.cq.ccount
  faultIdx : s.eng.faultIdx ≤ 4

/-! ### Rings in the store (R19) -/

/-- The ring of a DEFINED stream lies in the store and leaves room beside its history (R2). -/
def ringFits (base length hist : Nat) : Prop := base + length ≤ Config.storeWords ∧ hist + 16 ≤ length

/-- A DEFINE_STREAM that a head holds passed its decode checks. -/
def defineFits (h : Head) : Prop :=
  match h with
  | .control _ _ (.defineStream _ base length hist _ _ _ _) _ => ringFits base length hist
  | _ => True

/-- No two DEFINED rings share a word of the store, and each lies within it (R19). -/
structure RingsSound (s : State) : Prop where
  fits : ∀ n : Fin 48, (s.stream n).defined = true → ringFits (s.stream n).base (s.stream n).length (s.stream n).hist
  apart : ∀ n m : Fin 48, n ≠ m → (s.stream n).defined = true → (s.stream m).defined = true →
    rangesMeet (s.stream n).base (s.stream n).length (s.stream m).base (s.stream m).length = false
  held : ∀ q : Fin 4, defineFits (s.queue q).head

/-! ### Frame ports (R131 to R142) -/

/-- A line event can be due only in the lock state it belongs to. -/
def dueSound (r : PortRec) : Prop :=
  match r.due with
  | none => True
  | some (.frame mark) => r.lock = .locked ∧ (r.mode = .master → mark = true)
  | some (.loss _) => r.lock = .locked ∧ r.mode = .follower
  | some .lock => r.lock = .hunting
  | some .huntMark => r.lock = .hunting
  | some .drop => r.lock = .hunting

/-- A slot moves no sample and is not driven. -/
def slotSilent (r : PortRec) (j : Fin 32) : Prop := r.slot j = Slot.free ∧ r.txhold[j.val] = none

/-- The laws of one port's record. -/
structure PortSound (r : PortRec) : Prop where
  off : r.mode = .off ↔ r.lock = .off
  master : r.mode = .master → r.lock = .locked ∧ r.miss = false
  slots : r.mode = .off ∨ (2 ≤ r.slots ∧ r.slots ≤ 32)
  bitpos : r.lock = .locked → r.bitpos < frameBits r
  silent : r.lock ≠ .locked → ∀ j : Fin 32, r.txhold[j.val] = none ∧ (r.slot j).pending = none
  unused : ∀ j : Fin 32, r.mode = .off ∨ r.slots ≤ j.val → slotSilent r j
  candidate : ∀ c, r.candidate = some c → r.lock = .hunting ∧
    (c < frameBits r ∨ (c = frameBits r ∧ (r.due = some .lock ∨ r.due = some .drop)))
  opening : r.opening = true → r.mode = .master ∧ r.bitpos = 0 ∧ r.due = none
  due : dueSound r

/-- Both ports keep the laws. -/
abbrev PortsSound (s : State) : Prop := PortSound s.portA ∧ PortSound s.portB

/-! ### The chain cache (R76 to R87) -/

/-- A waiter of a request or fill of an address: a STARTING job of that chain, or a PARKED LOAD or LOAD_PIN of it. -/
def waiterSound (s : State) (wait : ChainWait) (addr : Word) (q : Fin 4) : Prop :=
  match (s.queue q).head with
  | .data _ _ j => j.jstate = .starting ∧ j.chainWait = wait ∧
      (match j.data.kind with | .filter a _ => a = addr | .mix _ => False)
  | .control _ _ (.chainControl .load a) .parked => a = addr
  | .control _ _ (.chainControl .loadPin a) .parked => a = addr
  | _ => False

/-- All waiters of the loader, those of the fill first. -/
def allWaiters (s : State) : List (Fin 4) :=
  (s.cache.fill.map Fill.waiters).getD [] ++ s.cache.reqs.flatMap Request.waiters

/-- The entry a head's job holds. -/
def heldEntry (h : Head) : Option (Fin 8) := (headJob h).bind JobRec.chainEnt

/-- The laws of the chain cache and its loader. -/
structure CacheSound (s : State) : Prop where
  distinct : ∀ e f : Fin 8, (s.entry e).estate ≠ .empty → (s.entry f).estate ≠ .empty →
    (s.entry e).addr = (s.entry f).addr → e = f
  requests : (s.cache.reqs.map Request.addr).Nodup ∧ (s.cache.reqs.map Request.place).Nodup ∧
    ∀ r ∈ s.cache.reqs, r.waiters ≠ [] ∧ ∀ e : Fin 8, (s.entry e).estate ≠ .empty → (s.entry e).addr ≠ r.addr
  filling : ∀ e : Fin 8, (s.entry e).estate = .filling ↔ s.cache.fill.map Fill.entry = some e
  fillAddr : ∀ f, s.cache.fill = some f → (s.entry f.entry).addr = f.addr
  lru : s.cache.lru.Nodup ∧ ∀ e : Fin 8, e ∈ s.cache.lru ↔ (s.entry e).estate = .valid ∧ (s.entry e).stale = false
  empty : ∀ e : Fin 8, (s.entry e).estate = .empty → s.entry e = Entry.free
  pinned : ∀ e : Fin 8, (s.entry e).pinned = true → (s.entry e).estate = .valid ∧ (s.entry e).stale = false
  held : ∀ e : Fin 8, (s.entry e).inuse = true ↔
    ∃ q : Fin 4, headIn .running (s.queue q).head = true ∧ heldEntry (s.queue q).head = some e
  holder : ∀ (q : Fin 4) (e : Fin 8), heldEntry (s.queue q).head = some e →
    headIn .running (s.queue q).head = true ∧ (s.entry e).estate = .valid
  stale : ∀ e : Fin 8, (s.entry e).estate = .valid → (s.entry e).stale = true → (s.entry e).inuse = true
  waitersOnce : (allWaiters s).Nodup
  waitFill : ∀ f, s.cache.fill = some f → ∀ q ∈ f.waiters, waiterSound s .filling f.addr q
  waitReq : ∀ r ∈ s.cache.reqs, ∀ q ∈ r.waiters, waiterSound s .requested r.addr q
  pins : pinCount s ≤ Config.maxPins

/-! ### Work records held in heads (R51) -/

/-- A data record that a head holds passed its decode checks: a block of 1 to 1024 samples, 1 to 4 inputs, no stream twice
among them. -/
def dataFits (h : Head) : Prop :=
  match h with
  | .data _ _ j => 1 ≤ j.data.n ∧ j.data.n ≤ 1024 ∧ 1 ≤ j.data.inputs.length ∧ j.data.inputs.length ≤ 4 ∧
      (streamInputs j.data).Nodup
  | _ => True

/-- Every data record held passed its decode checks. -/
abbrev DataSound (s : State) : Prop := ∀ q : Fin 4, dataFits (s.queue q).head

/-! ### Filter contexts (R116, R119) -/

/-- Context of the job a head holds. -/
def headContext (h : Head) : Option (Fin 32) := (headJob h).bind (fun j => jobContext j.data)

/-- HELD marks exactly the context of the RUNNING job, which holds its chain entry; an UNBOUND context holds zero state. -/
structure ContextsSound (s : State) : Prop where
  held : ∀ c : Fin 32, (s.context c).held = true ↔
    ∃ q : Fin 4, headIn .running (s.queue q).head = true ∧ headContext (s.queue q).head = some c
  unbound : ∀ c : Fin 32, (s.context c).binding = none → (s.context c).sstate = bqZero
  chained : ∀ q : Fin 4, headIn .running (s.queue q).head = true → (headContext (s.queue q).head).isSome = true →
    (heldEntry (s.queue q).head).isSome = true

/-! ### The datapath's working record (R95, R97, R109, R110) -/

/-- What the datapath's record holds while it computes a job of a data record. -/
structure ComputeSound (dp : Datapath) (d : DataRec) : Prop where
  noEnd : dp.endStat = .none ∧ dp.trapAt = none
  next : dp.next < d.n
  finished : dp.finished + dp.gather.length = dp.next
  gather : dp.gather.length ≤ Config.gatherMax
  inputs : dp.inputs.length = d.inputs.length
  streamOutput : endpointStream d.output ≠ none → dp.gather = []
  clips : dp.gather = [] → dp.clipsDone = dp.clips

/-- What it holds once the end is taken. -/
structure SettleSound (dp : Datapath) (d : DataRec) : Prop where
  ended : dp.endStat ≠ .none
  gather : dp.gather = []
  clips : dp.clipsDone = dp.clips
  busy : dp.reads ≠ [] ∨ dp.writes ≠ []
  finished : dp.finished ≤ d.n
  whole : dp.endStat = .ok → dp.finished = d.n

/-- The working record: fresh in IDLE, in step with its job in COMPUTE and SETTLE. -/
def DatapathSound (s : State) : Prop :=
  match s.dp.st with
  | .idle => s.dp = Datapath.idle
  | .compute => ∀ j, runningJob s = some j → ComputeSound s.dp j.data
  | .settle => ∀ j, runningJob s = some j → SettleSound s.dp j.data

/-! ### Bindings and their mirror (R26, R142, R144) -/

/-- Phase of a slot map entry, as the mirror of its stream shows it (R142). -/
def slotPhase (x : Slot) : Option (Dir × Fin 48 × BindPhase) :=
  match x.current, x.pending with
  | none, none => none
  | none, some (.bind dir n _) => some (dir, n, .pending)
  | some (dir, n), none => some (dir, n, .current)
  | some (dir, n), some (.unbind _) => some (dir, n, .unbinding)
  | none, some (.unbind _) => none
  | some _, some (.bind _ _ _) => none

/-- A BIND is held only while CURRENT is absent, an UNBIND only while it is present (R142). -/
def slotFits (x : Slot) : Prop :=
  match x.current, x.pending with
  | none, some (.unbind _) => False
  | some _, some (.bind _ _ _) => False
  | _, _ => True

/-- The slot maps and the mirror name the same slots with the same phases, and a bound stream is DEFINED with the endpoint
kind of its direction. -/
structure BindingsSound (s : State) : Prop where
  slots : ∀ (p : PortId) (j : Fin 32), slotFits ((s.port p).slot j)
  mirrored : ∀ (p : PortId) (j : Fin 32) (dir : Dir) (n : Fin 48) (ph : BindPhase),
    slotPhase ((s.port p).slot j) = some (dir, n, ph) ↔ mirror (s.stream n) dir = some ⟨p, j, ph⟩
  kinds : ∀ (n : Fin 48) (dir : Dir), (mirror (s.stream n) dir).isSome = true →
    (s.stream n).defined = true ∧ bindKindOk (s.stream n) dir = true
  rest : s.eng.st = .off ∨ s.eng.st = .configuring → s.portA.mode = .off ∧ s.portB.mode = .off

/-! ### Ring accounting and claims (R3, R4, R8, R12) -/

/-- Accounting of a DEFINED ring (R4). -/
structure RingAccount (r : StreamRec) : Prop where
  room : r.fill + r.hist ≤ r.length
  rdpos : r.rdpos < r.length
  wrpos : r.wrpos = (r.rdpos + r.fill) % r.length

/-- A STARTING or RUNNING job's streams can still feed and accept its block (R8, R12). -/
def claimStands (s : State) (h : Head) : Prop :=
  match h with
  | .data _ _ j => jobActive h = true → j.claims = !(namedStreams j.data).isEmpty ∧
      ∀ x ∈ streamRoles j.data, streamCheck (s.stream x.1) x.2 j.data.n = none ∧ streamReady (s.stream x.1) x.2 j.data.n = true
  | _ => True

/-- The stream whose snapshot write is outstanding is DEFINED (R23). -/
def SnapshotSound (s : State) : Prop :=
  match s.cu.work with
  | some (.snapshot _ n _ _ _) => (s.stream n).defined = true
  | _ => True

/-- The laws of the stream table. -/
structure StreamsSound (s : State) : Prop where
  account : ∀ n : Fin 48, (s.stream n).defined = true → RingAccount (s.stream n)
  free : ∀ n : Fin 48, (s.stream n).defined = false → s.stream n = StreamRec.free
  claimed : ∀ n : Fin 48, (s.stream n).claimed = true ↔
    ∃ q : Fin 4, jobActive (s.queue q).head = true ∧ ∃ j, headJob (s.queue q).head = some j ∧ n ∈ namedStreams j.data
  stands : ∀ q : Fin 4, claimStands s (s.queue q).head
  snapshot : SnapshotSound s

end Sys2Proof.Machine
end

