-- ==== Sys2Proof/Certificates/Slice0/Obligations.lean ====
section
/-! DEFINITION. The statements for the provers. A statement about an effect gives the whole next state, so that everything it
does not name is unchanged. Where a command hands a completion over, the next state is written with `completeHead`, whose
effect is a statement of its own (`CompletingAHead`). -/

open Sys2Proof Sys2Proof.Machine

/-! ### The machine -/

/-- The block takes the command at the front of its queue; with none waiting it idles (the model's choice, log 1). -/
def Obligations.StepRunsFrontCommand : Prop :=
  (∀ (c : Instr) (rest : List Instr) (s : State), s.pending = c :: rest → step s = exec c { s with pending := rest }) ∧
  ∀ s : State, s.pending = [] → step s = .next s

/-- Every command that spells one of the hardware's runs in every state; the two terms that spell another row's write are
refused by name (the model's choice, log 27). -/
def Obligations.CommandsRun : Prop :=
  (∀ (c : Instr) (s : State), wellFormed c = true → ∃ t, exec c s = .next t) ∧
  (∀ (c : Instr) (s : State), (∀ code, c = .engctlReservedCode code → 4 ≤ code.toNat) →
    (∀ offset strobes v, c = .registerWriteIgnored offset strobes v →
      strobes ≠ 15#4 ∨ offset ∉ [0x00, 0x08, 0x0C, 0x10, 0x14, 0x18]) → ∃ t, exec c s = .next t) ∧
  (∀ (code : BitVec 4) (s : State), code.toNat < 4 → exec (.engctlReservedCode code) s = .refused .notThisRow) ∧
  ∀ (offset : Nat) (strobes : BitVec 4) (v : Word) (s : State), writeTaken offset strobes = true →
    exec (.registerWriteIgnored offset strobes v) s = .refused .notThisRow

/-- A command changes nothing of the queue of waiting commands (the model's choice, log 1). While RESET_N is asserted nothing
but its release, a new assertion and the arrival of an abandoned answer changes the block (R182; the model's choice, log
15). -/
def Obligations.QueueAndResetHold : Prop :=
  (∀ (c : Instr) (s t : State), exec c s = .next t → t.pending = s.pending) ∧
  ∀ (c : Instr) (s t : State), s.eng.inReset = true → exec c s = .next t →
    c ≠ .pinReset → c ≠ .resetRelease → (∀ k n, c ≠ .staleAnswerDiscard k n) → t = s

/-- A write of the register window spells exactly one command of the hardware: by its offset, and by the fields CMD, QUEUE,
ACTION and INDEX of R184 (R167). -/
def Obligations.WritesDecode : Prop :=
  (∀ offset strobes, writeTaken offset strobes = true ↔ strobes = 15#4 ∧ offset ∈ [0x00, 0x08, 0x0C, 0x10, 0x14, 0x18]) ∧
  (∀ offset strobes value, wellFormed (decodeWrite offset strobes value) = true) ∧
  (∀ offset strobes value, strobes ≠ 15#4 → decodeWrite offset strobes value = .registerWriteIgnored offset strobes value) ∧
  (∀ offset value, writeTaken offset 15#4 = false → decodeWrite offset 15#4 value = .registerWriteIgnored offset 15#4 value) ∧
  (∀ value : Word, decodeWrite 0x00 15#4 value =
    (match value.toNat % 16 with
      | 0 => .engctlNone
      | 1 => .run
      | 2 => .halt
      | 3 => .clear
      | n => .engctlReservedCode (BitVec.ofNat 4 n))) ∧
  (∀ value, decodeWrite 0x08 15#4 value = .setupadrWrite value) ∧
  (∀ value : Word, decodeWrite 0x0C 15#4 value =
    (match value.toNat / 16 % 4 with
      | 0 => .postAdvance (Fin.ofNat 4 value.toNat) (BitVec.ofNat 12 (value.toNat / 65536))
      | 1 => .postRestart (Fin.ofNat 4 value.toNat)
      | 2 => .postFlush (Fin.ofNat 4 value.toNat)
      | _ => .postReservedAction (Fin.ofNat 4 value.toNat))) ∧
  (∀ value : Word, decodeWrite 0x10 15#4 value = .cqheadWrite (BitVec.ofNat 16 value.toNat)) ∧
  (∀ value, decodeWrite 0x14 15#4 value = .irqpendWrite value) ∧
  ∀ value, decodeWrite 0x18 15#4 value = .irqmaskWrite value

/-- What a pin reset leaves once RESET_N is released: every record of every block whole, with the values that setup, CLEAR and a
freed entry leave too, and nothing waiting. The model's choices: the queue of commands (log 1); no line event is due (log
6); a port is not opening (log 7); the last FxSYNC and FxDIN levels are low (log 8); the list of answers to throw away (log
14); the field for RESET_N asserted (log 15); the count of overflows of finished samples (log 38). -/
def Obligations.ResetValues : Prop :=
  State.reset.eng =
    { st := .off, fault := .none, faultIdx := 0, refused := false, errSrc := .none, errQ := 0, setupAdr := 0,
      setup := none, inReset := false } ∧
  readRegister State.reset 0x04 = 0 ∧ irqAsserted State.reset = false ∧
  State.reset.irqPend = ⟨false, false, false⟩ ∧ State.reset.irqMask = ⟨false, false, false⟩ ∧
  (∀ a, storeRead State.reset.store a = 0) ∧
  QueueRec.reset =
    { state := .absent, base := 0, size := 0, weight := 0, prod := 0, cons := 0, head := .empty, discard := false,
      flushPend := false } ∧
  (∀ q : Fin 4, State.reset.queue q = QueueRec.reset) ∧ State.reset.waitList = [] ∧
  State.reset.turn = 0 ∧ State.reset.credit = 0 ∧ State.reset.notices = [] ∧ State.reset.stopReq = false ∧
  State.reset.cu = { work := none, last := 3 } ∧
  StreamRec.free =
    { defined := false, base := 0, length := 0, hist := 0, producer := .portRx, consumer := .portTx, wrpos := 0,
      rdpos := 0, fill := 0, policy := .dropNew, idle := 0, ovrcnt := 0, undcnt := 0, ovrarm := false,
      undarm := false, claimed := false, rxbind := none, txbind := none, stamp := 0 } ∧
  (∀ n : Fin 48, State.reset.stream n = StreamRec.free) ∧
  Entry.free =
    { estate := .empty, addr := 0, stages := [], pinned := false, inuse := false, stale := false } ∧
  (∀ e : Fin 8, State.reset.entry e = Entry.free) ∧
  State.reset.cache.lru = [] ∧ State.reset.cache.reqs = [] ∧ State.reset.cache.fill = none ∧
  bqZero = Vector.replicate 6 ⟨0, 0, 0, 0⟩ ∧
  (∀ c : Fin 32, State.reset.context c = { binding := none, sstate := bqZero, held := false }) ∧
  Slot.free = { current := none, pending := none } ∧
  PortRec.reset =
    { mode := .off, slots := 0, div := 0, lock := .off, fcount := 0, miss := false, bitpos := 0, candidate := none,
      rxword := Vector.replicate 32 0, txhold := Vector.replicate 32 none, map := Vector.replicate 32 Slot.free,
      sync := false, din := false, due := none, opening := false } ∧
  (∀ p : PortId, State.reset.port p = PortRec.reset ∧ portDout (State.reset.port p) = none) ∧
  Datapath.idle =
    { st := .idle, jobq := 0, next := 0, finished := 0, delay := [], bq := bqZero, clips := 0, clipsDone := 0,
      peak := 0, peakIdx := 0, overCnt := 0, endStat := .none, trapAt := none, gather := [], reads := [],
      writes := [], inputs := [] } ∧
  State.reset.dp = Datapath.idle ∧
  CqWriter.reset =
    { base := 0, size := 0, tailx := 0, headx := 0, resv := 0, foldSet := ⟨false, false, false, false⟩, foldCnt := 0,
      wrlist := [], wr := .idle, ccount := 0, ctimer := none, cthresh := 0, cdelay := 0 } ∧
  State.reset.cq = CqWriter.reset ∧ State.reset.pending = [] ∧ State.reset.stale = []

/-- The block after a pin reset keeps every law. -/
def Obligations.ResetSound : Prop :=
  StoreSound State.reset ∧ HeadsSound State.reset ∧ EngineSound State.reset ∧ RingsSound State.reset ∧
  PortsSound State.reset ∧ CacheSound State.reset ∧ DataSound State.reset ∧ ContextsSound State.reset ∧
  DatapathSound State.reset ∧ BindingsSound State.reset ∧ StreamsSound State.reset

/-! ### Laws that every step keeps -/

/-- The sample store keeps its canonical form (R1; the form is the model's own, INVENTORY). -/
def Obligations.StoreStaysSound : Prop :=
  ∀ s t : State, StoreSound s → step s = .next t → StoreSound t

/-- Reserved plus posted, unconsumed entries never exceed the completion ring; RESV counts the heads that hold a
reservation; at most one job is STARTING or RUNNING; the wait list, the control unit and the datapath agree with the
heads. -/
def Obligations.HeadsStaySound : Prop :=
  ∀ s t : State, HeadsSound s → EngineSound s → step s = .next t → HeadsSound t

/-- In FAULTED the cause is CQ_WRITE and nothing is left to write, as in OFF and CONFIGURING; a completion write is outstanding
exactly while a record waits for it; a setup read is under way exactly in CONFIGURING. The model's choices: that a record
that waits has its write outstanding is read from the rules (log 31). -/
def Obligations.EngineStaysSound : Prop :=
  ∀ s t : State, HeadsSound s → EngineSound s → step s = .next t → EngineSound t

/-- No two DEFINED rings share a word of the sample store, and every DEFINED ring lies within it. -/
def Obligations.RingsStaySound : Prop :=
  ∀ s t : State, RingsSound s → step s = .next t → RingsSound t

/-- A port that is not LOCKED drives nothing and holds no pending change; slots S to 31 are silent; a master stays LOCKED;
BITPOS stays in the frame, and CANDIDATE too. The model's choices: a line event that is due until its command takes it, and
the CANDIDATE of 16 × S that a lock or a drop still due leaves (log 6); that a master's first bit clock is that of position 0
of its first frame is read from the rules (log 7). -/
def Obligations.PortsStaySound : Prop :=
  ∀ s t : State, PortsSound s → step s = .next t → PortsSound t

/-- The cache never holds two entries with one address and never pins more than 7; the LRU list holds exactly the VALID,
unstale entries; INUSE marks exactly the entry of the RUNNING job. -/
def Obligations.CacheStaysSound : Prop :=
  ∀ s t : State, HeadsSound s → EngineSound s → CacheSound s → step s = .next t → CacheSound t

/-- HELD marks exactly the context of the RUNNING job; an UNBOUND context holds zero state. -/
def Obligations.ContextsStaySound : Prop :=
  ∀ s t : State, HeadsSound s → EngineSound s → ContextsSound s → step s = .next t → ContextsSound t

/-- In COMPUTE the finished samples and those in GATHER are the computed ones; an OK end has finished every sample; SETTLE
lasts only while an access is outstanding. With GATHER empty every overflow counted is one of a finished sample (R97; the
count of those is the model's own field, log 38). -/
def Obligations.DatapathStaysSound : Prop :=
  ∀ s t : State, HeadsSound s → DataSound s → DatapathSound s → step s = .next t → DataSound t ∧ DatapathSound t

/-- The slot maps and the binding mirror name the same slots with the same phases. -/
def Obligations.BindingsStaySound : Prop :=
  ∀ s t : State, EngineSound s → PortsSound s → BindingsSound s → step s = .next t → BindingsSound t

/-- WRPOS is RDPOS + FILL modulo LENGTH and FILL + H never exceeds LENGTH; the streams a STARTING or RUNNING job claimed stay
DEFINED and can feed and accept its block. -/
def Obligations.StreamsStaySound : Prop :=
  ∀ s t : State, HeadsSound s → EngineSound s → DataSound s → RingsSound s → PortsSound s → BindingsSound s →
    StreamsSound s → step s = .next t → StreamsSound t

/-! ### Rules of the whole machine -/

/-- SETUPADR (R171): a write in OFF sets it, a write in any other state is ignored; a read returns it; a pin reset sets it
to 0; no other command changes it. -/
def Obligations.SetupAddressRule : Prop :=
  (∀ (v : Word) (s : State), awake s → s.eng.st = .off →
    exec (.setupadrWrite v) s = .next { s with eng := { s.eng with setupAdr := v } }) ∧
  (∀ (v : Word) (s : State), awake s → s.eng.st ≠ .off → exec (.setupadrWrite v) s = .next s) ∧
  (∀ s : State, readRegister s 0x08 = s.eng.setupAdr) ∧
  (∀ s t : State, exec .pinReset s = .next t → t.eng.setupAdr = 0) ∧
  ∀ (c : Instr) (s t : State), exec c s = .next t → c ≠ .pinReset → (∀ v, c ≠ .setupadrWrite v) →
    t.eng.setupAdr = s.eng.setupAdr

/-- IRQMASK and IRQ_N (R165): the line is asserted while a bit is 1 both in IRQPEND and in IRQMASK; only a write and a pin
reset change IRQMASK; CLEAR keeps it and sets IRQPEND to 0, so the line is released. -/
def Obligations.IrqMaskRule : Prop :=
  (∀ (v : Word) (s : State), awake s →
    exec (.irqmaskWrite v) s = .next { s with irqMask := ⟨v.getLsbD 0, v.getLsbD 1, v.getLsbD 2⟩ }) ∧
  (∀ s : State, irqAsserted s = true ↔
    (s.irqPend.completion = true ∧ s.irqMask.completion = true) ∨ (s.irqPend.engine = true ∧ s.irqMask.engine = true) ∨
    (s.irqPend.indexError = true ∧ s.irqMask.indexError = true)) ∧
  (∀ s : State, readRegister s 0x18 =
    BitVec.ofNat 32 (s.irqMask.completion.toNat + 2 * s.irqMask.engine.toNat + 4 * s.irqMask.indexError.toNat)) ∧
  (∀ s t : State, exec .pinReset s = .next t → t.irqMask = ⟨false, false, false⟩ ∧ irqAsserted t = false) ∧
  (∀ s t : State, awake s → s.eng.st = .off ∨ s.eng.st = .halted ∨ s.eng.st = .faulted → exec .clear s = .next t →
    t.irqPend = ⟨false, false, false⟩ ∧ irqAsserted t = false) ∧
  ∀ (c : Instr) (s t : State), exec c s = .next t → c ≠ .pinReset → (∀ v, c ≠ .irqmaskWrite v) → t.irqMask = s.irqMask

/-- FCOUNT of a port rises by one at its frame event; CLEAR, a pin reset and the acceptance of setup set it to 0 at both
ports; nothing else changes it. The model's choices: a frame event is its own command, due until it is taken, and a bit clock
that finds it still due takes it first (log 6). -/
def Obligations.FrameCounterRule : Prop :=
  (∀ (c : Instr) (s t : State) (p : PortId), exec c s = .next t →
    (t.port p).fcount = (s.port p).fcount ∨
    ((t.port p).fcount = (s.port p).fcount + 1 ∧ (∃ mark, (s.port p).due = some (.frame mark)) ∧
      (c = .frameEvent p ∨ ∃ din sync, c = .bitClock p din sync)) ∨
    ((t.port p).fcount = 0 ∧ (c = .clear ∨ c = .pinReset ∨ ∃ off a, c = .setupReadAnswer off a))) ∧
  (∀ (c : Instr) (s : State) (p : PortId) (mark : Bool), awake s → (s.port p).due = some (.frame mark) →
    (c = .frameEvent p ∨ ∃ din sync, c = .bitClock p din sync) →
    ∃ t, exec c s = .next t ∧ (t.port p).fcount = (s.port p).fcount + 1) ∧
  (∀ s : State, awake s → s.eng.st = .off ∨ s.eng.st = .halted ∨ s.eng.st = .faulted →
    ∃ t, exec .clear s = .next t ∧ ∀ p, (t.port p).fcount = 0) ∧
  (∀ s : State, ∃ t, exec .pinReset s = .next t ∧ ∀ p, (t.port p).fcount = 0) ∧
  ∀ (s : State) (b : ReadBuf) (off : Nat) (a : Answer), awake s → s.eng.setup = some b →
    answerFits b off (answerLength a) = true → off / 64 = (off + answerLength a - 1) / 64 →
    bufDone (bufTake b off a) = true → (bufTake b off a).err = false →
    (∀ x ∈ setupChecks (decodeSetup (bufBytes (bufTake b off a))), x.ok = true) →
    ∃ t, exec (.setupReadAnswer off a) s = .next t ∧ ∀ p, (t.port p).fcount = 0

/-- Outside RUNNING no record is fetched and no head enters STARTING or EXECUTING. In FAULTED nothing is posted and no
completion write is issued; the engine leaves it by CLEAR or a pin reset alone. -/
def Obligations.StoppedEngineIsSilent : Prop :=
  (∀ (c : Instr) (s t : State) (q : Fin 4), exec c s = .next t → s.eng.st ≠ .running → t.eng.st ≠ .running →
    (∀ pos, (t.queue q).head = .fetching pos → (s.queue q).head = .fetching pos) ∧
    (headIn .starting (t.queue q).head = true → headIn .starting (s.queue q).head = true) ∧
    (ctlIn .executing (t.queue q).head = true → ctlIn .executing (s.queue q).head = true)) ∧
  ∀ (c : Instr) (s t : State), EngineSound s → s.eng.st = .faulted → exec c s = .next t → c ≠ .clear → c ≠ .pinReset →
    t.eng.st = .faulted ∧ t.cq.tailx = s.cq.tailx ∧ t.cq.wrlist = s.cq.wrlist ∧ t.cq.wr = .idle ∧
    t.cq.foldSet = s.cq.foldSet ∧ t.cq.foldCnt = s.cq.foldCnt

/-! ### Completions, events and the interrupt registers -/

/-- Posting a completion against its head's reservation: the record stands at TAILX with the pass as its phase bit, TAILX
moves on modulo 2 × SIZE, RESV falls by one and the record joins the end of WRLIST; a writer with no write outstanding
issues its body write. A record posted without a reservation leaves RESV alone. The posted count is TAILX − HEADX modulo
2 × SIZE, the free, unreserved count SIZE less the posted count and RESV. The model's choices: that the body write is issued
in the step that posts is read from the rules (log 31). -/
def Obligations.PostingACompletion : Prop :=
  ∀ (c : CqWriter) (r : CqRec), cqPostReserved c r =
    { c with
      tailx := (c.tailx + 1) % (2 * c.size)
      resv := c.resv - 1
      wrlist := c.wrlist ++ [{ r with idx := c.tailx, phase := decide (c.tailx < c.size) }]
      wr := match c.wr with | .idle => .body | .body => .body | .phase => .phase } ∧
    cqPost c r = { cqPostReserved c r with resv := c.resv } ∧
    postedCount c = (c.tailx + 2 * c.size - c.headx) % (2 * c.size) ∧ freeCount c = c.size - postedCount c - c.resv

/-- A queue asks for its next record at once when it is eligible and not listed: RUNNING, ACTIVE, not empty, HEAD EMPTY,
FLUSHPEND 0. With an entry free the 64-byte read is issued: the head is FETCHING the position CONSIDX, which moves on by one,
and RESV rises by one; with none free the queue joins the end of the wait list. -/
def Obligations.EligibleQueueAsks : Prop :=
  (∀ (s : State) (q : Fin 4), eligible s q = true ↔ s.eng.st = .running ∧ (s.queue q).state = .active ∧
    (s.queue q).prod ≠ (s.queue q).cons ∧ (s.queue q).head = .empty ∧ (s.queue q).flushPend = false) ∧
  ∀ (q : Fin 4) (s : State) (r : QueueRec), r = s.queue q →
    ((s.eng.st ≠ .running ∨ r.state ≠ .active ∨ r.prod = r.cons ∨ r.head ≠ .empty ∨ r.flushPend = true ∨
        ∃ e ∈ s.waitList, e.1 = q) → askIfEligible q s = s) ∧
    (s.eng.st = .running → r.state = .active → r.prod ≠ r.cons → r.head = .empty → r.flushPend = false →
        (∀ e ∈ s.waitList, e.1 ≠ q) →
      (freeCount s.cq ≠ 0 → askIfEligible q s = { s with cq := { s.cq with resv := s.cq.resv + 1 } }.setQueue q
        { r with head := .fetching r.cons, cons := (r.cons + 1) % r.size }) ∧
      (freeCount s.cq = 0 → askIfEligible q s = { s with waitList := s.waitList ++ [(q, Purpose.fetch)] }))

/-- A head's completion is handed over. In FAULTED it is not written and its reservation returns. In every other state it is
posted and the head becomes EMPTY; then a pending flush takes effect, or waits for a reservation, and otherwise the queue
asks for its next record. -/
def Obligations.CompletingAHead : Prop :=
  ∀ (q : Fin 4) (r : CqRec) (s : State),
    (s.eng.st = .faulted →
      completeHead q r s = { s with cq := { s.cq with resv := s.cq.resv - 1 } }.setQueue q { s.queue q with head := .empty }) ∧
    (s.eng.st ≠ .faulted → ∀ u : State,
      u = { s with cq := cqPostReserved s.cq r }.setQueue q { s.queue q with head := .empty } →
      ((u.queue q).flushPend = false → completeHead q r s = askIfEligible q u) ∧
      ((u.queue q).flushPend = true → freeCount u.cq ≠ 0 → completeHead q r s =
        { u with
          waitList := u.waitList.filter (fun e => e.1 != q)
          cq := { cqPost u.cq { cqZero with
            status := .queueFlushed, queue := q, count := ((u.queue q).prod + (u.queue q).size - (u.queue q).cons) % (u.queue q).size }
            with resv := u.cq.resv } }.setQueue q
          { u.queue q with cons := (u.queue q).prod, flushPend := false }) ∧
      ((u.queue q).flushPend = true → freeCount u.cq = 0 → (∀ e ∈ u.waitList, e.1 ≠ q) →
        completeHead q r s = { u with waitList := u.waitList ++ [(q, Purpose.flush)] }))

/-- The 32 bytes of a record in memory: little-endian fields at the offsets of the layout (the byte at the lower offset holds the
less significant bits, in every record that is read or written), 0 in every reserved byte, and the phase bit alone in the last byte, which the body write of 31 bytes leaves out. `completion` gives a completion the header's
tag, kind and IRQ_NOW flag, the queue, the status and the low 16 bits of both frame counters, and 0 elsewhere; `cqZero` is 0
in every field, the stamps too. The model's choices: that every such completion carries the stamps is read from the rules (log 9). The status codes are those of the
table, in its order; the DETAIL word gives a trap's stage and sample, a chain entry, an event's kind, subject and reason, or
the SUMMARY's set. -/
def Obligations.CompletionLayout : Prop :=
  ([.ok, .waitExpired, .aborted, .queueFlushed, .badRecord, .noStream, .wrongEndpoint, .blockTooLong, .historyShort,
    .needsContext, .chainInvalid, .chainNoRoom, .overflowTrap, .busError, .fetchError, .inUse, .bound, .exists_, .overlap,
    .slotBusy, .pinLimit, .notFound, .portOff] : List Status).map statusCode = List.range 0x17 ∧
  portCode .a = 0 ∧ portCode .b = 1 ∧
  (∀ (bs : List Byte) (k : Nat), byteAt bs k = bs[k]?.getD 0 ∧ half bs k = byteAt bs (k + 1) ++ byteAt bs k ∧
    word bs k = byteAt bs (k + 3) ++ byteAt bs (k + 2) ++ byteAt bs (k + 1) ++ byteAt bs k ∧
    num8 bs k = (byteAt bs k).toNat ∧ num16 bs k = num8 bs k + 256 * num8 bs (k + 1)) ∧
  cqZero =
    { tag := 0, status := .ok, kind := 0, queue := 0, chainHit := false, ctxReset := false, waited := false, count := 0,
      clips := 0, peak := 0, peakIdx := 0, overCnt := 0, stampA := 0, stampB := 0, detail := .none, irqNow := false,
      idx := 0, phase := false } ∧
  (∀ s : State, stampA s = s.portA.fcount.extractLsb' 0 16 ∧ stampB s = s.portB.fcount.extractLsb' 0 16) ∧
  (∀ (s : State) (q : Fin 4) (h : Header) (st : Status), completion s q h st =
    { tag := h.tag, status := st, kind := h.kind, queue := q, chainHit := false, ctxReset := false, waited := false,
      count := 0, clips := 0, peak := 0, peakIdx := 0, overCnt := 0, stampA := s.portA.fcount.extractLsb' 0 16,
      stampB := s.portB.fcount.extractLsb' 0 16, detail := .none, irqNow := h.irqNow, idx := 0, phase := false }) ∧
  ∀ r : CqRec, r.count < 2 ^ 16 → r.clips < 2 ^ 16 → r.peak < 2 ^ 16 → r.peakIdx < 2 ^ 16 → r.overCnt < 2 ^ 16 →
    (cqBytes r).length = 32 ∧ cqBytes r = cqBody r ++ [cqPhaseByte r] ∧ (cqBody r).length = 31 ∧
    word (cqBytes r) 0x00 = r.tag ∧ num8 (cqBytes r) 0x04 = statusCode r.status ∧ byteAt (cqBytes r) 0x05 = r.kind ∧
    num8 (cqBytes r) 0x06 = r.queue.val ∧
    num8 (cqBytes r) 0x07 = r.chainHit.toNat + 2 * r.ctxReset.toNat + 4 * r.waited.toNat ∧
    num16 (cqBytes r) 0x08 = r.count ∧ num16 (cqBytes r) 0x0A = r.clips ∧ num16 (cqBytes r) 0x0C = r.peak ∧
    num16 (cqBytes r) 0x0E = r.peakIdx ∧ num16 (cqBytes r) 0x10 = r.overCnt ∧ half (cqBytes r) 0x12 = r.stampA ∧
    half (cqBytes r) 0x14 = r.stampB ∧ half (cqBytes r) 0x16 = 0 ∧
    (∀ stage sample, r.detail = .trap stage sample → stage < 6 → sample < 1024 →
      num8 (cqBytes r) 0x18 = stage ∧ num8 (cqBytes r) 0x19 = 0 ∧ num16 (cqBytes r) 0x1A = sample) ∧
    (∀ e, r.detail = .entry e → word (cqBytes r) 0x18 = BitVec.ofNat 32 e.val) ∧
    (∀ kind subject reason, r.detail = .event kind subject reason → subject < 48 →
      num8 (cqBytes r) 0x18 =
        (match kind with | .portLocked => 0 | .portSyncLost => 1 | .streamOverrun => 2 | .streamUnderrun => 3) ∧
      num8 (cqBytes r) 0x19 = subject ∧
      num8 (cqBytes r) 0x1A = (match reason with
        | .none => 0 | .misplaced => 1 | .missing => 2 | .newDropped => 3 | .newDroppedClaimed => 4 | .oldDropped => 5
        | .empty => 6) ∧
      num8 (cqBytes r) 0x1B = 0) ∧
    (∀ set, r.detail = .summary set → num8 (cqBytes r) 0x18 = 4 ∧ num8 (cqBytes r) 0x19 = 0xFF ∧
      num8 (cqBytes r) 0x1A = 0 ∧ num8 (cqBytes r) 0x1B =
        set.locked.toNat + 2 * set.lost.toNat + 4 * set.overrun.toNat + 8 * set.underrun.toNat) ∧
    (r.detail = .none → word (cqBytes r) 0x18 = 0) ∧
    byteAt (cqBytes r) 0x1C = 0 ∧ half (cqBytes r) 0x1D = 0 ∧ num8 (cqBytes r) 0x1F = r.phase.toNat

/-- An event handed over in RUNNING, DRAINING or HALTED is posted while an entry is free, after a SUMMARY if one is owed, and
folded otherwise; in FAULTED it is discarded. A folded event's kind joins FOLDSET. -/
def Obligations.EventRule : Prop :=
  (∀ f : FoldSet, foldAdd f .portLocked = { f with locked := true } ∧ foldAdd f .portSyncLost = { f with lost := true } ∧
    foldAdd f .streamOverrun = { f with overrun := true } ∧ foldAdd f .streamUnderrun = { f with underrun := true }) ∧
  (∀ s : State, live s = true ↔ s.eng.st = .running ∨ s.eng.st = .draining ∨ s.eng.st = .halted) ∧
  ∀ (s : State) (kind : EvKind) (subject : Nat) (reason : EvReason),
    (s.eng.st = .faulted → raiseEvent s kind subject reason = s) ∧
    (live s = true → freeCount s.cq = 0 → raiseEvent s kind subject reason =
      { s with cq := { s.cq with
          foldSet := foldAdd s.cq.foldSet kind, foldCnt := if s.cq.foldCnt < 65535 then s.cq.foldCnt + 1 else s.cq.foldCnt } }) ∧
    (live s = true → freeCount s.cq ≠ 0 → s.cq.foldSet = ⟨false, false, false, false⟩ → raiseEvent s kind subject reason =
      { s with cq := cqPost s.cq { cqZero with
          kind := 0x0F, detail := .event kind subject reason, stampA := stampA s, stampB := stampB s } }) ∧
    (live s = true → freeCount s.cq ≠ 0 → s.cq.foldSet ≠ ⟨false, false, false, false⟩ →
      raiseEvent s kind subject reason = raiseEvent { s with cq := { cqPost s.cq { cqZero with
          kind := 0x0F, count := s.cq.foldCnt, detail := .summary s.cq.foldSet, stampA := stampA s, stampB := stampB s }
          with foldSet := ⟨false, false, false, false⟩, foldCnt := 0 } } kind subject reason)

/-- A CQHEAD write (R157): refused outside the posted entries, or where no ring is set up; otherwise HEADX becomes the index,
a write of HEADX itself changing nothing, and, outside FAULTED, entries it returns go first to a SUMMARY, where one is owed
and an entry is free, then to the wait list. A read returns HEADX. -/
def Obligations.CqheadWriteRule : Prop :=
  (∀ s : State, readRegister s 0x10 = BitVec.ofNat 32 s.cq.headx) ∧
  (∀ s : State, (s.cq.foldSet = ⟨false, false, false, false⟩ ∨ freeCount s.cq = 0 → postSummary s = s) ∧
    (s.cq.foldSet ≠ ⟨false, false, false, false⟩ → freeCount s.cq ≠ 0 → postSummary s =
      { s with cq := { cqPost s.cq { cqZero with
          kind := 0x0F, count := s.cq.foldCnt, detail := .summary s.cq.foldSet, stampA := stampA s, stampB := stampB s }
          with foldSet := ⟨false, false, false, false⟩, foldCnt := 0 } })) ∧
  ∀ (index : BitVec 16) (s : State), awake s →
    (s.cq.headx < 2 * s.cq.size → index.toNat = s.cq.headx → s.eng.st ≠ .off → s.eng.st ≠ .configuring →
      exec (.cqheadWrite index) s = .next s) ∧
    ((s.eng.st = .off ∨ s.eng.st = .configuring ∨ 2 * s.cq.size ≤ index.toNat ∨
        postedCount s.cq < (index.toNat + 2 * s.cq.size - s.cq.headx) % (2 * s.cq.size)) →
      exec (.cqheadWrite index) s = .next { s with
        irqPend := { s.irqPend with indexError := true }, eng := { s.eng with errSrc := .cqhead, errQ := 0 } }) ∧
    (s.eng.st ≠ .off → s.eng.st ≠ .configuring → index.toNat < 2 * s.cq.size →
        (index.toNat + 2 * s.cq.size - s.cq.headx) % (2 * s.cq.size) ≤ postedCount s.cq →
      ((s.eng.st = .faulted ∨ (index.toNat + 2 * s.cq.size - s.cq.headx) % (2 * s.cq.size) = 0) →
        exec (.cqheadWrite index) s = .next { s with cq := { s.cq with headx := index.toNat } }) ∧
      (s.eng.st ≠ .faulted → (index.toNat + 2 * s.cq.size - s.cq.headx) % (2 * s.cq.size) ≠ 0 →
        exec (.cqheadWrite index) s =
          .next (serveWaitList (postSummary { s with cq := { s.cq with headx := index.toNat } })) ∧
        (s.cq.foldSet = ⟨false, false, false, false⟩ → s.waitList = [] →
          exec (.cqheadWrite index) s = .next { s with cq := { s.cq with headx := index.toNat } })))

/-- The wait list is served oldest first while an entry is free: a FETCH entry, in RUNNING alone, issues its fetch; a FLUSH
entry, in RUNNING, DRAINING and HALTED, takes effect: QUEUE_FLUSHED is posted with the queue's count, CONSIDX becomes PRODIDX
and FLUSHPEND 0; entries that cannot be served are passed over. -/
def Obligations.WaitListServedInOrder : Prop :=
  ∀ (q : Fin 4) (rest : List (Fin 4 × Purpose)) (s : State),
    serveWaitList s = serveEntries s.waitList s ∧
    serveEntries [] s = s ∧
    (s.eng.st ≠ .running → serveEntries ((q, .fetch) :: rest) s = serveEntries rest s) ∧
    (live s = true → freeCount s.cq = 0 → serveEntries ((q, .flush) :: rest) s = s) ∧
    (s.eng.st = .running → freeCount s.cq = 0 → serveEntries ((q, .fetch) :: rest) s = s) ∧
    (s.eng.st = .running → freeCount s.cq ≠ 0 → serveEntries ((q, .fetch) :: rest) s = serveEntries rest
      ({ s with waitList := s.waitList.filter (fun e => e.1 != q), cq := { s.cq with resv := s.cq.resv + 1 } }.setQueue q
        { s.queue q with head := .fetching (s.queue q).cons, cons := ((s.queue q).cons + 1) % (s.queue q).size })) ∧
    (live s = true → freeCount s.cq ≠ 0 → serveEntries ((q, .flush) :: rest) s = serveEntries rest
      (flushEffect q { s with waitList := s.waitList.filter (fun e => e.1 != q), cq := { s.cq with resv := s.cq.resv + 1 } })) ∧
    ∀ r : QueueRec, r = s.queue q → r.head = .empty ∨ (∃ pos, r.head = .fetching pos) ∧ r.discard = true →
      flushEffect q s = { s with cq := cqPostReserved s.cq { cqZero with
          status := .queueFlushed, queue := q, count := (r.prod + r.size - r.cons) % r.size } }.setQueue q
        { r with cons := r.prod, flushPend := false }

/-- Coalescing (R161 to R163): a written record raises CCOUNT; the threshold and an IRQ_NOW record set COMPLETION and begin
counting afresh; the first record of a run starts CTIMER; the timer's expiry sets COMPLETION. The model's choices: a timer
at 0 is an expiry that is due (log 10). -/
def Obligations.CoalescingRule : Prop :=
  (∀ (s : State) (r : CqRec) (rest : List CqRec), awake s → s.cq.wr = .phase → s.cq.wrlist = r :: rest → ∀ u : State,
    u = { s with cq := { s.cq with wrlist := rest, wr := if rest = [] then .idle else .body } } →
    ((r.irqNow = true ∨ s.cq.ccount + 1 = s.cq.cthresh) → exec .phaseWriteAnswer s = .next { u with
      irqPend := { s.irqPend with completion := true }, cq := { u.cq with ccount := 0, ctimer := none } }) ∧
    (r.irqNow = false → s.cq.ccount + 1 ≠ s.cq.cthresh → s.cq.ccount = 0 → s.cq.cdelay ≠ 0 →
      exec .phaseWriteAnswer s = .next { u with cq := { u.cq with ccount := 1, ctimer := some s.cq.cdelay } }) ∧
    (r.irqNow = false → s.cq.ccount + 1 ≠ s.cq.cthresh → s.cq.ccount ≠ 0 ∨ s.cq.cdelay = 0 →
      exec .phaseWriteAnswer s = .next { u with cq := { u.cq with ccount := s.cq.ccount + 1 } })) ∧
  ∀ s : State, awake s → s.cq.ctimer = some 0 →
    (s.cq.ccount ≠ 0 → exec .coalescingTimerExpiry s = .next { s with
      irqPend := { s.irqPend with completion := true }, cq := { s.cq with ccount := 0, ctimer := none } }) ∧
    (s.cq.ccount = 0 → exec .coalescingTimerExpiry s = .next { s with cq := { s.cq with ctimer := none } })

/-- The body write's OK answer issues the phase write; an error answer to either write drops WRLIST and moves the engine to
FAULTED with CQ_WRITE and ENGINE set, TAILX, HEADX and RESV kept. -/
def Obligations.CompletionWriteAnswers : Prop :=
  (∀ s : State, awake s → s.cq.wr = .body → exec .bodyWriteAnswer s = .next { s with cq := { s.cq with wr := .phase } }) ∧
  ∀ s : State, awake s → s.cq.wr ≠ .idle → exec .cqWriteError s = .next { s with
    eng := { s.eng with st := .faulted, fault := .cqWrite, faultIdx := 0 }, irqPend := { s.irqPend with engine := true },
    cq := { s.cq with wrlist := [], wr := .idle } }

/-! ### Engine control -/

/-- Register writes with a small effect, and reads. IRQPEND clears each bit written as 1 and leaves the others. A write that no register
takes changes nothing. ENGCTL with NONE changes nothing; RUN outside OFF and HALTED, HALT outside RUNNING, CLEAR in
CONFIGURING, RUNNING and DRAINING, and every code that is no command set REFUSED and change nothing else. A read of ENGSTAT
gives STATE, FAULT, FAULTIDX, REFUSED, ERRSRC and ERRQ in their bits and 0 in the others, a read of IRQPEND its three bits; a
read of ENGCTL, of POST and of an offset that holds no register gives 0. -/
def Obligations.RegisterWrites : Prop :=
  (∀ (s : State) (v : Word), v = readRegister s 0x04 → s.eng.faultIdx ≤ 4 →
    (v.extractLsb' 0 3).toNat = (match s.eng.st with
      | .off => 0 | .configuring => 1 | .running => 2 | .draining => 3 | .halted => 4 | .faulted => 5) ∧
    (v.extractLsb' 8 4).toNat = (match s.eng.fault with
      | .none => 0x0 | .setupAlign => 0x1 | .setupBus => 0x2 | .queueAlign => 0x3 | .queueSize => 0x4
      | .queueWeight => 0x5 | .cqAlign => 0x6 | .cqSize => 0x7 | .coalesce => 0x8 | .portMode => 0x9 | .portSlots => 0xA
      | .portDivisor => 0xB | .ringRange => 0xC | .ringOverlap => 0xD | .cqWrite => 0xE) ∧
    (v.extractLsb' 12 3).toNat = s.eng.faultIdx ∧ v.getLsbD 16 = s.eng.refused ∧
    (v.extractLsb' 24 2).toNat = (match s.eng.errSrc with | .none => 0 | .post => 1 | .cqhead => 2) ∧
    (v.extractLsb' 28 2).toNat = s.eng.errQ.val ∧ v &&& 0xCCFE80F8#32 = 0) ∧
  (∀ s : State, readRegister s 0x14 = BitVec.ofNat 32
    (s.irqPend.completion.toNat + 2 * s.irqPend.engine.toNat + 4 * s.irqPend.indexError.toNat)) ∧
  (∀ (s : State) (offset : Nat), offset ∉ [0x04, 0x08, 0x10, 0x14, 0x18] → readRegister s offset = 0) ∧
  ∀ s : State, awake s →
    (∀ v : Word, exec (.irqpendWrite v) s = .next { s with irqPend :=
      ⟨s.irqPend.completion && !v.getLsbD 0, s.irqPend.engine && !v.getLsbD 1, s.irqPend.indexError && !v.getLsbD 2⟩ }) ∧
    (∀ (offset : Nat) (strobes : BitVec 4) (v : Word), strobes ≠ 15#4 ∨ offset ∉ [0x00, 0x08, 0x0C, 0x10, 0x14, 0x18] →
      exec (.registerWriteIgnored offset strobes v) s = .next s) ∧
    exec .engctlNone s = .next s ∧
    (∀ code : BitVec 4, 4 ≤ code.toNat →
      exec (.engctlReservedCode code) s = .next { s with eng := { s.eng with refused := true } }) ∧
    (s.eng.st ≠ .off → s.eng.st ≠ .halted → exec .run s = .next { s with eng := { s.eng with refused := true } }) ∧
    (s.eng.st ≠ .running → exec .halt s = .next { s with eng := { s.eng with refused := true } }) ∧
    (s.eng.st ≠ .off → s.eng.st ≠ .halted → s.eng.st ≠ .faulted →
      exec .clear s = .next { s with eng := { s.eng with refused := true } })

/-- RUN in OFF moves to CONFIGURING and reads the 128 bytes of the setup record; an address that is no multiple of 64 or too
near the end fails with SETUP_ALIGN. RUN in HALTED resumes: the wait list is served, then the
eligible queues ask in queue order 0 to 3; with nothing listed and nothing to fetch only the engine's state changes. -/
def Obligations.RunStarts : Prop :=
  (∀ s : State, awake s → s.eng.st = .off →
    (s.eng.setupAdr.toNat % 64 = 0 → s.eng.setupAdr.toNat + 128 ≤ 2 ^ 32 →
      exec .run s = .next { s with eng := { s.eng with
        st := .configuring, fault := .none, faultIdx := 0, refused := false,
        setup := some { cells := List.replicate 128 none, err := false } } }) ∧
    (¬ (s.eng.setupAdr.toNat % 64 = 0 ∧ s.eng.setupAdr.toNat + 128 ≤ 2 ^ 32) →
      exec .run s = .next { s with irqPend := { s.irqPend with engine := true }, eng := { s.eng with
        st := .off, fault := .setupAlign, faultIdx := 0, refused := false, setup := none } })) ∧
  ∀ s : State, awake s → s.eng.st = .halted → ∀ u : State, u = { s with eng := { s.eng with st := .running, refused := false } } →
    (s.waitList = [] → (∀ q : Fin 4, eligible u q = false) → exec .run s = .next u) ∧
    exec .run s = .next (askIfEligible 3 (askIfEligible 2 (askIfEligible 1 (askIfEligible 0 (serveWaitList u)))))

/-- HALT in RUNNING moves to DRAINING, and on to HALTED with ENGINE set where the datapath, the control unit and the chain
loader are idle. A report of a block that became idle ends the drain in the same way. The datapath is idle while no head is
STARTING or RUNNING. -/
def Obligations.HaltDrains : Prop :=
  (∀ h : Head, (∀ st, headIn st h = true ↔ ∃ pos hd j, h = .data pos hd j ∧ j.jstate = st) ∧
    (∀ st, ctlIn st h = true ↔ ∃ pos hd body, h = .control pos hd body st) ∧
    (jobActive h = true ↔ ∃ pos hd j, h = .data pos hd j ∧ (j.jstate = .starting ∨ j.jstate = .running)) ∧
    (jobQueued h = true ↔ ∃ pos hd j, h = .data pos hd j ∧ (j.jstate = .waiting ∨ j.jstate = .ready))) ∧
  ∀ s : State, awake s → s.eng.st = .running →
    ((∀ q : Fin 4, jobActive (s.queue q).head = false) → s.cu.work = none → s.cache.fill = none → s.cache.reqs = [] →
      exec .halt s = .next { s with
        eng := { s.eng with st := .halted, refused := false }
        irqPend := { s.irqPend with engine := true } }) ∧
    (((∃ q : Fin 4, jobActive (s.queue q).head = true) ∨ s.cu.work ≠ none ∨ s.cache.fill ≠ none ∨ s.cache.reqs ≠ []) →
      exec .halt s = .next { s with eng := { s.eng with st := .draining, refused := false } }) ∧
    ∀ u : State,
      (u.eng.st = .draining → (∀ q : Fin 4, jobActive (u.queue q).head = false) → u.cu.work = none → u.cache.fill = none →
        u.cache.reqs = [] →
        checkDrain u = { u with eng := { u.eng with st := .halted }, irqPend := { u.irqPend with engine := true } }) ∧
      ((u.eng.st ≠ .draining ∨ (∃ q : Fin 4, jobActive (u.queue q).head = true) ∨ u.cu.work ≠ none ∨ u.cache.fill ≠ none ∨
        u.cache.reqs ≠ []) → checkDrain u = u)

/-- CLEAR in OFF, HALTED and FAULTED puts every block at its reset values and keeps the sample store, IRQMASK, SETUPADR,
FAULT and FAULTIDX; the answers of accesses outstanding will be thrown away: those of the setup record, of the queues' 64-byte
fetches, of the part of a fill, of the datapath, of a snapshot and of a completion record's body or phase byte, each at its
byte address. The model's choices: the list of answers to throw away is the model's (log 14). -/
def Obligations.ClearResets : Prop :=
  (∀ (s : State) (a : Access), a ∈ outstandingAccesses s ↔
    (∃ b n, s.eng.setup = some b ∧ n = (b.cells.filter (fun c => decide (c = none))).length ∧ n ≠ 0 ∧
      a = ⟨.setup, s.eng.setupAdr.toNat, n⟩) ∨
    (∃ q pos, (s.queue q).head = .fetching pos ∧ a = ⟨.headFetch q, (s.queue q).base.toNat + 64 * pos, 64⟩) ∨
    (∃ f n, s.cache.fill = some f ∧ n = (f.buf.cells.filter (fun c => decide (c = none))).length ∧ n ≠ 0 ∧
      a = ⟨.fill, (match f.part with | .header => f.addr.toNat | .stages => f.addr.toNat + 16 | .coefs => f.coefAdr.toNat), n⟩) ∨
    (∃ r ∈ s.dp.reads, a = ⟨.dpRead, r.addr, 2 * r.words⟩) ∨ (∃ w ∈ s.dp.writes, a = ⟨.dpWrite, w.addr, 2 * w.data.length⟩) ∨
    (∃ q n addr rearm bytes, s.cu.work = some (.snapshot q n addr rearm bytes) ∧ a = ⟨.snapshot, addr.toNat, bytes.length⟩) ∨
    (∃ r rest entry, s.cq.wrlist = r :: rest ∧ entry = s.cq.base.toNat + 32 * (r.idx % s.cq.size) ∧
      (s.cq.wr = .body ∧ a = ⟨.cqWrite, entry, 31⟩ ∨ s.cq.wr = .phase ∧ a = ⟨.cqWrite, entry + 31, 1⟩))) ∧
  ∀ s : State, awake s → s.eng.st = .off ∨ s.eng.st = .halted ∨ s.eng.st = .faulted →
    exec .clear s = .next { State.reset with
      pending := s.pending, store := s.store, irqMask := s.irqMask, stale := s.stale ++ outstandingAccesses s
      eng := { State.reset.eng with fault := s.eng.fault, faultIdx := s.eng.faultIdx, setupAdr := s.eng.setupAdr } }

/-- A pin reset, in every state, leaves every block at its pin reset values, the sample store 0 in every word; the release
of RESET_N then changes nothing else. An answer to an access from before is thrown away and changes no block. The model's
choices: when the reset acts and the list of answers to throw away are the model's (log 14, log 15). -/
def Obligations.PinResetAndRelease : Prop :=
  (∀ s : State, exec .pinReset s = .next { State.reset with
    pending := s.pending, stale := s.stale ++ outstandingAccesses s, eng := { State.reset.eng with inReset := true } }) ∧
  (∀ s : State, exec .resetRelease s = .next { s with eng := { s.eng with inReset := false } }) ∧
  (∀ (s : State) (k n : Nat) (a : Access), s.stale[k]? = some a → a.bytes ≤ n →
    exec (.staleAnswerDiscard k n) s = .next { s with stale := s.stale.eraseIdx k }) ∧
  ∀ (s : State) (k n : Nat) (a : Access), s.stale[k]? = some a → n < a.bytes →
    exec (.staleAnswerDiscard k n) s = .next { s with stale := s.stale.set k { a with bytes := a.bytes - n } }

/-- Setup answers: an answer fits where its bytes are all still to come; its bytes go to their offsets in order, and an error
is marked. While a byte of the record is still to come an answer is only taken; once every byte is there, an error gives
SETUP_BUS, a failing check gives its code and unit, and a record that passes every check loads the queues, the
arbiter, the control unit, the completion writer and the ports together and moves the engine to RUNNING. The fields stand at
the offsets of the setup record's table; the twelve checks have their order, codes and units; an overlap is found at the
first ring that shares a byte with an earlier one. A MASTER port starts LOCKED at bit position 0, a FOLLOWER HUNTING. The
model's choices: the cut of the reads into answers (log 5); that a master's first bit clock is that of position 0 is read
from the rules (log 7); the last FxSYNC level is kept (log 8); a FOLLOWER's PDIV is loaded as found (log 36). -/
def Obligations.SetupAnswers : Prop :=
  (∀ (data : List Byte) (n : Nat), answerLength (.ok data) = data.length ∧ answerLength (.error n) = n) ∧
  (∀ (b : ReadBuf) (off len : Nat), answerFits b off len = true ↔ 1 ≤ len ∧ off + len ≤ b.cells.length ∧
    ∀ k, off ≤ k → k < off + len → b.cells[k]? = some none) ∧
  (∀ (b : ReadBuf) (off : Nat) (a : Answer), off + answerLength a ≤ b.cells.length →
    (bufTake b off a).cells.length = b.cells.length ∧
    (∀ k, k < off ∨ off + answerLength a ≤ k → (bufTake b off a).cells[k]? = b.cells[k]?) ∧
    (∀ data, a = .ok data → (bufTake b off a).err = b.err ∧
      ∀ k, k < data.length → (bufTake b off a).cells[off + k]? = data[k]?.map some) ∧
    (∀ n, a = .error n → (bufTake b off a).err = true ∧ ∀ k, k < n → ∃ x, (bufTake b off a).cells[off + k]? = some (some x))) ∧
  (∀ b : ReadBuf, (bufDone b = true ↔ none ∉ b.cells) ∧ (bufBytes b).length = b.cells.length ∧
    ∀ (k : Nat) (x : Byte), b.cells[k]? = some (some x) → (bufBytes b)[k]? = some x) ∧
  (∀ (bs : List Byte) (r : SetupRec), r = decodeSetup bs →
    (∀ q : Fin 4, r.queues[q.val] =
      { present := (byteAt bs (16 * q.val + 7)).getLsbD 0
        base := word bs (16 * q.val)
        size := num16 bs (16 * q.val + 4)
        weight := num8 bs (16 * q.val + 6) }) ∧
    r.cqBase = word bs 0x40 ∧ r.cqSize = num16 bs 0x44 ∧ r.cqThresh = num8 bs 0x46 ∧ r.cqDelay = num16 bs 0x48 ∧
    ∀ p : Fin 2, r.ports[p.val] = { mode := num8 bs (0x50 + 8 * p.val), slots := num8 bs (0x51 + 8 * p.val),
                                    div := num16 bs (0x52 + 8 * p.val) }) ∧
  (∀ (r : SetupRec) (rings : List MemRing),
    rings = (([0, 1, 2, 3] : List (Fin 4)).filter (fun q => r.queues[q.val].present)).map
      (fun q => ⟨q.val, r.queues[q.val].base.toNat, 64 * r.queues[q.val].size⟩) ++ [⟨4, r.cqBase.toNat, 32 * r.cqSize⟩] →
    ∃ overlap : List SetupCheck, setupChecks r =
      (([0, 1, 2, 3] : List (Fin 4)).flatMap (fun q =>
        if r.queues[q.val].present = true then
          [⟨decide (r.queues[q.val].base.toNat % 64 = 0), .queueAlign, q.val⟩,
           ⟨decide (r.queues[q.val].size ∈ [16, 32, 64, 128, 256, 512, 1024]), .queueSize, q.val⟩,
           ⟨decide (1 ≤ r.queues[q.val].weight ∧ r.queues[q.val].weight ≤ 8), .queueWeight, q.val⟩,
           ⟨decide (r.queues[q.val].base.toNat + 64 * r.queues[q.val].size ≤ 2 ^ 32), .ringRange, q.val⟩]
        else [])) ++
      [⟨decide (r.cqBase.toNat % 32 = 0), .cqAlign, 4⟩,
       ⟨decide (r.cqSize ∈ [16, 32, 64, 128, 256, 512, 1024, 2048, 4096]), .cqSize, 4⟩,
       ⟨decide (r.cqBase.toNat + 32 * r.cqSize ≤ 2 ^ 32), .ringRange, 4⟩,
       ⟨decide (1 ≤ r.cqThresh ∧ r.cqThresh ≤ 64 ∧ r.cqDelay ≤ 1023), .coalesce, 4⟩] ++
      (([0, 1] : List (Fin 2)).flatMap (fun p =>
        [⟨decide (r.ports[p.val].mode ≤ 2), .portMode, p.val⟩,
         ⟨decide (r.ports[p.val].mode = 0 ∨ 2 ≤ r.ports[p.val].slots ∧ r.ports[p.val].slots ≤ 32), .portSlots, p.val⟩,
         ⟨decide (r.ports[p.val].mode ≠ 1 ∨ 4 ≤ r.ports[p.val].div ∧ r.ports[p.val].div ≤ 1023), .portDivisor, p.val⟩])) ++
      overlap ∧
    overlap.length = rings.length ∧
    ∀ before x after, rings = before ++ x :: after → ∃ c, overlap[before.length]? = some c ∧ c.code = .ringOverlap ∧
      c.idx = x.unit ∧ (c.ok = true ↔ ∀ y ∈ before, y.base + y.bytes ≤ x.base ∨ x.base + x.bytes ≤ y.base)) ∧
  (∀ (x : SetupPort) (r : PortRec),
    (x.mode = 0 → loadedPort x r = { PortRec.reset with sync := r.sync }) ∧
    (x.mode = 1 → loadedPort x r =
      { mode := .master, slots := x.slots, div := x.div, lock := .locked, fcount := 0, miss := false, bitpos := 0,
        candidate := none, rxword := Vector.replicate 32 0, txhold := Vector.replicate 32 none,
        map := Vector.replicate 32 { current := none, pending := none }, sync := r.sync, din := false, due := none,
        opening := true }) ∧
    (x.mode = 2 → loadedPort x r =
      { mode := .follower, slots := x.slots, div := x.div, lock := .hunting, fcount := 0, miss := false, bitpos := 0,
        candidate := none, rxword := Vector.replicate 32 0, txhold := Vector.replicate 32 none,
        map := Vector.replicate 32 { current := none, pending := none }, sync := r.sync, din := false, due := none,
        opening := false })) ∧
  ∀ (s : State) (b : ReadBuf) (off : Nat) (a : Answer), awake s → s.eng.setup = some b →
    answerFits b off (answerLength a) = true → off / 64 = (off + answerLength a - 1) / 64 →
    (bufDone (bufTake b off a) = false →
      exec (.setupReadAnswer off a) s = .next { s with eng := { s.eng with setup := some (bufTake b off a) } }) ∧
    (bufDone (bufTake b off a) = true → (bufTake b off a).err = true →
      exec (.setupReadAnswer off a) s = .next { s with
        irqPend := { s.irqPend with engine := true }
        eng := { s.eng with st := .off, fault := .setupBus, faultIdx := 0, setup := none } }) ∧
    (bufDone (bufTake b off a) = true → (bufTake b off a).err = false →
      ∀ r, r = decodeSetup (bufBytes (bufTake b off a)) →
      (∀ (before : List SetupCheck) (c : SetupCheck) (after : List SetupCheck),
        setupChecks r = before ++ c :: after → (∀ x ∈ before, x.ok = true) → c.ok = false →
        exec (.setupReadAnswer off a) s = .next { s with
          irqPend := { s.irqPend with engine := true }
          eng := { s.eng with st := .off, fault := c.code, faultIdx := c.idx, setup := none } }) ∧
      ((∀ x ∈ setupChecks r, x.ok = true) → ∃ t, exec (.setupReadAnswer off a) s = .next t ∧
        t.eng = { s.eng with st := .running, setup := none } ∧
        (∀ q : Fin 4, t.queue q = if r.queues[q.val].present then
            { state := .active, base := r.queues[q.val].base, size := r.queues[q.val].size, weight := r.queues[q.val].weight,
              prod := 0, cons := 0, head := .empty, discard := false, flushPend := false }
          else QueueRec.reset) ∧
        t.waitList = [] ∧ t.turn = 0 ∧ t.credit = (if r.queues[0].present then r.queues[0].weight else 0) ∧
        t.cu = { work := none, last := 3 } ∧
        t.cq = { CqWriter.reset with base := r.cqBase, size := r.cqSize, cthresh := r.cqThresh, cdelay := r.cqDelay } ∧
        t.portA = loadedPort r.ports[0] s.portA ∧ t.portB = loadedPort r.ports[1] s.portB ∧
        t.pending = s.pending ∧ t.irqPend = s.irqPend ∧ t.irqMask = s.irqMask ∧ t.notices = s.notices ∧ t.cache = s.cache ∧
        t.contexts = s.contexts ∧ t.dp = s.dp ∧ t.stopReq = s.stopReq ∧ t.streams = s.streams ∧ t.store = s.store ∧
        t.stale = s.stale))

/-! ### Submission queues -/

/-- POST ADVANCE (R32): refused with INDEX_ERROR and the error source unless the engine is RUNNING, DRAINING, HALTED or
FAULTED, the queue exists, the index lies in the ring and the count stays within SIZE − 1; accepted, it sets PRODIDX, and the
queue asks for a record if it is then eligible. The reserved action is refused in every state. -/
def Obligations.PostAdvanceRule : Prop :=
  ∀ (q : Fin 4) (index : BitVec 12) (s : State) (r : QueueRec), awake s → r = s.queue q →
    exec (.postReservedAction q) s = .next { s with
      irqPend := { s.irqPend with indexError := true }, eng := { s.eng with errSrc := .post, errQ := q } } ∧
    ((s.eng.st = .off ∨ s.eng.st = .configuring ∨ r.state = .absent ∨ r.size ≤ index.toNat ∨
        r.size - 1 < (r.prod + r.size - r.cons) % r.size + (index.toNat + r.size - r.prod) % r.size) →
      exec (.postAdvance q index) s = .next { s with
        irqPend := { s.irqPend with indexError := true }, eng := { s.eng with errSrc := .post, errQ := q } }) ∧
    (s.eng.st ≠ .off → s.eng.st ≠ .configuring → r.state ≠ .absent → index.toNat < r.size →
        (r.prod + r.size - r.cons) % r.size + (index.toNat + r.size - r.prod) % r.size ≤ r.size - 1 →
      exec (.postAdvance q index) s = .next (askIfEligible q (s.setQueue q { r with prod := index.toNat })))

/-- POST RESTART (R33): a STOPPED queue becomes ACTIVE, its indices, head and pending flush unchanged but for the fetch at
CONSIDX that RUNNING then allows; an ACTIVE or ABSENT queue is left alone, in every engine state. -/
def Obligations.PostRestartRule : Prop :=
  ∀ (q : Fin 4) (s : State) (r : QueueRec), awake s → r = s.queue q →
    (r.state ≠ .stopped → exec (.postRestart q) s = .next s) ∧
    (r.state = .stopped →
      exec (.postRestart q) s = .next (askIfEligible q (s.setQueue q { r with state := .active })) ∧
      (s.eng.st ≠ .running → exec (.postRestart q) s = .next (s.setQueue q { r with state := .active })))

/-- POST FLUSH (R34, R35): refused outside RUNNING, DRAINING and HALTED and for an ABSENT queue; one pending flush answers
both; behind a STARTING, RUNNING, EXECUTING or PARKED head it is held pending; a head in WAITING, READY or CONTROL_WAIT is
skipped at once and a FETCHING one marked for discard, against the head's reservation; with no record in the head it takes
effect against a new reservation, or waits for one. The skipped count is the head's record and the queue's count. The model's
choices: that a flush granted at once takes its queue off the wait list is read from the rules (log 18). -/
def Obligations.PostFlushRule : Prop :=
  ∀ (q : Fin 4) (s : State) (r : QueueRec) (flushed : Nat → CqRec), awake s → r = s.queue q →
    (∀ n, flushed n = { cqZero with status := .queueFlushed, queue := q, count := n + (r.prod + r.size - r.cons) % r.size }) →
    ((live s = false ∨ r.state = .absent) → exec (.postFlush q) s = .next { s with
      irqPend := { s.irqPend with indexError := true }, eng := { s.eng with errSrc := .post, errQ := q } }) ∧
    (live s = true → r.state ≠ .absent →
      (r.flushPend = true → exec (.postFlush q) s = .next s) ∧
      (r.flushPend = false →
        ((jobActive r.head = true ∨ ctlIn .executing r.head = true ∨ ctlIn .parked r.head = true) →
          exec (.postFlush q) s = .next (s.setQueue q { r with flushPend := true })) ∧
        ((jobQueued r.head = true ∨ ctlIn .controlWait r.head = true) →
          exec (.postFlush q) s = .next ({ s with cq := cqPostReserved s.cq (flushed 1) }.setQueue q
            { r with cons := r.prod, head := .empty })) ∧
        (∀ pos, r.head = .fetching pos → r.discard = false →
          exec (.postFlush q) s = .next ({ s with cq := cqPostReserved s.cq (flushed 1) }.setQueue q
            { r with cons := r.prod, discard := true })) ∧
        ((r.head = .empty ∨ (∃ pos, r.head = .fetching pos) ∧ r.discard = true) →
          (freeCount s.cq ≠ 0 → exec (.postFlush q) s =
            .next ({ s with
                waitList := s.waitList.filter (fun e => e.1 != q)
                cq := { cqPost s.cq (flushed 0) with resv := s.cq.resv } }.setQueue q { r with cons := r.prod })) ∧
          (freeCount s.cq = 0 → (∀ e ∈ s.waitList, e.1 ≠ q) → exec (.postFlush q) s =
            .next ({ s with waitList := s.waitList ++ [(q, Purpose.flush)] }.setQueue q { r with flushPend := true })) ∧
          (freeCount s.cq = 0 → (∃ e ∈ s.waitList, e.1 = q) → exec (.postFlush q) s =
            .next ({ s with waitList := s.waitList.map (fun (e : Fin 4 × Purpose) => if e.1 = q then (q, Purpose.flush) else e) }.setQueue q
              { r with flushPend := true })))))

/-- Fetch answers (R40 to R43) and the decode of work records (R51, R186, R187). An endpoint is a stream below 48 or an even
address whose block ends in memory. The fields of each kind stand at the offsets of its table, and a record whose used fields
leave their ranges, or of an unknown kind, does not decode. Data: discarded data empties the head; a record that fails decode
completes BAD_RECORD; a control record enters CONTROL_WAIT; a data record completes with the first stream check that fails,
inputs in record order and the output last, or enters the scheduler, READY where every stream is ready and else WAITING, with
its timer started. An error: for a head marked for discard it only empties it; otherwise the queue goes STOPPED and FETCH_ERROR
is handed over with the failed ring position and 0 in every other field. The model's choices: that BAD_RECORD at decode
carries the stamps for CHAIN_CONTROL and CLEAR_CONTEXT, whose rules give them, and zero stamps for the other kinds, is read
from the rules (log 9). -/
def Obligations.FetchAnswers : Prop :=
  (∀ (kind stream n : Nat) (addr : Word),
    (∀ m : Fin 48, endpointOf 0 m.val addr n = some (.stream m)) ∧
    (addr.toNat % 2 = 0 → addr.toNat + 2 * n ≤ 2 ^ 32 → endpointOf 1 stream addr n = some (.memory addr)) ∧
    (kind = 0 ∧ 47 < stream ∨ kind = 1 ∧ (addr.toNat % 2 ≠ 0 ∨ 2 ^ 32 < addr.toNat + 2 * n) ∨ 1 < kind →
      endpointOf kind stream addr n = none)) ∧
  (∀ (q : Fin 4) (bs : List Byte) (n : Nat) (input output : Option Endpoint), num8 bs 0 = 0x01 → n = num16 bs 0x14 →
    input = endpointOf (num8 bs 0x08) (num8 bs 0x09) (word bs 0x0C) n →
    output = endpointOf (num8 bs 0x0A) (num8 bs 0x0B) (word bs 0x10) n →
    ((n = 0 ∨ 1024 < n ∨ input = none ∨ output = none ∨ (∃ m, input = some (.stream m) ∧ output = some (.stream m)) ∨
      (31 < num8 bs 0x16 ∧ num8 bs 0x16 ≠ 0xFF) ∨ 2 < num8 bs 0x17 ∨ 1 < num8 bs 0x18) ↔ decodeBody q bs = none) ∧
    ∀ b, decodeBody q bs = some b → ∃ i o context, input = some i ∧ output = some o ∧
      (context = none ↔ num8 bs 0x16 = 0xFF) ∧ (∀ c : Fin 32, context = some c → c.val = num8 bs 0x16) ∧ b = .data
        { kind := .filter (word bs 0x20) context
          inputs := [i]
          output := o
          n := n
          policy := if num8 bs 0x17 = 0 then .saturate else if num8 bs 0x17 = 1 then .wrap else .trap
          rounding := if num8 bs 0x18 = 0 then .round else .trunc
          monitor := (byteAt bs 1).getLsbD 1
          thresh := num16 bs 0x1A % 2 ^ 15
          waitLimit := num16 bs 0x1C }) ∧
  (∀ (q : Fin 4) (bs : List Byte) (n count : Nat) (input : Nat → Option Endpoint) (output : Option Endpoint),
    num8 bs 0 = 0x02 → count = num8 bs 0x08 → n = num16 bs 0x10 →
    (∀ j, input j = endpointOf (num8 bs (0x18 + 8 * j)) (num8 bs (0x19 + 8 * j)) (word bs (0x1C + 8 * j)) n) →
    output = endpointOf (num8 bs 0x09) (num8 bs 0x0A) (word bs 0x0C) n →
    ((count = 0 ∨ 4 < count ∨ n = 0 ∨ 1024 < n ∨ (∃ j, j < count ∧ input j = none) ∨ output = none ∨
      (∃ j k, j < k ∧ k < count ∧ input j = input k) ∨ 2 < num8 bs 0x0B ∨ 1 < num8 bs 0x12) ↔ decodeBody q bs = none) ∧
    ∀ b, decodeBody q bs = some b → ∃ inputs o, inputs.length = count ∧ (∀ j, j < count → inputs[j]? = input j) ∧
      output = some o ∧ b = .data
        { kind := .mix ((List.range count).map (fun j => half bs (0x1A + 8 * j)))
          inputs := inputs
          output := o
          n := n
          policy := if num8 bs 0x0B = 0 then .saturate else if num8 bs 0x0B = 1 then .wrap else .trap
          rounding := if num8 bs 0x12 = 0 then .round else .trunc
          monitor := (byteAt bs 1).getLsbD 1
          thresh := num16 bs 0x14 % 2 ^ 15
          waitLimit := num16 bs 0x16 }) ∧
  (∀ (q : Fin 4) (bs : List Byte) (base length hist : Nat), num8 bs 0 = 0x03 → base = num16 bs 0x0C →
    length = num16 bs 0x0E → hist = num8 bs 0x10 →
    ((47 < num8 bs 0x08 ∨ length < 32 ∨ 8192 < length ∨ 127 < hist ∨ 32768 < base + length ∨ length < hist + 16 ∨
      1 < num8 bs 0x09 ∨ 1 < num8 bs 0x0A ∨ 1 < num8 bs 0x0B) ↔ decodeBody q bs = none) ∧
    ∀ b, decodeBody q bs = some b → ∃ n : Fin 48, n.val = num8 bs 0x08 ∧ b = .control (.defineStream n base length hist
      (if num8 bs 0x09 = 0 then .portRx else .job) (if num8 bs 0x0A = 0 then .portTx else .job)
      (if num8 bs 0x0B = 0 then .dropNew else .dropOld) (half bs 0x12))) ∧
  (∀ (q : Fin 4) (bs : List Byte),
    (num8 bs 0 = 0 ∨ 0x0A < num8 bs 0 → decodeBody q bs = none) ∧
    (num8 bs 0 = 0x04 → ∀ n : Fin 48, num8 bs 0x08 = n.val → decodeBody q bs = some (.control (.retireStream n))) ∧
    (num8 bs 0 = 0x05 →
      (47 < num8 bs 0x08 ∨ (word bs 0x0C).toNat % 32 ≠ 0 ↔ decodeBody q bs = none) ∧
      ∀ n : Fin 48, num8 bs 0x08 = n.val → (word bs 0x0C).toNat % 32 = 0 →
        decodeBody q bs = some (.control (.readStream n (word bs 0x0C) ((byteAt bs 1).getLsbD 1)))) ∧
    (num8 bs 0 = 0x06 →
      (1 < num8 bs 0x08 ∨ 31 < num8 bs 0x09 ∨ 2 < num8 bs 0x0A ∨ (num8 bs 0x0A ≠ 2 ∧ 47 < num8 bs 0x0B) ↔
        decodeBody q bs = none) ∧
      ∀ (p : PortId) (j : Fin 32), num8 bs 0x08 = (match p with | .a => 0 | .b => 1) → num8 bs 0x09 = j.val →
        (∀ n : Fin 48, num8 bs 0x0B = n.val →
          (num8 bs 0x0A = 0 → decodeBody q bs = some (.control (.bindSlot p j (.bind .rx n)))) ∧
          (num8 bs 0x0A = 1 → decodeBody q bs = some (.control (.bindSlot p j (.bind .tx n))))) ∧
        (num8 bs 0x0A = 2 → decodeBody q bs = some (.control (.bindSlot p j .unbind)))) ∧
    (num8 bs 0 = 0x07 → (4 < num8 bs 0x08 ↔ decodeBody q bs = none) ∧
      ∀ action : ChainAction, num8 bs 0x08 =
          (match action with | .load => 0 | .loadPin => 1 | .unpin => 2 | .invalidate => 3 | .invalidateAll => 4) →
        decodeBody q bs = some (.control (.chainControl action (word bs 0x0C)))) ∧
    (num8 bs 0 = 0x08 → ∀ c : Fin 32, num8 bs 0x08 = c.val → decodeBody q bs = some (.control (.clearContext c))) ∧
    (num8 bs 0 = 0x09 → (3 < num8 bs 0x08 ∨ num8 bs 0x08 = q.val ↔ decodeBody q bs = none) ∧
      ∀ t : Fin 4, num8 bs 0x08 = t.val → t ≠ q → decodeBody q bs = some (.control (.abort t (word bs 0x0C)))) ∧
    (num8 bs 0 = 0x0A → decodeBody q bs = some (.control .marker))) ∧
  (∀ (s : State) (d : DataRec) (roles : List (Fin 48 × Role)),
    roles = d.inputs.filterMap (fun e => match e with | .stream n => some (n, Role.input) | .memory _ => none) ++
      (match d.output with | .stream n => [(n, Role.output)] | .memory _ => []) →
    streamRoles d = roles ∧
    (jobCheck s d = none ↔ ∀ x ∈ roles, streamCheck (s.stream x.1) x.2 d.n = none) ∧
    (∀ st, jobCheck s d = some st ↔ ∃ before x after, roles = before ++ x :: after ∧
      (∀ y ∈ before, streamCheck (s.stream y.1) y.2 d.n = none) ∧ streamCheck (s.stream x.1) x.2 d.n = some st) ∧
    (jobReady s d = true ↔ ∀ x ∈ roles, streamReady (s.stream x.1) x.2 d.n = true)) ∧
  (∀ (q : Fin 4) (bytes : List Byte) (s : State) (pos : Nat), awake s → (s.queue q).head = .fetching pos → bytes.length = 64 →
    ((s.queue q).discard = true → exec (.headFetchData q bytes) s =
      .next (askIfEligible q (s.setQueue q { s.queue q with head := .empty, discard := false }))) ∧
    ((s.queue q).discard = false → ∀ h : Header, h = { kind := byteAt bytes 0, irqNow := (byteAt bytes 1).getLsbD 0, tag := word bytes 4 } →
      (decodeBody q bytes = none → h.kind ≠ 0x07 → h.kind ≠ 0x08 → exec (.headFetchData q bytes) s = .next (completeHead q
        { cqZero with tag := h.tag, status := .badRecord, kind := h.kind, queue := q, irqNow := h.irqNow } s)) ∧
      (decodeBody q bytes = none → h.kind = 0x07 ∨ h.kind = 0x08 →
        exec (.headFetchData q bytes) s = .next (completeHead q (completion s q h .badRecord) s)) ∧
      (∀ c, decodeBody q bytes = some (.control c) →
        exec (.headFetchData q bytes) s = .next (s.setQueue q { s.queue q with head := .control pos h c .controlWait })) ∧
      (∀ d, decodeBody q bytes = some (.data d) →
        (∀ st, jobCheck s d = some st →
          exec (.headFetchData q bytes) s = .next (completeHead q (completion s q h st) s)) ∧
        (jobCheck s d = none → ∀ j : JobRec,
          j = { data := d, jstate := if jobReady s d then .ready else .waiting, waited := !jobReady s d,
                timer := if d.waitLimit = 0 then none else some d.waitLimit, trun := true, claims := false,
                chainWait := .none, chainEnt := none, chainHit := false, ctxReset := false } →
          exec (.headFetchData q bytes) s = .next (s.setQueue q { s.queue q with head := .data pos h j }))))) ∧
  ∀ (q : Fin 4) (s : State) (pos : Nat), awake s → (s.queue q).head = .fetching pos →
    ((s.queue q).discard = true → exec (.headFetchError q) s =
      .next (askIfEligible q (s.setQueue q { s.queue q with head := .empty, discard := false }))) ∧
    ((s.queue q).discard = false → exec (.headFetchError q) s = .next (completeHead q
      { cqZero with status := .fetchError, queue := q, count := pos } (s.setQueue q { s.queue q with state := .stopped })))

/-! ### Control records -/

/-- CLEAR_CONTEXT (R126): IN_USE for a HELD context, which is unchanged; a bound context becomes UNBOUND with SSTATE zero, OK
with count 1; an UNBOUND one is unchanged, OK with count 0. A context number above 31 completes BAD_RECORD at decode. In
CONTROL_WAIT an ABORT completes the record ABORTED, and the context is not touched. -/
def Obligations.ClearContextRule : Prop :=
  (∀ (q : Fin 4) (bytes : List Byte), num8 bytes 0 = 0x08 → (31 < num8 bytes 8 ↔ decodeBody q bytes = none)) ∧
  (∀ (s : State) (q : Fin 4) (pos : Nat) (h : Header) (c : Fin 32) (e : State), Selects s q pos h (.clearContext c) →
    e = executing q pos h (.clearContext c) s →
    ((s.context c).held = true → exec .controlSelect s = .next (completeHead q (completion s q h .inUse) e)) ∧
    ((s.context c).held = false → (s.context c).binding ≠ none → exec .controlSelect s =
      .next (completeHead q { completion s q h .ok with count := 1 }
        (e.setContext c { binding := none, sstate := Vector.replicate 6 ⟨0, 0, 0, 0⟩, held := false }))) ∧
    ((s.context c).held = false → (s.context c).binding = none →
      exec .controlSelect s = .next (completeHead q (completion s q h .ok) e))) ∧
  ∀ (s : State) (q t : Fin 4) (pos tpos : Nat) (h th : Header) (tag : Word) (c : Fin 32), Selects s q pos h (.abort t tag) →
    t ≠ q → (s.queue t).head = .control tpos th (.clearContext c) .controlWait → th.tag = tag →
    ∃ u, exec .controlSelect s = .next u ∧ u.contexts = s.contexts ∧ u = completeHead q (completion s q h .ok)
      (completeHead t (completion s t th .aborted) (executing q pos h (.abort t tag) s))

/-- DEFINE_STREAM: OVERLAP where the placement meets another DEFINED ring, EXISTS where the stream is DEFINED; otherwise the
stream is set, the H words before position 0 become 0 and no other word changes, a notice is sent, and the record completes
OK. -/
def Obligations.DefineStreamRule : Prop :=
  ∀ (s : State) (q : Fin 4) (pos : Nat) (h : Header) (n : Fin 48) (base length hist : Nat) (producer : Producer)
    (consumer : Consumer) (policy : OverrunPolicy) (idle : Sample) (body : ControlRec) (e : State),
    body = .defineStream n base length hist producer consumer policy idle → Selects s q pos h body →
    e = executing q pos h body s →
    ((∃ m : Fin 48, m ≠ n ∧ (s.stream m).defined = true ∧ base < (s.stream m).base + (s.stream m).length ∧
        (s.stream m).base < base + length) →
      exec .controlSelect s = .next (completeHead q (completion s q h .overlap) e)) ∧
    ((¬ ∃ m : Fin 48, m ≠ n ∧ (s.stream m).defined = true ∧ base < (s.stream m).base + (s.stream m).length ∧
        (s.stream m).base < base + length) →
      ((s.stream n).defined = true → exec .controlSelect s = .next (completeHead q (completion s q h .exists_) e)) ∧
      ((s.stream n).defined = false → ∃ store : Store,
        exec .controlSelect s = .next (completeHead q (completion s q h .ok)
          ({ e with store := store, notices := s.notices ++ [n] }.setStream n
            { defined := true, base, length, hist, producer, consumer, wrpos := 0, rdpos := 0, fill := 0, policy, idle,
              ovrcnt := 0, undcnt := 0, ovrarm := true, undarm := true, claimed := false, rxbind := none, txbind := none,
              stamp := 0 })) ∧
        (StoreSound s → base + length ≤ 32768 → hist ≤ length → ∀ a, storeRead store a =
          if base + (length - hist) ≤ a ∧ a < base + length then 0 else storeRead s.store a)))

/-- RETIRE_STREAM (R21, R22): NO_STREAM, IN_USE and BOUND in that order; otherwise the stream returns to FREE with the free
values, a notice is sent and the record completes OK; the sample store keeps its words. A stream number above 47 completes
BAD_RECORD at decode. -/
def Obligations.RetireStreamRule : Prop :=
  (∀ (q : Fin 4) (bytes : List Byte), num8 bytes 0 = 0x04 → (47 < num8 bytes 8 ↔ decodeBody q bytes = none)) ∧
  ∀ (s : State) (q : Fin 4) (pos : Nat) (h : Header) (n : Fin 48) (e : State), Selects s q pos h (.retireStream n) →
    e = executing q pos h (.retireStream n) s → ∀ r, r = s.stream n →
    (r.defined = false → exec .controlSelect s = .next (completeHead q (completion s q h .noStream) e)) ∧
    (r.defined = true → r.claimed = true → exec .controlSelect s = .next (completeHead q (completion s q h .inUse) e)) ∧
    (r.defined = true → r.claimed = false → r.rxbind ≠ none ∨ r.txbind ≠ none →
      exec .controlSelect s = .next (completeHead q (completion s q h .bound) e)) ∧
    (r.defined = true → r.claimed = false → r.rxbind = none → r.txbind = none → exec .controlSelect s =
      .next (completeHead q (completion s q h .ok) ({ e with notices := s.notices ++ [n] }.setStream n
        { defined := false, base := 0, length := 0, hist := 0, producer := .portRx, consumer := .portTx, wrpos := 0,
          rdpos := 0, fill := 0, policy := .dropNew, idle := 0, ovrcnt := 0, undcnt := 0, ovrarm := false, undarm := false,
          claimed := false, rxbind := none, txbind := none, stamp := 0 })))

/-- READ_STREAM (R23, R24): NO_STREAM for a FREE stream; otherwise the snapshot is captured and its write keeps the unit
busy. Its OK answer rearms the stream if asked and completes OK; its error answer completes BUS_ERROR without rearming. The
32 bytes of the snapshot are the fields of the stream record, little-endian, at the offsets of the layout. -/
def Obligations.ReadStreamRule : Prop :=
  (∀ (n : Fin 48) (r : StreamRec), r.base < 2 ^ 16 → r.length < 2 ^ 16 → r.hist < 2 ^ 8 → r.wrpos < 2 ^ 16 →
    r.rdpos < 2 ^ 16 → r.fill < 2 ^ 16 → r.ovrcnt < 2 ^ 16 → r.undcnt < 2 ^ 16 → ∀ bs, bs = snapshotBytes n r →
    bs.length = 32 ∧ num8 bs 0x00 = n.val ∧ num8 bs 0x01 = 1 ∧ num8 bs 0x02 = (match r.producer with | .portRx => 0x0 | .job => 0x1) ∧
    num8 bs 0x03 = (match r.consumer with | .portTx => 0x0 | .job => 0x1) ∧ num16 bs 0x04 = r.base ∧ num16 bs 0x06 = r.length ∧ num8 bs 0x08 = r.hist ∧
    num8 bs 0x09 = (match r.policy with | .dropNew => 0x0 | .dropOld => 0x1) ∧ half bs 0x0A = r.idle ∧ num16 bs 0x0C = r.wrpos ∧
    num16 bs 0x0E = r.rdpos ∧ num16 bs 0x10 = r.fill ∧ num16 bs 0x12 = r.length - r.fill - r.hist ∧
    num16 bs 0x14 = r.ovrcnt ∧ num16 bs 0x16 = r.undcnt ∧
    num8 bs 0x18 = r.ovrarm.toNat + 2 * r.undarm.toNat + 4 * r.claimed.toNat ∧
    (r.rxbind = none → num8 bs 0x19 = 0) ∧ (r.txbind = none → num8 bs 0x1A = 0) ∧
    (∀ m, r.rxbind = some m → num8 bs 0x19 % 32 = m.slot.val ∧ num8 bs 0x19 / 32 % 2 = (match m.port with | .a => 0x0 | .b => 0x1) ∧
      num8 bs 0x19 / 64 = (match m.phase with | .pending => 0x1 | .current => 0x2 | .unbinding => 0x3)) ∧
    (∀ m, r.txbind = some m → num8 bs 0x1A % 32 = m.slot.val ∧ num8 bs 0x1A / 32 % 2 = (match m.port with | .a => 0x0 | .b => 0x1) ∧
      num8 bs 0x1A / 64 = (match m.phase with | .pending => 0x1 | .current => 0x2 | .unbinding => 0x3)) ∧
    num8 bs 0x1B = 0 ∧ word bs 0x1C = r.stamp) ∧
  (∀ (s : State) (q : Fin 4) (pos : Nat) (h : Header) (n : Fin 48) (addr : Word) (rearm : Bool) (e : State),
    Selects s q pos h (.readStream n addr rearm) → e = executing q pos h (.readStream n addr rearm) s →
    ((s.stream n).defined = false → exec .controlSelect s = .next (completeHead q (completion s q h .noStream) e)) ∧
    ((s.stream n).defined = true → exec .controlSelect s =
      .next { e with cu := { work := some (.snapshot q n addr rearm (snapshotBytes n (s.stream n))), last := q } })) ∧
  ∀ (s : State) (q : Fin 4) (n : Fin 48) (addr : Word) (rearm : Bool) (bytes : List Byte) (pos : Nat) (h : Header)
    (body : ControlRec) (st : CtlState) (u : State), awake s → s.cu.work = some (.snapshot q n addr rearm bytes) →
    (s.queue q).head = .control pos h body st → u = { s with cu := { s.cu with work := none } } →
    (rearm = true → exec (.snapshotWriteAnswer true) s = .next (checkDrain (completeHead q (completion s q h .ok)
      (u.setStream n { s.stream n with ovrcnt := 0, undcnt := 0, ovrarm := true, undarm := true })))) ∧
    (rearm = false → exec (.snapshotWriteAnswer true) s = .next (checkDrain (completeHead q (completion s q h .ok) u))) ∧
    exec (.snapshotWriteAnswer false) s = .next (checkDrain (completeHead q (completion s q h .busError) u))

/-- BIND_SLOT: the checks in their order, a refused record changing no slot and no mirror; on a LOCKED port the change is
recorded pending, in the slot and in the mirror, and the record parks; on a HUNTING port it is applied at once and the
record completes OK. A stream has one mirror for each direction. -/
def Obligations.BindSlotRule : Prop :=
  (∀ (x : StreamRec) (n : Fin 48) (m : Option BindMirror) (s : State), mirror x .rx = x.rxbind ∧ mirror x .tx = x.txbind ∧
    setMirror n .rx m s = s.setStream n { s.stream n with rxbind := m } ∧
    setMirror n .tx m s = s.setStream n { s.stream n with txbind := m }) ∧
  ∀ (s : State) (q : Fin 4) (pos : Nat) (h : Header) (p : PortId) (j : Fin 32) (action : BindAction) (e : State) (r : PortRec),
    Selects s q pos h (.bindSlot p j action) → e = executing q pos h (.bindSlot p j action) s → r = s.port p →
    (∀ st : Status, st ≠ .ok → bindStatus s p j action = st →
      exec .controlSelect s = .next (completeHead q (completion s q h st) e)) ∧
    (r.lock = .off → bindStatus s p j action = .portOff) ∧
    (r.lock ≠ .off → r.slots ≤ j.val → bindStatus s p j action = .badRecord) ∧
    (∀ x : StreamRec, (bindKindOk x .rx = true ↔ x.producer = .portRx) ∧ (bindKindOk x .tx = true ↔ x.consumer = .portTx)) ∧
    (∀ dir n, action = .bind dir n →
      (r.lock ≠ .off → j.val < r.slots →
        ((s.stream n).defined = false → bindStatus s p j action = .noStream) ∧
        ((s.stream n).defined = true → bindKindOk (s.stream n) dir = false → bindStatus s p j action = .wrongEndpoint) ∧
        ((s.stream n).defined = true → bindKindOk (s.stream n) dir = true →
          ((r.slot j).current ≠ none ∨ (r.slot j).pending ≠ none → bindStatus s p j action = .slotBusy) ∧
          ((r.slot j).current = none → (r.slot j).pending = none →
            (mirror (s.stream n) dir ≠ none → bindStatus s p j action = .bound) ∧
            (mirror (s.stream n) dir = none →
              (r.lock = .locked → exec .controlSelect s = .next ((setMirror n dir (some ⟨p, j, .pending⟩)
                (e.setPort p (r.setSlot j { current := none, pending := some (.bind dir n q) }))).setHead q
                  (.control pos h (.bindSlot p j action) .parked))) ∧
              (r.lock = .hunting → exec .controlSelect s = .next (completeHead q (completion s q h .ok)
                (setMirror n dir (some ⟨p, j, .current⟩)
                  (e.setPort p (r.setSlot j { current := some (dir, n), pending := none })))))))))) ∧
    (action = .unbind → r.lock ≠ .off → j.val < r.slots →
      ((r.slot j).current = none → bindStatus s p j action = .notFound) ∧
      ((r.slot j).current ≠ none → (r.slot j).pending ≠ none → bindStatus s p j action = .slotBusy) ∧
      (∀ dir n, (r.slot j).current = some (dir, n) → (r.slot j).pending = none →
        (r.lock = .locked → exec .controlSelect s = .next ((setMirror n dir (some ⟨p, j, .unbinding⟩)
          (e.setPort p (r.setSlot j { current := some (dir, n), pending := some (.unbind q) }))).setHead q
            (.control pos h (.bindSlot p j action) .parked))) ∧
        (r.lock = .hunting → exec .controlSelect s = .next (completeHead q (completion s q h .ok)
          (setMirror n dir none (e.setPort p (r.setSlot j { current := none, pending := none })))))))

/-- CHAIN_CONTROL (R78, R87 to R93). LOAD and LOAD_PIN: IN_USE for a stale entry; OK at once, as a hit, for a VALID one, which is
touched and, for LOAD_PIN, PINNED; otherwise the record waits for the fill, joins the listed request, places a request in
the CONTROL place, or keeps the unit busy until that place is free. A pin beyond the limit of 7 completes PIN_LIMIT. Found
VALID with no fill made, CHAIN_HIT is set, whatever the status. UNPIN and INVALIDATE act on the entry that holds the address,
NOT_FOUND without one; INVALIDATE_ALL counts the entries it empties or marks stale. The LRU list: a touched entry that stands
in it moves to its most recent end, an entry joins there, and one that leaves does not change the order of the others. The pin
count: the PINNED entries, and each address once that a parked LOAD_PIN waits to pin and no PINNED entry holds. -/
def Obligations.ChainControlRule : Prop :=
  (∀ (s : State) (x : Fin 8) (q : Fin 4) (addr : Word),
    (x ∈ s.cache.lru → touchEntry x s = { s with cache := { s.cache with lru := s.cache.lru.erase x ++ [x] } }) ∧
    (x ∉ s.cache.lru → touchEntry x s = s) ∧
    lruJoin x s = { s with cache := { s.cache with lru := s.cache.lru ++ [x] } } ∧
    lruDrop x s = { s with cache := { s.cache with lru := s.cache.lru.filter (fun y => y != x) } } ∧
    joinFill q s = { s with cache := { s.cache with
      fill := s.cache.fill.map (fun f => { f with waiters := f.waiters ++ [q] }) } } ∧
    joinRequest addr q s = { s with cache := { s.cache with
      reqs := s.cache.reqs.map (fun r => if r.addr = addr then { r with waiters := r.waiters ++ [q] } else r) } }) ∧
  (∀ s : State, (pendingPins s).Nodup ∧
    (∀ a, a ∈ pendingPins s ↔
      ∃ q pos h, (s.queue q).head = .control pos h (.chainControl .loadPin a) .parked) ∧
    pinCount s = (entryIds.filter (fun x => (s.entry x).pinned)).length +
      ((pendingPins s).filter (fun a => decide (∀ x : Fin 8, (s.entry x).pinned = true → (s.entry x).addr ≠ a))).length) ∧
  entryIds.map Fin.val = List.range 8 ∧
  ∀ (s : State) (q : Fin 4) (pos : Nat) (h : Header) (action : ChainAction) (addr : Word) (body : ControlRec) (e : State),
    body = .chainControl action addr → Selects s q pos h body → e = executing q pos h body s →
    (∀ (pin fits : Bool), action = (if pin then .loadPin else .load) →
      (fits = true ↔ (pin = true → addr ∈ pendingPins s ∨ pinCount s < 7)) →
      (∀ x : Fin 8, (s.entry x).estate ≠ .empty → (s.entry x).addr = addr →
        (∀ y : Fin 8, (s.entry y).estate ≠ .empty → (s.entry y).addr = addr → y = x) →
        ((s.entry x).stale = true → exec .controlSelect s = .next (completeHead q
          { completion s q h .inUse with chainHit := decide ((s.entry x).estate = .valid) } e)) ∧
        ((s.entry x).stale = false → (s.entry x).estate = .valid → fits = true ∨ (s.entry x).pinned = true →
          exec .controlSelect s = .next (completeHead q { completion s q h .ok with chainHit := true, detail := .entry x }
            (touchEntry x (e.setEntry x { s.entry x with pinned := (s.entry x).pinned || pin })))) ∧
        ((s.entry x).stale = false → fits = false → (s.entry x).pinned = false →
          exec .controlSelect s = .next (completeHead q
            { completion s q h .pinLimit with chainHit := decide ((s.entry x).estate = .valid) } e)) ∧
        ((s.entry x).stale = false → (s.entry x).estate = .filling → fits = true →
          exec .controlSelect s = .next ((joinFill q e).setHead q (.control pos h body .parked)))) ∧
      ((∀ x : Fin 8, (s.entry x).estate ≠ .empty → (s.entry x).addr ≠ addr) →
        (fits = false → exec .controlSelect s = .next (completeHead q (completion s q h .pinLimit) e)) ∧
        (fits = true → (∃ r ∈ s.cache.reqs, r.addr = addr) →
          exec .controlSelect s = .next ((joinRequest addr q e).setHead q (.control pos h body .parked))) ∧
        (fits = true → (∀ r ∈ s.cache.reqs, r.addr ≠ addr) → (∀ r ∈ s.cache.reqs, r.place ≠ .control) →
          exec .controlSelect s = .next ({ e with cache := { s.cache with
            reqs := s.cache.reqs ++ [({ addr := addr, place := .control, waiters := [q] } : Request)] } }.setHead q (.control pos h body .parked))) ∧
        (fits = true → (∀ r ∈ s.cache.reqs, r.addr ≠ addr) → (∃ r ∈ s.cache.reqs, r.place = .control) →
          exec .controlSelect s = .next { e with cu := { work := some (.placeWait q), last := q } }))) ∧
    (action = .unpin ∨ action = .invalidate →
      (∀ x : Fin 8, (s.entry x).estate ≠ .empty → (s.entry x).addr ≠ addr) →
      exec .controlSelect s = .next (completeHead q (completion s q h .notFound) e)) ∧
    (∀ x : Fin 8, (s.entry x).estate ≠ .empty → (s.entry x).addr = addr →
      (∀ y : Fin 8, (s.entry y).estate ≠ .empty → (s.entry y).addr = addr → y = x) → ∀ done : CqRec,
      done = { completion s q h .ok with detail := .entry x } →
      (action = .unpin → (s.entry x).estate = .valid → (s.entry x).stale = false →
        exec .controlSelect s = .next (completeHead q done (e.setEntry x { s.entry x with pinned := false }))) ∧
      (action = .unpin → (s.entry x).estate = .filling ∨ (s.entry x).stale = true →
        exec .controlSelect s = .next (completeHead q done e)) ∧
      (action = .invalidate → (s.entry x).estate = .filling →
        exec .controlSelect s = .next (completeHead q done (e.setEntry x { s.entry x with stale := true }))) ∧
      (action = .invalidate → (s.entry x).estate = .valid → (s.entry x).stale = false →
        exec .controlSelect s = .next (completeHead q done (lruDrop x (e.setEntry x
          (if (s.entry x).inuse then { s.entry x with stale := true, pinned := false } else Entry.free))))) ∧
      (action = .invalidate → (s.entry x).estate = .valid → (s.entry x).stale = true → x ∉ s.cache.lru →
        exec .controlSelect s = .next (completeHead q done e))) ∧
    (action = .invalidateAll → ∃ entries : Vector Entry 8,
      exec .controlSelect s = .next (completeHead q
        { completion s q h .ok with
          count := (entryIds.filter (fun x => decide ((s.entry x).estate ≠ .empty) && !(s.entry x).stale)).length }
        { e with cache := { s.cache with
          entries := entries, lru := s.cache.lru.filter (fun x => decide ((s.entry x).estate ≠ .valid)) } }) ∧
      ∀ x : Fin 8, entries[x.val] = match (s.entry x).estate, (s.entry x).stale, (s.entry x).inuse with
        | .filling, _, _ => { s.entry x with stale := true }
        | .valid, false, true => { s.entry x with stale := true, pinned := false }
        | .valid, false, false => Entry.free
        | _, _, _ => s.entry x)

/-- A MARKER completes OK at once, with the stamps, without parking; the head selected is the first in CONTROL_WAIT after the
last-served queue. ABORT (R67 to R72): NOT_FOUND where the target's head is not a record of that tag; a WAITING, READY or CONTROL_WAIT
target completes ABORTED at once, a STARTING one after giving up what it holds, a PARKED one after its withdrawal, and the
ABORT then completes OK; a RUNNING one is sent a stop request and the ABORT waits for it. A job that waits for the JOB place
looks up its address again once the place is free (R81): it hits, joins the fill or the request, or places its own. The
model's choices: where the withdrawal of a parked LOAD frees the place, the job looks before the target's completion (log
37). -/
def Obligations.AbortAndMarkerRule : Prop :=
  (∀ (s : State) (t : Fin 4) (j : JobRec), withdrawWaiter t s = { s with cache := { s.cache with
      reqs := (s.cache.reqs.map (fun r => { r with waiters := r.waiters.filter (fun x => x != t) })).filter
        (fun r => decide (r.waiters ≠ []))
      fill := s.cache.fill.map (fun f => { f with waiters := f.waiters.filter (fun x => x != t) }) } } ∧
    (j.chainEnt = none → useEndOf j s = s) ∧
    ∀ x, j.chainEnt = some x → useEndOf j s =
      s.setEntry x (if (s.entry x).stale = true then Entry.free else { s.entry x with inuse := false })) ∧
  (∀ (s : State) (q : Fin 4) (pos : Nat) (h : Header), Selects s q pos h .marker →
    exec .controlSelect s = .next (completeHead q (completion s q h .ok) (executing q pos h .marker s))) ∧
  ∀ (s : State) (q t : Fin 4) (pos : Nat) (h : Header) (tag : Word) (e : State), Selects s q pos h (.abort t tag) → t ≠ q →
    e = executing q pos h (.abort t tag) s → ∀ done : State → State, (∀ x, done x = completeHead q (completion s q h .ok) x) →
    ((s.queue t).head = .empty ∨ (∃ tp, (s.queue t).head = .fetching tp) →
      exec .controlSelect s = .next (completeHead q (completion s q h .notFound) e)) ∧
    (∀ tpos th j, (s.queue t).head = .data tpos th j →
      (th.tag ≠ tag → exec .controlSelect s = .next (completeHead q (completion s q h .notFound) e)) ∧
      (th.tag = tag → ∀ aborted : CqRec,
        aborted = { completion s t th .aborted with waited := j.waited, chainHit := j.chainHit } →
        (j.jstate = .waiting ∨ j.jstate = .ready → exec .controlSelect s = .next (done (completeHead t aborted e))) ∧
        (j.jstate = .starting → exec .controlSelect s = .next (done (completeHead t aborted (useEndOf j
          (if j.claims then releaseStreams j.data (withdrawWaiter t e) else withdrawWaiter t e))))) ∧
        (j.jstate = .running → exec .controlSelect s =
          .next { e with stopReq := true, cu := { work := some (.abortWait q t), last := q } }))) ∧
    (∀ tpos th body st, (s.queue t).head = .control tpos th body st →
      (th.tag ≠ tag → exec .controlSelect s = .next (completeHead q (completion s q h .notFound) e)) ∧
      (th.tag = tag → ∀ aborted : CqRec, aborted = completion s t th .aborted →
        (st = .controlWait → exec .controlSelect s = .next (done (completeHead t aborted e))) ∧
        (∀ p j action dir n, st = .parked → body = .bindSlot p j action →
          ((s.port p).slot j = { current := none, pending := some (.bind dir n t) } → exec .controlSelect s =
            .next (done (completeHead t aborted (setMirror n dir none
              (e.setPort p ((s.port p).setSlot j { current := none, pending := none })))))) ∧
          ((s.port p).slot j = { current := some (dir, n), pending := some (.unbind t) } → exec .controlSelect s =
            .next (done (completeHead t aborted (setMirror n dir (some ⟨p, j, .current⟩)
              (e.setPort p ((s.port p).setSlot j { current := some (dir, n), pending := none }))))))) ∧
        (∀ action addr, st = .parked → body = .chainControl action addr → ∀ u : State, u = { e with cache := { s.cache with
            reqs := (s.cache.reqs.map (fun r => { r with waiters := r.waiters.filter (fun x => x != t) })).filter
              (fun r => decide (r.waiters ≠ []))
            fill := s.cache.fill.map (fun f => { f with waiters := f.waiters.filter (fun x => x != t) }) } } →
          exec .controlSelect s = .next (done (completeHead t aborted (retryJobPlace u))) ∧
          ((∀ r : Fin 4, headIn .starting (s.queue r).head = false) →
            exec .controlSelect s = .next (done (completeHead t aborted u)))))) ∧
  ∀ (s : State) (q : Fin 4) (pos : Nat) (h : Header) (j : JobRec) (addr : Word) (context : Option (Fin 32)),
    (s.queue q).head = .data pos h j → j.jstate = .starting → j.chainWait = .requested → j.data.kind = .filter addr context →
    (∀ r ∈ s.cache.reqs, q ∉ r.waiters) → (∀ r : Fin 4, r ≠ q → headIn .starting (s.queue r).head = false) →
    ((∃ r ∈ s.cache.reqs, r.place = .job) → retryJobPlace s = s) ∧
    ((∀ r ∈ s.cache.reqs, r.place ≠ .job) →
      (∀ x : Fin 8, (s.entry x).estate ≠ .empty → (s.entry x).addr = addr →
        (∀ y : Fin 8, (s.entry y).estate ≠ .empty → (s.entry y).addr = addr → y = x) →
        ((s.entry x).estate = .valid → retryJobPlace s = startWithChain q [] (touchEntry x
          ((s.setEntry x { s.entry x with inuse := true }).setHead q
            (.data pos h { j with chainEnt := some x, chainWait := .none, chainHit := true })))) ∧
        ((s.entry x).estate = .filling →
          retryJobPlace s = joinFill q (s.setHead q (.data pos h { j with chainWait := .filling })))) ∧
      ((∀ x : Fin 8, (s.entry x).estate ≠ .empty → (s.entry x).addr ≠ addr) →
        ((∃ r ∈ s.cache.reqs, r.addr = addr) → retryJobPlace s = joinRequest addr q s) ∧
        ((∀ r ∈ s.cache.reqs, r.addr ≠ addr) → retryJobPlace s = { s with cache := { s.cache with
          reqs := s.cache.reqs ++ [({ addr := addr, place := .job, waiters := [q] } : Request)] } })))

/-! ### Timers and change notices -/

/-- One tick: each wait timer with TRUN 1 and CTIMER fall by one microsecond, none below 0; in FAULTED the wait timers are
held. The wait timer's expiry completes a WAITING or READY head WAIT_EXPIRED. A change notice re-examines, one after another,
every WAITING and READY head that names its stream: the first check that fails for that stream, in the order of its roles
(a MIX may read and write one stream), completes the head, and otherwise the head becomes READY or WAITING by the readiness of
all its streams. The model's choices: a timer at 0 as an expiry that is due, a notice that was not sent as no
event, and the order of the heads are the model's (log 3, log 4, log 10). -/
def Obligations.TimersAndNoticesRule : Prop :=
  ((∀ s : State, awake s → s.eng.st = .faulted →
    exec .tick s = .next { s with cq := { s.cq with ctimer := s.cq.ctimer.map (fun t => t - 1) } }) ∧
  ∀ s : State, awake s → s.eng.st ≠ .faulted → ∃ t, exec .tick s = .next t ∧
    t = { s with queues := t.queues, cq := { s.cq with ctimer := s.cq.ctimer.map (fun t => t - 1) } } ∧
    ∀ q : Fin 4,
      (∀ pos h j, (s.queue q).head = .data pos h j → j.trun = true →
        t.queue q = { s.queue q with head := .data pos h { j with timer := j.timer.map (fun t => t - 1) } }) ∧
      ((∀ pos h j, (s.queue q).head = .data pos h j → j.trun = false) → t.queue q = s.queue q)) ∧
  (∀ (s : State) (q : Fin 4) (pos : Nat) (h : Header) (j : JobRec), awake s → (s.queue q).head = .data pos h j →
    (live s = true → j.jstate = .waiting ∨ j.jstate = .ready → j.timer = some 0 → exec (.waitTimerExpiry q) s = .next
      (completeHead q { completion s q h .waitExpired with waited := j.waited, chainHit := j.chainHit } s)) ∧
    (s.eng.st = .faulted ∨ j.jstate = .starting ∨ j.jstate = .running ∨ j.timer ≠ some 0 →
      exec (.waitTimerExpiry q) s = .next s)) ∧
  (∀ (s : State) (n : Fin 48) (order : List (Fin 4)) (q : Fin 4) (rest : List (Fin 4)), awake s →
    (n ∈ s.notices → exec (.changeNotice n order) s =
      .next (reexamineAll n (inOrder order [0, 1, 2, 3]) { s with notices := s.notices.erase n })) ∧
    reexamineAll n [] s = s ∧ reexamineAll n (q :: rest) s = reexamineAll n rest (reexamine n q s)) ∧
  (∀ order : List (Fin 4), (inOrder order [0, 1, 2, 3]).Perm [0, 1, 2, 3] ∧ inOrder [] [0, 1, 2, 3] = [0, 1, 2, 3] ∧
    (order.Nodup → inOrder order [0, 1, 2, 3] = order ++ ([0, 1, 2, 3] : List (Fin 4)).filter (fun q => decide (q ∉ order)))) ∧
  (∀ (s : State) (n : Fin 48) (q : Fin 4),
    ((∀ pos h j, (s.queue q).head = .data pos h j → j.jstate = .waiting ∨ j.jstate = .ready → n ∉ namedStreams j.data) →
      reexamine n q s = s) ∧
    ∀ pos h j roles, (s.queue q).head = .data pos h j → j.jstate = .waiting ∨ j.jstate = .ready →
      roles = (streamRoles j.data).filter (fun x => decide (x.1 = n)) → roles ≠ [] →
      (∀ before x after st, roles = before ++ x :: after →
        (∀ y ∈ before, streamCheck (s.stream n) y.2 j.data.n = none) → streamCheck (s.stream n) x.2 j.data.n = some st →
        reexamine n q s = completeHead q { completion s q h st with waited := j.waited, chainHit := j.chainHit } s) ∧
      ((∀ y ∈ roles, streamCheck (s.stream n) y.2 j.data.n = none) →
        ((∀ x ∈ streamRoles j.data, streamReady (s.stream x.1) x.2 j.data.n = true) →
          reexamine n q s = s.setHead q (.data pos h { j with jstate := .ready })) ∧
        ((∃ x ∈ streamRoles j.data, streamReady (s.stream x.1) x.2 j.data.n = false) →
          reexamine n q s = s.setHead q (.data pos h { j with jstate := .waiting, waited := true })))) ∧
  ∀ (s : State) (n : Fin 48) (order : List (Fin 4)) (u : State), awake s →
    u = { s with notices := s.notices.erase n } →
    (n ∉ s.notices → exec (.changeNotice n order) s = .next s) ∧
    (n ∈ s.notices → (∀ q pos h j, (s.queue q).head = .data pos h j → j.jstate = .waiting ∨ j.jstate = .ready →
        n ∉ namedStreams j.data) → exec (.changeNotice n order) s = .next u) ∧
    (n ∈ s.notices → ∀ q pos h j role, (s.queue q).head = .data pos h j → j.jstate = .waiting ∨ j.jstate = .ready →
      (n, role) ∈ streamRoles j.data → (∀ role', (n, role') ∈ streamRoles j.data → role' = role) →
      (∀ q' pos' h' j', q' ≠ q → (s.queue q').head = .data pos' h' j' → j'.jstate = .waiting ∨ j'.jstate = .ready →
        n ∉ namedStreams j'.data) →
      (∀ st, streamCheck (s.stream n) role j.data.n = some st → exec (.changeNotice n order) s =
        .next (completeHead q { completion s q h st with waited := j.waited, chainHit := j.chainHit } u)) ∧
      (streamCheck (s.stream n) role j.data.n = none →
        ((∀ x ∈ streamRoles j.data, streamReady (s.stream x.1) x.2 j.data.n = true) →
          exec (.changeNotice n order) s = .next (u.setHead q (.data pos h { j with jstate := .ready }))) ∧
        ((∃ x ∈ streamRoles j.data, streamReady (s.stream x.1) x.2 j.data.n = false) →
          exec (.changeNotice n order) s =
            .next (u.setHead q (.data pos h { j with jstate := .waiting, waited := true })))))

/-! ### The arbiter and the start sequence -/

/-- The arbiter (R60) grants in RUNNING with no job STARTING or RUNNING: the turn's queue while it is READY and has credit,
otherwise the first READY queue after it, which takes the turn with its weight less one. The claim of R62: the first stream
that fails a check completes the job with that status, or, not ready, sends it back to WAITING. The stream checks (R52): DEFINED,
the endpoint kind of the role, N ≤ LENGTH − H; an input is ready with FILL ≥ N, an output with N words free (R17). A granted
MIX enters RUNNING with a fresh working record, no context and no chain, and issues reads; a granted FILTER goes on with its
chain: a hit, the fill under way, the listed request, a request of its own, or the wait for the JOB place. The model's
choices: the reads issued in the step are an operand (log 4). -/
def Obligations.GrantRule : Prop :=
  (∀ (r : StreamRec) (n : Nat),
    (r.defined = false → ∀ role, streamCheck r role n = some .noStream ∧ streamReady r role n = false) ∧
    (r.defined = true →
      (r.consumer ≠ .job → streamCheck r .input n = some .wrongEndpoint) ∧
      (r.producer ≠ .job → streamCheck r .output n = some .wrongEndpoint) ∧
      (∀ role, role = .input ∧ r.consumer = .job ∨ role = .output ∧ r.producer = .job →
        (r.length - r.hist < n → streamCheck r role n = some .blockTooLong) ∧
        (n ≤ r.length - r.hist → streamCheck r role n = none)) ∧
      (streamReady r .input n = true ↔ n ≤ r.fill) ∧
      (streamReady r .output n = true ↔ n ≤ r.length - r.fill - r.hist))) ∧
  (∀ (s : State) (reads : List ReadChoice), awake s →
    s.eng.st ≠ .running ∨ (∃ r : Fin 4, jobActive (s.queue r).head = true) ∨
      (∀ r : Fin 4, headIn .ready (s.queue r).head = false) → exec (.grant reads) s = .next s) ∧
  (∀ (b : Bool) (ns : List (Fin 48)) (s : State), setClaims b ns s = { s with streams := (setClaims b ns s).streams } ∧
    ∀ n, (setClaims b ns s).stream n = { s.stream n with claimed := if n ∈ ns then b else (s.stream n).claimed }) ∧
  ∀ (s : State) (reads : List ReadChoice) (q : Fin 4) (pos : Nat) (h : Header) (j : JobRec) (u v : State), awake s →
    s.eng.st = .running → (∀ r : Fin 4, jobActive (s.queue r).head = false) →
    (s.queue q).head = .data pos h j → j.jstate = .ready →
    ((q = s.turn ∧ 0 < s.credit ∧ u = { s with credit := s.credit - 1 }) ∨
      ((headIn .ready (s.queue s.turn).head = false ∨ s.credit = 0) ∧
        (∀ d : Fin 4, d < q - s.turn - 1 → headIn .ready (s.queue (s.turn + 1 + d)).head = false) ∧
        u = { s with turn := q, credit := (s.queue q).weight - 1 })) →
    (∀ before x after, streamRoles j.data = before ++ x :: after →
      (∀ y ∈ before, streamCheck (s.stream y.1) y.2 j.data.n = none ∧ streamReady (s.stream y.1) y.2 j.data.n = true) →
      (∀ st, streamCheck (s.stream x.1) x.2 j.data.n = some st → exec (.grant reads) s =
        .next (completeHead q { completion s q h st with waited := j.waited, chainHit := j.chainHit } u)) ∧
      (streamCheck (s.stream x.1) x.2 j.data.n = none → streamReady (s.stream x.1) x.2 j.data.n = false →
        exec (.grant reads) s =
          .next (u.setHead q (.data pos h { j with jstate := .waiting, waited := true, trun := true })))) ∧
    ((∀ x ∈ streamRoles j.data, streamCheck (s.stream x.1) x.2 j.data.n = none ∧
        streamReady (s.stream x.1) x.2 j.data.n = true) →
      ∀ (k : JobRec), k = { j with jstate := .starting, trun := false, claims := decide (namedStreams j.data ≠ []) } →
      v = (setClaims true (namedStreams j.data) u).setHead q (.data pos h k) →
      (∀ gains, j.data.kind = .mix gains → j.chainEnt = none → exec (.grant reads) s = .next (issueReads reads
        ({ v with dp := { Datapath.idle with
            st := .compute
            jobq := q
            inputs := j.data.inputs.map (fun (e : Endpoint) => match e with
              | .stream _ => { rdnext := 0, words := [] }
              | .memory a => { rdnext := a.toNat, words := [] }) } }.setHead q
          (.data pos h { k with jstate := .running, timer := none, chainWait := .none, ctxReset := false })))) ∧
      (∀ addr context, j.data.kind = .filter addr context →
        (∀ x : Fin 8, (s.entry x).estate ≠ .empty → (s.entry x).addr = addr →
          (∀ y : Fin 8, (s.entry y).estate ≠ .empty → (s.entry y).addr = addr → y = x) →
          ((s.entry x).estate = .valid → exec (.grant reads) s = .next (startWithChain q reads (touchEntry x
            ((v.setEntry x { s.entry x with inuse := true }).setHead q
              (.data pos h { k with chainEnt := some x, chainWait := .none, chainHit := true }))))) ∧
          ((s.entry x).estate = .filling → exec (.grant reads) s =
            .next (joinFill q (v.setHead q (.data pos h { k with chainWait := .filling }))))) ∧
        ((∀ x : Fin 8, (s.entry x).estate ≠ .empty → (s.entry x).addr ≠ addr) → ∀ w : State,
          w = v.setHead q (.data pos h { k with chainWait := .requested }) →
          ((∃ r ∈ s.cache.reqs, r.addr = addr) → exec (.grant reads) s = .next (joinRequest addr q w)) ∧
          ((∀ r ∈ s.cache.reqs, r.addr ≠ addr) → (∀ r ∈ s.cache.reqs, r.place ≠ .job) → exec (.grant reads) s =
            .next { w with cache := { s.cache with reqs := s.cache.reqs ++ [({ addr := addr, place := .job, waiters := [q] } : Request)] } }) ∧
          ((∀ r ∈ s.cache.reqs, r.addr ≠ addr) → (∃ r ∈ s.cache.reqs, r.place = .job) →
            exec (.grant reads) s = .next w))))

/-- The chain checks and the entry to RUNNING (R64, R65, R106, R118). A chain with a BIQUAD needs a
context; the delay line of a FIR on a STREAM must lie in its history; a failed check gives up the claims and the entry.
Otherwise the job runs: its timer is discarded, the context is HELD, BQSTATE is the context's state where it names the job's
chain and zero with CONTEXT_RESET where it does not, the working record is fresh and DELAY holds the stream's history, or
the words of memory below the block that are no words at all, as 0; the first reads are then issued (R108). The model's
choices: the words a memory input's delay line lacks are held as 0 until they arrive (log 22); the reads issued in the step
are an operand (log 4). -/
def Obligations.EntryToRunningRule : Prop :=
  (∀ (coefs : List Sample) (stages : List StageRec), chainTaps (.fir coefs :: stages) = coefs.length ∧
    ((∀ c rest, stages ≠ .fir c :: rest) → chainTaps stages = 0) ∧
    (chainHasBiquad stages = true ↔ ∃ b0 b1 b2 a1 a2, .biquad b0 b1 b2 a1 a2 ∈ stages)) ∧
  (∀ (x : Fin 8) (s : State), useEnd x s =
    s.setEntry x (if (s.entry x).stale = true then Entry.free else { s.entry x with inuse := false })) ∧
  ∀ (s : State) (q : Fin 4) (pos : Nat) (h : Header) (j : JobRec) (addr : Word) (context : Option (Fin 32)) (x : Fin 8)
    (i : Endpoint) (taps : Nat) (reads : List ReadChoice), (s.queue q).head = .data pos h j →
    j.data.kind = .filter addr context →
    j.data.inputs = [i] → j.chainEnt = some x → taps = chainTaps (s.entry x).stages →
    (∀ st, (st = .needsContext ∧ context = none ∧ chainHasBiquad (s.entry x).stages = true ∨
        st = .historyShort ∧ (context ≠ none ∨ chainHasBiquad (s.entry x).stages = false) ∧
          ∃ n, i = .stream n ∧ (s.stream n).hist + 1 < taps) →
      startWithChain q reads s = completeHead q { completion s q h st with waited := j.waited, chainHit := j.chainHit }
        (useEnd x (if j.claims then releaseStreams j.data s else s))) ∧
    ((context ≠ none ∨ chainHasBiquad (s.entry x).stages = false) →
      (∀ n, i = .stream n → taps ≤ (s.stream n).hist + 1) →
      ∀ (u : State) (bq : Vector BqState 6) (reset : Bool),
      (context = none → u = s ∧ bq = bqZero ∧ reset = false) →
      (∀ c, context = some c → u = s.setContext c { s.context c with held := true } ∧
        (((s.context c).binding = some (s.entry x).addr ∧ bq = (s.context c).sstate ∧ reset = false) ∨
          ((s.context c).binding ≠ some (s.entry x).addr ∧ bq = bqZero ∧ reset = true))) →
      ∀ (dp : Datapath), dp = { Datapath.idle with st := .compute, jobq := q, bq := bq } → ∀ (run : Datapath → State),
      (∀ d, run d = { u with dp := d }.setHead q (.data pos h
        { j with jstate := .running, timer := none, trun := false, chainWait := .none, ctxReset := reset })) →
      (∀ n, i = .stream n → startWithChain q reads s = issueReads reads (run { dp with
        inputs := [{ rdnext := 0, words := [] }]
        delay := (List.range (taps - 1)).map (fun k => storeRead s.store
          (ringWord (s.stream n) ((s.stream n).rdpos + (s.stream n).length - (k + 1)))) })) ∧
      (∀ a, i = .memory a → startWithChain q reads s = issueReads reads (run { dp with
        inputs := [{ rdnext := a.toNat - 2 * min (taps - 1) (a.toNat / 2), words := [] }]
        delay := List.replicate (taps - 1) 0 })))

/-! ### The chain loader -/

/-- The loader begins a fill of the oldest request (R82): a bad address fails it CHAIN_INVALID, a cache without a victim
CHAIN_NO_ROOM; otherwise the lowest EMPTY entry, or the least recently used one neither PINNED nor INUSE, becomes FILLING
and the 16 bytes of the header are read. The request's waiters, any number of them, become those of the fill, a job among them
with CHAINWAIT FILLING; a fill that fails at once serves each with its status. With a fill under way or no request nothing
begins. The request having left the list,
a job that waits for the JOB place, and then a LOAD that waits for the CONTROL place, looks up its address again (R81, R90):
the LOAD acts as a selected one does. The model's choices: a fill with nothing to begin is no event and the order of the looks
is the model's (log 3, log 20). -/
def Obligations.FillBeginRule : Prop :=
  (∀ (s : State) (order : List (Fin 4)), s.cache.fill ≠ none ∨ s.cache.reqs = [] → exec (.fillBegin order) s = .next s) ∧
  (∀ (s : State) (q : Fin 4) (pos : Nat) (h : Header) (body : ControlRec) (action : ChainAction) (addr : Word),
    body = .chainControl action addr →
    (Selects s q pos h body → exec .controlSelect s = .next (chainControl q action addr (executing q pos h body s))) ∧
    (∀ st, (s.queue q).head = .control pos h body st → s.cu.work = some (.placeWait q) →
      ((∃ r ∈ s.cache.reqs, r.place = .control) → retryControlPlace s = s) ∧
      ((∀ r ∈ s.cache.reqs, r.place ≠ .control) →
        retryControlPlace s = chainControl q action addr { s with cu := { s.cu with work := none } } ∧
        (action = .load → (∀ x : Fin 8, (s.entry x).estate ≠ .empty → (s.entry x).addr ≠ addr) →
          (∀ r ∈ s.cache.reqs, r.addr ≠ addr) → retryControlPlace s = { s with
            cu := { s.cu with work := none }
            cache := { s.cache with
              reqs := s.cache.reqs ++ [({ addr := addr, place := .control, waiters := [q] } : Request)] } }.setHead q
              (.control pos h body .parked))))) ∧
  (∀ s : State, (∀ q, s.cu.work ≠ some (.placeWait q)) → retryControlPlace s = s) ∧
  (∀ s : State, (∀ q : Fin 4, headIn .starting (s.queue q).head = true →
      (∃ pos h j, (s.queue q).head = .data pos h j ∧ j.chainWait ≠ .requested) ∨ ∃ r ∈ s.cache.reqs, q ∈ r.waiters) →
    retryJobPlace s = s) ∧
  (∀ (q : Fin 4) (rest : List (Fin 4)) (s : State), markFilling [] s = s ∧
    (∀ pos h j, (s.queue q).head = .data pos h j → markFilling (q :: rest) s =
      markFilling rest (s.setHead q (.data pos h { j with chainWait := .filling }))) ∧
    ((∀ pos h j, (s.queue q).head ≠ .data pos h j) → markFilling (q :: rest) s = markFilling rest s)) ∧
  (∀ (s : State) (order : List (Fin 4)) (r : Request) (rest : List Request) (u : State), awake s → s.cache.fill = none →
    s.cache.reqs = r :: rest → u = markFilling r.waiters { s with cache := { s.cache with reqs := rest } } →
    (∀ e : Fin 8, r.addr.toNat % 16 = 0 → r.addr.toNat + 112 ≤ 2 ^ 32 →
      ((s.entry e).estate = .empty ∧ ∀ f < e, (s.entry f).estate ≠ .empty) ∨
        ((∀ f : Fin 8, (s.entry f).estate ≠ .empty) ∧ ∃ before after, s.cache.lru = before ++ e :: after ∧
          (s.entry e).pinned = false ∧ (s.entry e).inuse = false ∧
          ∀ f ∈ before, (s.entry f).pinned = true ∨ (s.entry f).inuse = true) →
      ∀ v : State, v = (lruDrop e u).setEntry e
        { estate := .filling, addr := r.addr, stages := [], pinned := false, inuse := false, stale := false } →
      exec (.fillBegin order) s = .next (checkDrain (retryControlPlace (retryJobPlace { v with cache := { v.cache with
        fill := some {
          addr := r.addr
          entry := e
          waiters := r.waiters
          part := .header
          buf := { cells := List.replicate 16 none, err := false }
          count := 0
          coefAdr := 0
          taps := 0 } } })))) ∧
    ∀ st, (¬ (r.addr.toNat % 16 = 0 ∧ r.addr.toNat + 112 ≤ 2 ^ 32) ∧ st = .chainInvalid) ∨
        ((r.addr.toNat % 16 = 0 ∧ r.addr.toNat + 112 ≤ 2 ^ 32) ∧ (∀ f : Fin 8, (s.entry f).estate ≠ .empty) ∧
          (∀ f ∈ s.cache.lru, (s.entry f).pinned = true ∨ (s.entry f).inuse = true) ∧ st = .chainNoRoom) →
      exec (.fillBegin order) s = .next (checkDrain (retryControlPlace (retryJobPlace
        (serveFailedAll st (inOrder order r.waiters) u))))) ∧
  ∀ (s : State) (order : List (Fin 4)) (r : Request) (rest : List Request) (q : Fin 4) (look : State → State), awake s →
    s.cache.fill = none → s.cache.reqs = r :: rest → r.waiters = [q] →
    (∀ x, look x = checkDrain (retryControlPlace (retryJobPlace x))) →
    ∀ u : State, u = { s with cache := { s.cache with reqs := rest } } →
    (∀ e : Fin 8, r.addr.toNat % 16 = 0 → r.addr.toNat + 112 ≤ 2 ^ 32 →
      ((s.entry e).estate = .empty ∧ ∀ f < e, (s.entry f).estate ≠ .empty) ∨
        ((∀ f : Fin 8, (s.entry f).estate ≠ .empty) ∧ ∃ before after, s.cache.lru = before ++ e :: after ∧
          (s.entry e).pinned = false ∧ (s.entry e).inuse = false ∧
          ∀ f ∈ before, (s.entry f).pinned = true ∨ (s.entry f).inuse = true) →
      ∀ v : State, v = (lruDrop e u).setEntry e
        { estate := .filling, addr := r.addr, stages := [], pinned := false, inuse := false, stale := false } →
      ∀ f : Fill, f =
        { addr := r.addr
          entry := e
          waiters := [q]
          part := .header
          buf := { cells := List.replicate 16 none, err := false }
          count := 0
          coefAdr := 0
          taps := 0 } →
      (∀ pos h body st, (s.queue q).head = .control pos h body st →
        exec (.fillBegin order) s = .next (look { v with cache := { v.cache with fill := some f } })) ∧
      (∀ pos h j, (s.queue q).head = .data pos h j → exec (.fillBegin order) s =
        .next (look ({ v with cache := { v.cache with fill := some f } }.setHead q
          (.data pos h { j with chainWait := .filling }))))) ∧
    (∀ st, (¬ (r.addr.toNat % 16 = 0 ∧ r.addr.toNat + 112 ≤ 2 ^ 32) ∧ st = .chainInvalid) ∨
        ((r.addr.toNat % 16 = 0 ∧ r.addr.toNat + 112 ≤ 2 ^ 32) ∧ (∀ f : Fin 8, (s.entry f).estate ≠ .empty) ∧
          (∀ f ∈ s.cache.lru, (s.entry f).pinned = true ∨ (s.entry f).inuse = true) ∧ st = .chainNoRoom) →
      (∀ pos h body, (s.queue q).head = .control pos h body .parked → exec (.fillBegin order) s =
        .next (look (completeHead q (completion s q h st) u))) ∧
      (∀ pos h j, (s.queue q).head = .data pos h j → j.jstate = .starting → j.chainEnt = none → exec (.fillBegin order) s =
        .next (look (completeHead q { completion s q h st with waited := j.waited, chainHit := j.chainHit }
          (if j.claims then releaseStreams j.data u else u)))))

/-- The reads of a fill (R83): an answer is taken; when a part is answered, an error fails the fill BUS_ERROR, a check that
fails CHAIN_INVALID; the header is followed by the stages, the stages by the coefficients of a FIR. The stage records (R190):
a TYPE of 1 to 3, a FIR in stage 1 alone with 1 to 128 taps, a GAIN with SHIFT up to 7, each field at its offset. The model's
choices: the cut of the reads into answers (log 5); while the coefficients are read the FILLING entry holds the FIR with an
empty coefficient list (log 29). -/
def Obligations.FillReadRule : Prop :=
  (∀ (bs : List Byte) (count : Nat),
    (decodeStages bs count = none ↔ ∃ k, k < count ∧
      (num8 bs (16 * k) = 0 ∨ 3 < num8 bs (16 * k) ∨
        (num8 bs (16 * k) = 1 ∧ (k ≠ 0 ∨ num16 bs (16 * k + 2) = 0 ∨ 128 < num16 bs (16 * k + 2))) ∨
        (num8 bs (16 * k) = 3 ∧ 7 < num8 bs (16 * k + 1)))) ∧
    ∀ raws, decodeStages bs count = some raws → raws.length = count ∧ ∀ k, k < count →
      (num8 bs (16 * k) = 1 → raws[k]? = some (.fir (num16 bs (16 * k + 2)))) ∧
      (num8 bs (16 * k) = 2 → raws[k]? = some (.stage (.biquad (half bs (16 * k + 2)) (half bs (16 * k + 4))
        (half bs (16 * k + 6)) (half bs (16 * k + 8)) (half bs (16 * k + 10))))) ∧
      (num8 bs (16 * k) = 3 → raws[k]? = some (.stage (.gain (half bs (16 * k + 2)) (num8 bs (16 * k + 1)))))) ∧
  ∀ (s : State) (off : Nat) (a : Answer) (order : List (Fin 4)) (reads : List ReadChoice) (f g : Fill) (bs : List Byte),
    awake s → s.cache.fill = some f → answerFits f.buf off (answerLength a) = true →
    g = { f with buf := bufTake f.buf off a } → bs = bufBytes g.buf →
    ∀ r : Host.Outcome State Fault Refusal, r = exec (.fillReadAnswer off a order reads) s →
    (bufDone g.buf = false → r = .next { s with cache := { s.cache with fill := some g } }) ∧
    (bufDone g.buf = true → g.buf.err = true → r = .next (checkDrain (fillFailed .busError g order s))) ∧
    (bufDone g.buf = true → g.buf.err = false →
      (f.part = .header → 1 ≤ num8 bs 0 → num8 bs 0 ≤ 6 → r = .next
        { s with cache := { s.cache with fill := some { f with
          part := .stages
          count := num8 bs 0
          coefAdr := word bs 4
          buf := { cells := List.replicate (16 * num8 bs 0) none, err := false } } } }) ∧
      (f.part = .header → num8 bs 0 = 0 ∨ 6 < num8 bs 0 →
        r = .next (checkDrain (fillFailed .chainInvalid g order s))) ∧
      (f.part = .stages → decodeStages bs f.count = none → r = .next (checkDrain (fillFailed .chainInvalid g order s))) ∧
      (f.part = .stages → ∀ stages : List StageRec, decodeStages bs f.count = some (stages.map RawStage.stage) →
        r = .next (checkDrain (fillPassed g order reads (s.setEntry f.entry { s.entry f.entry with stages := stages })))) ∧
      (f.part = .stages → ∀ taps (later : List StageRec),
        decodeStages bs f.count = some (.fir taps :: later.map RawStage.stage) →
        (f.coefAdr.toNat % 2 = 0 ∧ f.coefAdr.toNat + 2 * taps ≤ 2 ^ 32 →
          r = .next ({ s with cache := { s.cache with fill := some { f with
            part := .coefs
            taps := taps
            buf := { cells := List.replicate (2 * taps) none, err := false } } } }.setEntry f.entry
              { s.entry f.entry with stages := .fir [] :: later })) ∧
        (¬ (f.coefAdr.toNat % 2 = 0 ∧ f.coefAdr.toNat + 2 * taps ≤ 2 ^ 32) →
          r = .next (checkDrain (fillFailed .chainInvalid g order s)))) ∧
      (f.part = .coefs → ∀ first (later : List StageRec), (s.entry f.entry).stages = .fir first :: later →
        r = .next (checkDrain (fillPassed g order reads (s.setEntry f.entry { s.entry f.entry with
          stages := .fir ((List.range f.taps).map (fun k => half bs (2 * k))) :: later })))))

/-- The end of a fill for its waiters, none, one or several (R84, R85). Passed: the entry is VALID and most recently used,
PINNED where a LOAD_PIN waits, one pin for all of them, INUSE where a job waits; a record completes OK with the entry, the job
goes on with it; a stale entry serves a waiting job alone, outside the LRU list, is EMPTY without one, and a record completes
NOT_FOUND. Failed: the entry is EMPTY, each record and the job complete with the status. The model's choices: the order of
waiters is an operand (log 4). -/
def Obligations.FillEndRule : Prop :=
  (∀ (s u : State) (f : Fill) (order : List (Fin 4)) (reads : List ReadChoice) (x : Entry) (job pin : Bool),
    x = s.entry f.entry → u = { s with cache := { s.cache with fill := none } } →
    (job = true ↔ ∃ w ∈ f.waiters, headIn .starting (s.queue w).head = true) →
    (pin = true ↔ ∃ w ∈ f.waiters, ∃ pos h a, (s.queue w).head = .control pos h (.chainControl .loadPin a) .parked) →
    (∀ st, fillFailed st f order s = serveFailedAll st (inOrder order f.waiters) (u.setEntry f.entry Entry.free)) ∧
    (x.stale = false → fillPassed f order reads s = servePassedAll f.entry false reads (inOrder order f.waiters)
      (lruJoin f.entry (u.setEntry f.entry { x with estate := .valid, pinned := pin, inuse := job }))) ∧
    (x.stale = true → job = true → fillPassed f order reads s = servePassedAll f.entry true reads (inOrder order f.waiters)
      (u.setEntry f.entry { x with estate := .valid, pinned := false, inuse := true })) ∧
    (x.stale = true → job = false → fillPassed f order reads s = servePassedAll f.entry true reads (inOrder order f.waiters)
      (u.setEntry f.entry Entry.free)) ∧
    (f.waiters = [] →
      (∀ st, fillFailed st f order s = u.setEntry f.entry Entry.free) ∧
      (x.stale = false → fillPassed f order reads s =
        lruJoin f.entry (u.setEntry f.entry { x with estate := .valid, pinned := false, inuse := false })) ∧
      (x.stale = true → fillPassed f order reads s = u.setEntry f.entry Entry.free))) ∧
  (∀ order ws : List (Fin 4), inOrder order [] = [] ∧ inOrder [] ws = ws ∧
    (ws.Nodup → (inOrder order ws).Perm ws ∧ (order.Perm ws → inOrder order ws = order))) ∧
  (∀ (s : State) (e : Fin 8) (st : Status) (stale : Bool) (reads : List ReadChoice) (q : Fin 4) (rest : List (Fin 4)),
    servePassedAll e stale reads [] s = s ∧ serveFailedAll st [] s = s ∧
    (∀ pos h body, (s.queue q).head = .control pos h body .parked →
      servePassedAll e false reads (q :: rest) s =
        servePassedAll e false reads rest (completeHead q { completion s q h .ok with detail := .entry e } s) ∧
      servePassedAll e true reads (q :: rest) s =
        servePassedAll e true reads rest (completeHead q (completion s q h .notFound) s) ∧
      serveFailedAll st (q :: rest) s = serveFailedAll st rest (completeHead q (completion s q h st) s)) ∧
    ∀ pos h j, (s.queue q).head = .data pos h j → j.jstate = .starting →
      servePassedAll e stale reads (q :: rest) s = servePassedAll e stale reads rest
        (startWithChain q reads (s.setHead q (.data pos h { j with chainEnt := some e, chainWait := .none }))) ∧
      (j.chainEnt = none → serveFailedAll st (q :: rest) s = serveFailedAll st rest
        (completeHead q { completion s q h st with waited := j.waited, chainHit := j.chainHit }
          (if j.claims then releaseStreams j.data s else s)))) ∧
  ∀ (s u : State) (f : Fill) (order : List (Fin 4)) (q : Fin 4) (x : Entry), f.waiters = [q] → x = s.entry f.entry →
    u = { s with cache := { s.cache with fill := none } } →
    (∀ pos h action addr, (s.queue q).head = .control pos h (.chainControl action addr) .parked →
      (∀ st, fillFailed st f order s = completeHead q (completion s q h st) (u.setEntry f.entry Entry.free)) ∧
      (x.stale = false → action = .load ∨ action = .loadPin → ∀ reads, fillPassed f order reads s =
        completeHead q { completion s q h .ok with detail := .entry f.entry } (lruJoin f.entry (u.setEntry f.entry
          { x with estate := .valid, pinned := decide (action = .loadPin), inuse := false }))) ∧
      (x.stale = true → ∀ reads, fillPassed f order reads s =
        completeHead q (completion s q h .notFound) (u.setEntry f.entry Entry.free))) ∧
    (∀ pos h j, (s.queue q).head = .data pos h j → j.jstate = .starting →
      (∀ st, j.chainEnt = none → fillFailed st f order s =
        completeHead q { completion s q h st with waited := j.waited, chainHit := j.chainHit }
          (if j.claims then releaseStreams j.data (u.setEntry f.entry Entry.free) else u.setEntry f.entry Entry.free)) ∧
      (∀ reads, x.stale = false → fillPassed f order reads s = startWithChain q reads ((lruJoin f.entry (u.setEntry f.entry
        { x with estate := .valid, pinned := false, inuse := true })).setHead q
          (.data pos h { j with chainEnt := some f.entry, chainWait := .none }))) ∧
      (∀ reads, x.stale = true → fillPassed f order reads s = startWithChain q reads ((u.setEntry f.entry
        { x with estate := .valid, pinned := false, inuse := true }).setHead q
          (.data pos h { j with chainEnt := some f.entry, chainWait := .none }))))

/-! ### The datapath -/

/-- The arithmetic of R96 to R105: a FIR's sum, direct form I, a GAIN and a MIX; the shift of each stage and of a MIX; a
result is the rounded sum under the overflow policy; the accumulator with the rounding constant
stays in 40 bits; TRUNC rounds down, ROUND to nearest with halves up; the three overflow policies; the biquad state; the
monitor's peak, its first index and its count. -/
def Obligations.ArithmeticRule : Prop :=
  (∀ (coefs : List Sample) (x : Sample) (delay : List Sample) (b : BqState), stageAcc (.fir coefs) x delay b =
    ((List.range coefs.length).map (fun k => (coefs.getD k 0).toInt * ((x :: delay).getD k 0).toInt)).sum) ∧
  (∀ (b0 b1 b2 a1 a2 x y : Sample) (delay : List Sample) (b : BqState),
    stageAcc (.biquad b0 b1 b2 a1 a2) x delay b = b0.toInt * x.toInt + b1.toInt * b.x1.toInt + b2.toInt * b.x2.toInt
      - a1.toInt * b.y1.toInt - a2.toInt * b.y2.toInt ∧
    stageState (.biquad b0 b1 b2 a1 a2) x y b = { x1 := x, x2 := b.x1, y1 := y, y2 := b.y1 }) ∧
  (∀ (g x y : Sample) (shift : Nat) (coefs delay : List Sample) (b : BqState),
    stageAcc (.gain g shift) x delay b = g.toInt * x.toInt ∧ stageState (.gain g shift) x y b = b ∧
    stageState (.fir coefs) x y b = b) ∧
  (∀ (st : StageRec) (x : Sample) (delay : List Sample) (b : BqState),
    (∀ coefs, st = .fir coefs → coefs.length ≤ 128) → (∀ g shift, st = .gain g shift → shift ≤ 7) →
    (∀ coefs, st = .fir coefs → stageShift st = 15) ∧
    (∀ b0 b1 b2 a1 a2, st = .biquad b0 b1 b2 a1 a2 → stageShift st = 14) ∧
    (∀ g shift, st = .gain g shift → stageShift st = 15 - shift) ∧ -2 ^ 39 ≤ stageAcc st x delay b ∧
    stageAcc st x delay b + 2 ^ (stageShift st - 1) < 2 ^ 39) ∧
  (∀ (policy : OvfPolicy) (mode : Rounding) (k : Nat) (acc : Int),
    stageResult policy mode k acc = applyPolicy policy (roundShift mode k acc)) ∧
  (∀ (policy : OvfPolicy) (mode : Rounding) (gains xs : List Sample) (bq : Vector BqState 6) (clips : Nat) (acc : Int),
    acc = ((gains.zip xs).map (fun p => p.1.toInt * p.2.toInt)).sum →
    (gains.length ≤ 4 → -2 ^ 39 ≤ acc ∧ acc + 2 ^ 14 < 2 ^ 39) ∧
    (∀ y clipped, applyPolicy policy (roundShift mode 15 acc) = .out y clipped →
      runMix policy mode gains xs bq clips = .out y bq (if clipped = true ∧ clips < 65535 then clips + 1 else clips)) ∧
    (applyPolicy policy (roundShift mode 15 acc) = .trapped → runMix policy mode gains xs bq clips = .trapped 0)) ∧
  (∀ (k : Nat) (acc : Int), 1 ≤ k →
    roundShift .trunc k acc * 2 ^ k ≤ acc ∧ acc < (roundShift .trunc k acc + 1) * 2 ^ k ∧
    roundShift .round k acc * 2 ^ k ≤ acc + 2 ^ (k - 1) ∧ acc + 2 ^ (k - 1) < (roundShift .round k acc + 1) * 2 ^ k) ∧
  (∀ v : Int, (-32768 ≤ v → v ≤ 32767 → ∀ policy, ∃ y : Sample, applyPolicy policy v = .out y false ∧ y.toInt = v) ∧
    (32767 < v → ∃ y : Sample, applyPolicy .saturate v = .out y true ∧ y.toInt = 32767) ∧
    (v < -32768 → ∃ y : Sample, applyPolicy .saturate v = .out y true ∧ y.toInt = -32768) ∧
    (v < -32768 ∨ 32767 < v → applyPolicy .trap v = .trapped ∧
      ∃ y : Sample, applyPolicy .wrap v = .out y true ∧ (y.toInt - v) % 65536 = 0)) ∧
  (∀ y : Sample, magnitude y = y.toInt.natAbs) ∧
  (∀ (monitor : Bool) (thresh : Nat) (xs ys : List Sample) (y : Sample) (dp : Datapath),
    finishSamples monitor thresh [] dp = dp ∧
    finishSamples monitor thresh (xs ++ ys) dp = finishSamples monitor thresh ys (finishSamples monitor thresh xs dp) ∧
    finishSamples monitor thresh [y] dp = finishSample monitor thresh dp y ∧
    (magnitude y ≤ dp.peak → dp.finished ≠ 0 → finishSample true thresh dp y = { dp with
      finished := dp.finished + 1, overCnt := dp.overCnt + if thresh ≤ magnitude y then 1 else 0 }) ∧
    (dp.peak < magnitude y ∨ dp.finished = 0 → finishSample true thresh dp y = { dp with
      finished := dp.finished + 1, peak := magnitude y, peakIdx := dp.finished
      overCnt := dp.overCnt + if thresh ≤ magnitude y then 1 else 0 })) ∧
  (∀ (thresh : Nat) (ys : List Sample) (dp r : Datapath), r = finishSamples true thresh ys dp → dp.finished = 0 → ys ≠ [] →
    r.finished = ys.length ∧ ys[r.peakIdx]?.map magnitude = some r.peak ∧ (∀ y ∈ ys, magnitude y ≤ r.peak) ∧
    (∀ i y, ys[i]? = some y → i < r.peakIdx → magnitude y < r.peak) ∧
    r.overCnt = dp.overCnt + (ys.filter (fun y => decide (thresh ≤ y.toInt.natAbs))).length) ∧
  ∀ (thresh : Nat) (ys : List Sample) (dp : Datapath),
    finishSamples false thresh ys dp = { dp with finished := dp.finished + ys.length }

/-- The cascade (R97, R99): each stage takes the output of the stage before it and keeps its own state; every replaced
output counts in CLIPS up to 65535; a trap stops at its stage. -/
def Obligations.CascadeRule : Prop :=
  ∀ (policy : OvfPolicy) (mode : Rounding) (delay : List Sample) (st : StageRec) (before rest : List StageRec) (i clips : Nat)
    (x : Sample) (bq : Vector BqState 6),
    runStages policy mode delay [] i x bq clips = .out x bq clips ∧
    (∀ y clipped b, stageResult policy mode (stageShift st) (stageAcc st x delay (bqAt bq i)) = .out y clipped → i < 6 →
      b = stageState st x y (bqAt bq i) →
      runStages policy mode delay (st :: rest) i x bq clips = runStages policy mode delay rest (i + 1) y (bqSet bq i b)
        (if clipped = true ∧ clips < 65535 then clips + 1 else clips) ∧
      bqAt (bqSet bq i b) i = b ∧ ∀ k, k ≠ i → bqAt (bqSet bq i b) k = bqAt bq k) ∧
    (∀ k : Fin 6, bqAt bq k.val = bq[k.val]) ∧
    (stageResult policy mode (stageShift st) (stageAcc st x delay (bqAt bq i)) = .trapped →
      runStages policy mode delay (st :: rest) i x bq clips = .trapped i) ∧
    (∀ y bq' clips', runStages policy mode delay before i x bq clips = .out y bq' clips' →
      runStages policy mode delay (before ++ rest) i x bq clips =
        runStages policy mode delay rest (i + before.length) y bq' clips')

/-- Computing sample NEXT (R107 to R111). Reads are issued first, each of as many words as asked for, inside its input's
region and up to a 32-byte boundary, and RDNEXT moves past them. The sample waits for its words; it passes the stages of its
chain, or is mixed; the output goes to the stream's ring or into GATHER, which is written when it is due and not held by a
word that is still to be read; the last sample and a trap take the end. A sample's overflows are those of a finished sample
once it is written to its ring or its GATHER is issued (R97). The model's choices: a sample is one step (log 11); a store
address has 15 bits and wraps at 32768 (log 16); GATHER is held while any input region still has an unread word at one of
its addresses (log 33); the part of CLIPS that finished samples gave is a field of the model (log 38); the reads issued in
the step are an operand (log 4). -/
def Obligations.ComputeSampleRule : Prop :=
  (∀ (s : State) (reads : List ReadChoice), awake s →
    exec (.computeSample reads) s = exec (.computeSample []) (issueReads reads s)) ∧
  (∀ (s : State) (c : ReadChoice) (rest : List ReadChoice),
    issueReads [] s = s ∧ issueReads (c :: rest) s = issueReads rest (issueReads [c] s)) ∧
  (∀ (s : State) (pos : Nat) (h : Header) (j : JobRec) (c : ReadChoice), (s.queue s.dp.jobq).head = .data pos h j →
    (s.dp.st ≠ .compute ∨ j.data.inputs[c.input]? = none ∨ (∃ n, j.data.inputs[c.input]? = some (Endpoint.stream n)) →
      issueReads [c] s = s) ∧
    (∀ (a : Word) (inp : DpInput) (w : Nat), s.dp.st = .compute → j.data.inputs[c.input]? = some (Endpoint.memory a) → s.dp.inputs[c.input]? = some inp →
      w = min c.words (min ((a.toNat + 2 * j.data.n - inp.rdnext) / 2) ((32 - inp.rdnext % 32) / 2)) →
      (w = 0 → issueReads [c] s = s) ∧
      (w ≠ 0 → issueReads [c] s = { s with dp := { s.dp with
        reads := s.dp.reads ++ [{ input := c.input, addr := inp.rdnext, words := w }]
        inputs := s.dp.inputs.set c.input { inp with rdnext := inp.rdnext + 2 * w } } }))) ∧
  (∀ (s : State) (j : JobRec), (j.chainEnt = none → jobStages s j = []) ∧
    ∀ x, j.chainEnt = some x → jobStages s j = (s.entry x).stages) ∧
  (∀ (s : State) (j : JobRec) (xs : List Sample),
    (∀ addr context x, j.data.kind = .filter addr context → j.chainEnt = some x → computeOut s j xs =
      runStages j.data.policy j.data.rounding s.dp.delay (s.entry x).stages 0 (xs.headD 0) s.dp.bq s.dp.clips) ∧
    (∀ gains, j.data.kind = .mix gains → computeOut s j xs =
      runMix j.data.policy j.data.rounding gains xs s.dp.bq s.dp.clips)) ∧
  (∀ (s : State) (d : DataRec) (i : Nat) (xs : List Sample), s.dp.inputs.length = d.inputs.length →
    (inputSamples s d i = some xs ↔ xs.length = d.inputs.length ∧ ∀ (k : Nat) (inp : DpInput), s.dp.inputs[k]? = some inp →
      (∀ n, d.inputs[k]? = some (Endpoint.stream n) →
        xs[k]? = some (storeRead s.store (((s.stream n).base + ((s.stream n).rdpos + i) % (s.stream n).length) % 2 ^ 15))) ∧
      (∀ a, d.inputs[k]? = some (Endpoint.memory a) → xs[k]? = inp.words.lookup (a.toNat + 2 * i)))) ∧
  (∀ (s : State) (j : JobRec), wordsReady s j = true ↔
    inputSamples s j.data s.dp.next ≠ none ∧ (s.dp.next ≠ 0 ∨ ∀ x ∈ jobDelay s j, x ≠ none)) ∧
  (∀ (s : State) (j : JobRec) (e : Endpoint) (es : List Endpoint) (inp : DpInput) (inps : List DpInput) (x : Fin 8),
    j.data.inputs = e :: es → s.dp.inputs = inp :: inps → j.chainEnt = some x → jobDelay s j =
      (List.range (chainTaps (s.entry x).stages - 1)).map (fun k => match e with
        | .stream n => some (storeRead s.store (ringWord (s.stream n) ((s.stream n).rdpos + (s.stream n).length - (k + 1))))
        | .memory a => if a.toNat < 2 * (k + 1) then some 0 else inp.words.lookup (a.toNat - 2 * (k + 1)))) ∧
  (∀ (d : DataRec) (dp : Datapath), (gatherDue d dp = true ↔ dp.gather ≠ [] ∧ ∃ b, d.output = .memory b ∧
      (dp.gather.length = 16 ∨ (b.toNat + 2 * dp.next) % 32 = 0 ∨ dp.next = d.n)) ∧
    (dp.gather = [] ∨ (∃ n, d.output = .stream n) → issueGather d dp = dp) ∧
    (∀ b, d.output = .memory b → dp.gather ≠ [] → issueGather d dp = finishSamples d.monitor d.thresh dp.gather { dp with
      gather := []
      clipsDone := dp.clips
      writes := dp.writes ++ [{ addr := b.toNat + 2 * dp.finished, data := dp.gather }] })) ∧
  (∀ (s : State) (j : JobRec) (b : Word) (taps : Nat), j.data.output = .memory b → taps = chainTaps (jobStages s j) →
    (gatherHeld s j = true ↔ ∃ (k i : Nat) (a : Word) (inp : DpInput) (addr : Nat), k < s.dp.gather.length ∧ addr = b.toNat + 2 * (s.dp.finished + k) ∧
      j.data.inputs[i]? = some (Endpoint.memory a) ∧ s.dp.inputs[i]? = some inp ∧ inp.words.lookup addr = none ∧
      a.toNat - 2 * min (taps - 1) (a.toNat / 2) ≤ addr ∧ addr < a.toNat + 2 * j.data.n)) ∧
  (∀ (s : State) (pos : Nat) (h : Header) (j : JobRec), Computes s pos h j → gatherDue j.data s.dp = true →
    (gatherHeld s j = true → exec (.computeSample []) s = .next s) ∧
    (gatherHeld s j = false →
      exec (.computeSample []) s = exec (.computeSample []) { s with dp := issueGather j.data s.dp })) ∧
  ∀ (s : State) (pos : Nat) (h : Header) (j : JobRec), Computes s pos h j → gatherDue j.data s.dp = false →
    ∀ r : Host.Outcome State Fault Refusal, r = exec (.computeSample []) s →
    (wordsReady s j = false → r = .next s) ∧
    ∀ xs, wordsReady s j = true → inputSamples s j.data s.dp.next = some xs →
      (∀ stage, computeOut s j xs = .trapped stage → r = .next (settle { s with dp := { issueGather j.data s.dp with
        trapAt := some (stage, s.dp.next), endStat := .overflowTrap, st := .settle } })) ∧
      (∀ y bq clips dp, computeOut s j xs = .out y bq clips →
        dp = { s.dp with
          next := s.dp.next + 1
          bq := bq
          clips := clips
          delay := (xs.headD 0 :: s.dp.delay).take (chainTaps (jobStages s j) - 1) } →
        (∀ n u, j.data.output = .stream n →
          u = { s with
            store := storeWrite s.store (ringWord (s.stream n) ((s.stream n).wrpos + s.dp.next)) y
            dp := finishSample j.data.monitor j.data.thresh { dp with clipsDone := clips } y } →
          (s.dp.next + 1 ≠ j.data.n → r = .next u) ∧
          (s.dp.next + 1 = j.data.n → r = .next (settle { u with dp := { u.dp with endStat := .ok, st := .settle } }))) ∧
        (∀ b u, j.data.output = .memory b → u = { s with dp := { dp with gather := s.dp.gather ++ [y] } } →
          ∀ written : Datapath, written = finishSamples j.data.monitor j.data.thresh u.dp.gather { dp with
            gather := [], clipsDone := clips, writes := s.dp.writes ++ [{ addr := b.toNat + 2 * s.dp.finished, data := u.dp.gather }] } →
          (s.dp.next + 1 = j.data.n →
            r = .next (settle { u with dp := { written with endStat := .ok, st := .settle } })) ∧
          (s.dp.next + 1 ≠ j.data.n →
            (u.dp.gather.length ≠ Config.gatherMax → (b.toNat + 2 * (s.dp.next + 1)) % 32 ≠ 0 → r = .next u) ∧
            (u.dp.gather.length = Config.gatherMax ∨ (b.toNat + 2 * (s.dp.next + 1)) % 32 = 0 →
              (gatherHeld u j = true → r = .next u) ∧
              (gatherHeld u j = false → r = .next { u with dp := written })))))

/-- Answers to the datapath's accesses and the stop request (R108, R109, R112 to R115). In COMPUTE a read's words become
available, a held GATHER that is held no longer is written and further reads are issued; an error takes the end BUS_ERROR,
discards GATHER and takes its samples' overflows off CLIPS (R97), a stop request takes the end ABORTED and writes GATHER. In
SETTLE an answer only lowers its count, and a write's error turns an OK end into BUS_ERROR. A stop request that finds no job
computing is dropped. The model's choices: a stop request that no ABORT sent changes nothing (log 3); the reads issued in
the step are an operand (log 4); GATHER is held while any input region still has an unread word at one of its addresses (log
33); CLIPS is set back at the discard (log 38); the words a memory input's delay line lacks are held as 0 until they arrive
(log 22). -/
def Obligations.DatapathAnswersRule : Prop :=
  (∀ (s : State) (k : Nat) (a : DpRead) (data : List Byte) (dp : Datapath), awake s → s.dp.reads[k]? = some a →
    dp = { s.dp with reads := s.dp.reads.eraseIdx k } →
    (∀ reads, s.dp.st = .settle → data.length = 2 * a.words →
      exec (.dpReadAnswer k data reads) s = .next (settle { s with dp := dp })) ∧
    (s.dp.st = .settle → exec (.dpReadError k) s = .next (settle { s with dp := dp })) ∧
    (s.dp.st = .compute → exec (.dpReadError k) s = .next (settle { s with dp := { dp with
      gather := [], clips := s.dp.clipsDone, endStat := .busError, st := .settle } })) ∧
    (∀ pos h j inp u v reads, Computes s pos h j → data.length = 2 * a.words → s.dp.inputs[a.input]? = some inp →
      u = { s with dp := { dp with inputs := s.dp.inputs.set a.input { inp with
        words := inp.words ++ (List.range a.words).map (fun i => (a.addr + 2 * i, half data (2 * i))) } } } →
      (s.dp.next ≠ 0 → v = u) →
      (s.dp.next = 0 → v = { u with dp := { u.dp with delay := (jobDelay u j).map (fun x => x.getD 0) } }) →
      (gatherDue j.data v.dp = false ∨ gatherHeld v j = true →
        exec (.dpReadAnswer k data reads) s = .next (issueReads reads v)) ∧
      (gatherDue j.data v.dp = true → gatherHeld v j = false →
        exec (.dpReadAnswer k data reads) s = .next (issueReads reads { v with dp := issueGather j.data v.dp })))) ∧
  (∀ (s : State) (k : Nat) (w : DpWrite) (dp : Datapath), awake s → s.dp.writes[k]? = some w →
    dp = { s.dp with writes := s.dp.writes.eraseIdx k } →
    exec (.dpWriteAnswer k) s = .next (settle { s with dp := dp }) ∧
    (s.dp.st = .compute → exec (.dpWriteError k) s = .next (settle { s with dp := { dp with
      gather := [], clips := s.dp.clipsDone, endStat := .busError, st := .settle } })) ∧
    (s.dp.st = .settle → s.dp.endStat = .ok →
      exec (.dpWriteError k) s = .next (settle { s with dp := { dp with endStat := .busError } })) ∧
    (s.dp.st = .settle → s.dp.endStat ≠ .ok → exec (.dpWriteError k) s = .next (settle { s with dp := dp }))) ∧
  ∀ (s : State), awake s →
    (s.stopReq = false → exec .stopRequest s = .next s) ∧
    (s.dp.st ≠ .compute → exec .stopRequest s = .next { s with stopReq := false }) ∧
    ∀ pos h j, Computes s pos h j → s.stopReq = true → s.dp.endStat = .none →
      (s.dp.gather = [] → exec .stopRequest s = .next (settle { s with
        stopReq := false
        dp := { s.dp with endStat := .aborted, st := .settle } })) ∧
      (∀ b, j.data.output = .memory b → s.dp.gather ≠ [] → exec .stopRequest s = .next (settle { s with
        stopReq := false
        dp := { finishSamples j.data.monitor j.data.thresh s.dp.gather { s.dp with
            gather := []
            clipsDone := s.dp.clips
            writes := s.dp.writes ++ [{ addr := b.toNat + 2 * s.dp.finished, data := s.dp.gather }] } with
          endStat := .aborted, st := .settle } }))

/-- The end of a job (R115, R120 to R124): with no access outstanding in SETTLE the streams are committed (OK) or released,
the context is written (OK) or let go, the use of the chain entry ends, the completion is handed over with the measures of
the job, an ABORT that waited completes OK, and a DRAINING engine at rest becomes HALTED. The model's choices: a stop
request still on its way is dropped (log 12). -/
def Obligations.EndOfJobRule : Prop :=
  (∀ s : State, s.dp.st ≠ .settle ∨ s.dp.reads ≠ [] ∨ s.dp.writes ≠ [] → settle s = s) ∧
  (∀ (s : State) (d : DataRec), streamInputs d =
      d.inputs.filterMap (fun e => match e with | .stream n => some n | .memory _ => none) ∧
    jobContext d = (match d.kind with | .filter _ c => c | .mix _ => none) ∧
    commitStreams d s =
      { s with streams := (commitStreams d s).streams, notices := (commitStreams d s).notices } ∧
    releaseStreams d s = { s with streams := (releaseStreams d s).streams, notices := (releaseStreams d s).notices }) ∧
  (∀ (s : State) (d : DataRec), (streamInputs d).Nodup → ∀ n : Fin 48,
    ((commitStreams d s).stream n) = { s.stream n with
      rdpos := if n ∈ streamInputs d then ((s.stream n).rdpos + d.n) % (s.stream n).length else (s.stream n).rdpos
      wrpos := if d.output = .stream n then ((s.stream n).wrpos + d.n) % (s.stream n).length else (s.stream n).wrpos
      fill := (if n ∈ streamInputs d then (s.stream n).fill - d.n else (s.stream n).fill) +
        (if d.output = .stream n then d.n else 0)
      claimed := if n ∈ streamInputs d ∨ d.output = .stream n then false else (s.stream n).claimed } ∧
    ((releaseStreams d s).stream n) = { s.stream n with
      claimed := if n ∈ streamInputs d ∨ d.output = .stream n then false else (s.stream n).claimed } ∧
    (commitStreams d s).notices = s.notices ++ namedStreams d ∧ (releaseStreams d s).notices = s.notices ++ namedStreams d ∧
    (∀ m, m ∈ namedStreams d ↔ m ∈ streamInputs d ∨ d.output = .stream m) ∧ (namedStreams d).Nodup) ∧
  ∀ (s : State) (pos : Nat) (h : Header) (j : JobRec) (q : Fin 4) (u v w : State) (c : CqRec), s.dp.st = .settle →
    s.dp.reads = [] → s.dp.writes = [] → q = s.dp.jobq → (s.queue q).head = .data pos h j →
    u = (if s.dp.endStat = .ok then commitStreams j.data { s with dp := Datapath.idle, stopReq := false }
      else releaseStreams j.data { s with dp := Datapath.idle, stopReq := false }) →
    (jobContext j.data = none → v = u) →
    (∀ k, jobContext j.data = some k →
      (s.dp.endStat = .ok →
        v = u.setContext k { binding := j.chainEnt.map (fun x => (s.entry x).addr), sstate := s.dp.bq, held := false }) ∧
      (s.dp.endStat ≠ .ok → v = u.setContext k { s.context k with held := false })) →
    (j.chainEnt = none → w = v) →
    (∀ x, j.chainEnt = some x →
      w = v.setEntry x (if (s.entry x).stale = true then Entry.free else { s.entry x with inuse := false })) →
    (∀ st, (s.dp.endStat = .ok ∧ st = .ok ∨ s.dp.endStat = .busError ∧ st = .busError ∨
        s.dp.endStat = .aborted ∧ st = .aborted ∨ s.dp.endStat = .overflowTrap ∧ st = .overflowTrap) →
      c = { completion s q h st with
        chainHit := j.chainHit
        ctxReset := j.ctxReset
        waited := j.waited
        count := s.dp.finished
        clips := s.dp.clips
        peak := s.dp.peak
        peakIdx := s.dp.peakIdx
        overCnt := s.dp.overCnt
        detail := match s.dp.endStat, s.dp.trapAt with
          | .overflowTrap, some at_ => .trap at_.1 at_.2
          | _, _ => .none } →
      ((∀ a, s.cu.work ≠ some (.abortWait a q)) → settle s = checkDrain (completeHead q c w)) ∧
      (∀ a apos ah abody ast, a ≠ q → s.cu.work = some (.abortWait a q) →
        (s.queue a).head = .control apos ah abody ast → settle s = checkDrain (completeHead a (completion s a ah .ok)
          { completeHead q c w with cu := { s.cu with work := none } })))

/-! ### Streams and the frame ports -/

/-- A port's append and take (R6, R7, R9, R10): a sample is appended while there is free space, and otherwise the overrun is
counted and the new or the oldest sample dropped by the stream's policy; the oldest sample is taken, or IDLE on an underrun,
which is counted; the first overrun or underrun since the stream was armed raises its event. A word written to the store
reads as written, and every other word as before (the store's form is the model's own, INVENTORY). The model's choices: a
store address has 15 bits and wraps at 32768, which a ring inside the store never does (log 16). -/
def Obligations.AppendAndTakeRule : Prop :=
  (∀ (m : Store) (a b : Nat) (v : Sample), storeWf m = true →
    storeRead (storeWrite m a v) b = if b = a then v else storeRead m b) ∧
  (∀ (r : StreamRec) (pos : Nat), ringWord r pos = (r.base + pos % r.length) % 32768) ∧
  ∀ (s : State) (n : Fin 48) (frame : Word) (x : Sample) (r : StreamRec), r = s.stream n →
    (r.fill + r.hist < r.length → portAppend n frame x s =
      { s with store := storeWrite s.store (ringWord r r.wrpos) x, notices := s.notices ++ [n] }.setStream n
        { r with wrpos := (r.wrpos + 1) % r.length, fill := r.fill + 1, stamp := frame }) ∧
    (r.length ≤ r.fill + r.hist → ∀ (d : StreamRec) (u : State) (reason : EvReason),
      d = { r with ovrcnt := if r.ovrcnt < 65535 then r.ovrcnt + 1 else r.ovrcnt, stamp := frame, ovrarm := false } →
      (r.policy = .dropNew → u = s.setStream n d ∧ reason = .newDropped) →
      (r.policy = .dropOld → r.claimed = true → u = s.setStream n d ∧ reason = .newDroppedClaimed) →
      (r.policy = .dropOld → r.claimed = false → reason = .oldDropped ∧
        u = { s with store := storeWrite s.store (ringWord r r.wrpos) x }.setStream n
          { d with rdpos := (r.rdpos + 1) % r.length, wrpos := (r.wrpos + 1) % r.length }) →
      portAppend n frame x s = if r.ovrarm then raiseEvent u .streamOverrun n.val reason else u) ∧
    (1 ≤ r.fill → takeSample s n = storeRead s.store (ringWord r r.rdpos) ∧ portTake n frame s =
      { s with notices := s.notices ++ [n] }.setStream n
        { r with rdpos := (r.rdpos + 1) % r.length, fill := r.fill - 1, stamp := frame }) ∧
    (r.fill = 0 → takeSample s n = r.idle ∧ ∀ u : State, u = s.setStream n
        { r with undcnt := if r.undcnt < 65535 then r.undcnt + 1 else r.undcnt, stamp := frame, undarm := false } →
      portTake n frame s = if r.undarm then raiseEvent u .streamUnderrun n.val .empty else u)

/-- The frame event (R138), taken wherever it is due: takes, appends, pending changes and releases in slot order 0 to 31, the
frame counter at its old value in every stamp, then FCOUNT rises, MISS follows the boundary's sync mark and the boundary's bit
goes into RXWORD 0. A slot whose current binding is transmit makes the port take of its stream. TXHOLD
holds the sample taken for each slot with a TX binding and is absent for the others. A slot's pending change becomes current
and its mirror follows. The model's choices: the boundary's bit is shifted in by the event (log 6). -/
def Obligations.FrameEventRule : Prop :=
  (∀ (s t : State) (p : PortId) (mark : Bool), awake s → (s.port p).due = some (.frame mark) →
    t = applySlots p slotIds (appendSlots p (s.port p).fcount slotIds (takeSlots p (s.port p).fcount slotIds s)) →
    exec (.frameEvent p) s = .next (releaseParked (pendingQueues (s.port p)) (t.setPort p
      (shiftBit { t.port p with fcount := (s.port p).fcount + 1, miss := !mark, due := none })))) ∧
  (∀ (s : State) (p : PortId) (mark : Bool), awake s → (s.port p).due = some (.frame mark) →
    (∀ j : Fin 32, (s.port p).slot j = Slot.free) → exec (.frameEvent p) s = .next (s.setPort p (shiftBit { s.port p with
      txhold := Vector.replicate 32 none, fcount := (s.port p).fcount + 1, miss := !mark, due := none }))) ∧
  (∀ (s : State) (p : PortId) (frame : Word) (j : Fin 32),
    (∀ i k n, slotStream (s.port p) .tx i = some n → slotStream (s.port p) .tx k = some n → i = k) →
    ((takeSlots p frame slotIds s).port p).txhold[j.val] = (slotStream (s.port p) .tx j).map (takeSample s)) ∧
  slotIds.map Fin.val = List.range 32 ∧
  (∀ (p : PortId) (frame : Word) (slots : List (Fin 32)) (s : State),
    takeSlots p frame slots s = slots.foldl (fun x j => takeSlot p frame j x) s ∧
    appendSlots p frame slots s = slots.foldl (fun x j => appendSlot p frame j x) s ∧
    applySlots p slots s = slots.foldl (fun x j => applySlot p j x) s) ∧
  (∀ (r : PortRec) (dir : Dir) (j : Fin 32) (n : Fin 48),
    slotStream r dir j = some n ↔ (r.slot j).current = some (dir, n) ∧ j.val < r.slots) ∧
  (∀ (s : State) (p : PortId) (frame : Word) (j : Fin 32),
    (∀ n, slotStream (s.port p) .tx j = some n → takeSlot p frame j s = (portTake n frame s).setPort p
      { s.port p with txhold := (s.port p).txhold.set j.val (some (takeSample s n)) }) ∧
    (slotStream (s.port p) .tx j = none → takeSlot p frame j s = s.setPort p
      { s.port p with txhold := (s.port p).txhold.set j.val none })) ∧
  (∀ (s : State) (p : PortId) (frame : Word) (j : Fin 32), appendSlot p frame j s =
    match slotStream (s.port p) .rx j with
    | some n => portAppend n frame (s.port p).rxword[j.val] s
    | none => s) ∧
  (∀ (s : State) (p : PortId) (j : Fin 32) (dir : Dir) (n : Fin 48) (q : Fin 4),
    ((s.port p).slot j = { current := none, pending := none } → applySlot p j s = s) ∧
    ((s.port p).slot j = { current := none, pending := some (.bind dir n q) } → applySlot p j s =
      setMirror n dir (some ⟨p, j, .current⟩)
        (s.setPort p ((s.port p).setSlot j { current := some (dir, n), pending := none }))) ∧
    ((s.port p).slot j = { current := some (dir, n), pending := some (.unbind q) } → applySlot p j s =
      setMirror n dir none (s.setPort p ((s.port p).setSlot j { current := none, pending := none })))) ∧
  (∀ r : PortRec, pendingQueues r = slotIds.filterMap (fun j => (r.slot j).pending.map (fun x => match x with
    | .bind _ _ q => q
    | .unbind q => q))) ∧
  ∀ (s : State) (q : Fin 4) (rest : List (Fin 4)) (pos : Nat) (h : Header) (p : PortId) (j : Fin 32) (action : BindAction),
    releaseParked [] s = s ∧
    ((s.queue q).head = .control pos h (.bindSlot p j action) .parked →
      releaseParked (q :: rest) s = releaseParked rest (completeHead q (completion s q h .ok) s))

/-- Bit clocks and the other line events (R128 to R136, R139, R140). A line event due from the clock before is taken first.
A HUNTING port looks for two sync marks one frame apart; a LOCKED port moves its bit position, shifts its bit in, and finds
its frame events and losses. The lock event makes the first takes and raises PORT_LOCKED; the loss event silences the port,
raises PORT_SYNC_LOST and releases what was pending. A master drives FxCLK, and FxSYNC high at bit position 0; the other
ports drive neither (R129). The model's choices: a line event is its own command, due until it is taken (log 6); a master's
first bit clock is that of position 0 of its first frame (log 7). -/
def Obligations.LineEventsRule : Prop :=
  (∀ (s : State) (p : PortId) (r : PortRec), awake s → r = s.port p →
    (r.due = some .huntMark →
      exec (.huntSyncMark p) s = .next (s.setPort p { r with candidate := some 0, due := none })) ∧
    (r.due = some .drop → exec (.candidateDrop p) s = .next (s.setPort p { r with candidate := none, due := none })) ∧
    (r.due = some .lock → ∀ u, u = takeSlots p r.fcount slotIds (s.setPort p
        { r with lock := .locked, bitpos := 0, miss := false, candidate := none, due := none }) →
      exec (.lockEvent p) s = .next (raiseEvent (u.setPort p (shiftBit (u.port p))) .portLocked (portCode p) .none)) ∧
    (∀ reason, r.due = some (.loss reason) → exec (.lossEvent p) s = .next (releaseParked (pendingQueues r)
      (applySlots p slotIds (raiseEvent (s.setPort p { r with
          lock := .hunting
          miss := false
          candidate := if reason = .misplaced then some 0 else none
          txhold := Vector.replicate 32 none
          due := none }) .portSyncLost (portCode p) (if reason = .misplaced then .misplaced else .missing)))))) ∧
  (∀ (s t : State) (p : PortId) (din sync : Bool) (d : LineDue), awake s → (s.port p).due = some d → t = takeLineEvent p d s →
    exec (.bitClock p din sync) s = exec (.bitClock p din sync) t) ∧
  (∀ (s : State) (p : PortId) (d : LineDue), awake s → (s.port p).due = some d → .next (takeLineEvent p d s) = exec (match d with
    | .frame _ => .frameEvent p
    | .huntMark => .huntSyncMark p
    | .drop => .candidateDrop p
    | .lock => .lockEvent p
    | .loss _ => .lossEvent p) s) ∧
  (∀ (s : State) (p : PortId) (din sync : Bool) (r r' : PortRec) (mark : Bool), awake s → r = s.port p → r.due = none →
    mark = (sync && !r.sync) →
    (r.lock = .off → exec (.bitClock p din sync) s = .next s) ∧
    (r.lock = .hunting → r' = { r with sync := sync, din := din, candidate := r.candidate.map (· + 1) } →
      exec (.bitClock p din sync) s = .next (s.setPort p { r' with due := (
        if mark = true then (if r'.candidate = some (16 * r.slots) then some .lock else some .huntMark)
        else if r'.candidate = some (16 * r.slots) then some .drop else none) })) ∧
    (r.lock = .locked → r.mode = .master →
      (r.opening = true → exec (.bitClock p din sync) s =
        .next (s.setPort p (shiftBit { r with din := din, opening := false }))) ∧
      (r.opening = false → r.bitpos + 1 < 16 * r.slots → exec (.bitClock p din sync) s =
        .next (s.setPort p (shiftBit { r with din := din, bitpos := r.bitpos + 1 }))) ∧
      (r.opening = false → 16 * r.slots ≤ r.bitpos + 1 → exec (.bitClock p din sync) s =
        .next (s.setPort p { r with din := din, bitpos := 0, due := some (.frame true) }))) ∧
    (r.lock = .locked → r.mode ≠ .master → r' = { r with sync := sync, din := din } →
      (r.bitpos + 1 < 16 * r.slots → mark = false → exec (.bitClock p din sync) s =
        .next (s.setPort p (shiftBit { r' with bitpos := r.bitpos + 1 }))) ∧
      (r.bitpos + 1 < 16 * r.slots → mark = true → exec (.bitClock p din sync) s =
        .next (s.setPort p { r' with bitpos := r.bitpos + 1, due := some (.loss .misplaced) })) ∧
      (16 * r.slots ≤ r.bitpos + 1 → exec (.bitClock p din sync) s = .next (s.setPort p { r' with
        bitpos := 0
        due := (if mark = true then some (.frame true)
          else if r.miss = true then some (.loss .missing) else some (.frame false)) })))) ∧
  (∀ r : PortRec, (portDrivesClock r = true ↔ r.mode = .master) ∧
    (r.mode = .master → portSyncOut r = some (decide (r.bitpos = 0))) ∧ (r.mode ≠ .master → portSyncOut r = none)) ∧
  ∀ (r : PortRec) (j : Fin 32), r.bitpos / 16 = j.val →
    shiftBit r = { r with rxword := r.rxword.set j.val ((r.rxword[j.val]).extractLsb' 0 15 ++ BitVec.ofBool r.din) } ∧
    (r.lock ≠ .locked → portDout r = none) ∧
    (r.lock = .locked → portDout r = (r.txhold[j.val]).map (fun x => x.getLsbD (15 - r.bitpos % 16)))
end

