-- ==== Sys2Proof/Laws/State.lean ====
section
/-! SUPPORT. The fields of the state after each named update, and reading back what was replaced. -/

namespace Sys2Proof.Machine

open Sys2Proof

/-! ### Replacing a queue record -/

@[simp] theorem State.setQueue_pending (s : State) (q : Fin 4) (r : QueueRec) : (s.setQueue q r).pending = s.pending := rfl
@[simp] theorem State.setQueue_eng (s : State) (q : Fin 4) (r : QueueRec) : (s.setQueue q r).eng = s.eng := rfl
@[simp] theorem State.setQueue_irqPend (s : State) (q : Fin 4) (r : QueueRec) : (s.setQueue q r).irqPend = s.irqPend := rfl
@[simp] theorem State.setQueue_irqMask (s : State) (q : Fin 4) (r : QueueRec) : (s.setQueue q r).irqMask = s.irqMask := rfl
@[simp] theorem State.setQueue_waitList (s : State) (q : Fin 4) (r : QueueRec) : (s.setQueue q r).waitList = s.waitList := rfl
@[simp] theorem State.setQueue_turn (s : State) (q : Fin 4) (r : QueueRec) : (s.setQueue q r).turn = s.turn := rfl
@[simp] theorem State.setQueue_credit (s : State) (q : Fin 4) (r : QueueRec) : (s.setQueue q r).credit = s.credit := rfl
@[simp] theorem State.setQueue_notices (s : State) (q : Fin 4) (r : QueueRec) : (s.setQueue q r).notices = s.notices := rfl
@[simp] theorem State.setQueue_cu (s : State) (q : Fin 4) (r : QueueRec) : (s.setQueue q r).cu = s.cu := rfl
@[simp] theorem State.setQueue_cache (s : State) (q : Fin 4) (r : QueueRec) : (s.setQueue q r).cache = s.cache := rfl
@[simp] theorem State.setQueue_contexts (s : State) (q : Fin 4) (r : QueueRec) : (s.setQueue q r).contexts = s.contexts := rfl
@[simp] theorem State.setQueue_dp (s : State) (q : Fin 4) (r : QueueRec) : (s.setQueue q r).dp = s.dp := rfl
@[simp] theorem State.setQueue_stopReq (s : State) (q : Fin 4) (r : QueueRec) : (s.setQueue q r).stopReq = s.stopReq := rfl
@[simp] theorem State.setQueue_streams (s : State) (q : Fin 4) (r : QueueRec) : (s.setQueue q r).streams = s.streams := rfl
@[simp] theorem State.setQueue_store (s : State) (q : Fin 4) (r : QueueRec) : (s.setQueue q r).store = s.store := rfl
@[simp] theorem State.setQueue_portA (s : State) (q : Fin 4) (r : QueueRec) : (s.setQueue q r).portA = s.portA := rfl
@[simp] theorem State.setQueue_portB (s : State) (q : Fin 4) (r : QueueRec) : (s.setQueue q r).portB = s.portB := rfl
@[simp] theorem State.setQueue_cq (s : State) (q : Fin 4) (r : QueueRec) : (s.setQueue q r).cq = s.cq := rfl
@[simp] theorem State.setQueue_stale (s : State) (q : Fin 4) (r : QueueRec) : (s.setQueue q r).stale = s.stale := rfl

/-! ### Replacing a stream record -/

@[simp] theorem State.setStream_pending (s : State) (n : Fin 48) (r : StreamRec) : (s.setStream n r).pending = s.pending := rfl
@[simp] theorem State.setStream_eng (s : State) (n : Fin 48) (r : StreamRec) : (s.setStream n r).eng = s.eng := rfl
@[simp] theorem State.setStream_irqPend (s : State) (n : Fin 48) (r : StreamRec) : (s.setStream n r).irqPend = s.irqPend := rfl
@[simp] theorem State.setStream_irqMask (s : State) (n : Fin 48) (r : StreamRec) : (s.setStream n r).irqMask = s.irqMask := rfl
@[simp] theorem State.setStream_queues (s : State) (n : Fin 48) (r : StreamRec) : (s.setStream n r).queues = s.queues := rfl
@[simp] theorem State.setStream_waitList (s : State) (n : Fin 48) (r : StreamRec) : (s.setStream n r).waitList = s.waitList := rfl
@[simp] theorem State.setStream_turn (s : State) (n : Fin 48) (r : StreamRec) : (s.setStream n r).turn = s.turn := rfl
@[simp] theorem State.setStream_credit (s : State) (n : Fin 48) (r : StreamRec) : (s.setStream n r).credit = s.credit := rfl
@[simp] theorem State.setStream_notices (s : State) (n : Fin 48) (r : StreamRec) : (s.setStream n r).notices = s.notices := rfl
@[simp] theorem State.setStream_cu (s : State) (n : Fin 48) (r : StreamRec) : (s.setStream n r).cu = s.cu := rfl
@[simp] theorem State.setStream_cache (s : State) (n : Fin 48) (r : StreamRec) : (s.setStream n r).cache = s.cache := rfl
@[simp] theorem State.setStream_contexts (s : State) (n : Fin 48) (r : StreamRec) : (s.setStream n r).contexts = s.contexts := rfl
@[simp] theorem State.setStream_dp (s : State) (n : Fin 48) (r : StreamRec) : (s.setStream n r).dp = s.dp := rfl
@[simp] theorem State.setStream_stopReq (s : State) (n : Fin 48) (r : StreamRec) : (s.setStream n r).stopReq = s.stopReq := rfl
@[simp] theorem State.setStream_store (s : State) (n : Fin 48) (r : StreamRec) : (s.setStream n r).store = s.store := rfl
@[simp] theorem State.setStream_portA (s : State) (n : Fin 48) (r : StreamRec) : (s.setStream n r).portA = s.portA := rfl
@[simp] theorem State.setStream_portB (s : State) (n : Fin 48) (r : StreamRec) : (s.setStream n r).portB = s.portB := rfl
@[simp] theorem State.setStream_cq (s : State) (n : Fin 48) (r : StreamRec) : (s.setStream n r).cq = s.cq := rfl
@[simp] theorem State.setStream_stale (s : State) (n : Fin 48) (r : StreamRec) : (s.setStream n r).stale = s.stale := rfl

/-! ### Replacing a context -/

@[simp] theorem State.setContext_pending (s : State) (c : Fin 32) (x : Context) : (s.setContext c x).pending = s.pending := rfl
@[simp] theorem State.setContext_eng (s : State) (c : Fin 32) (x : Context) : (s.setContext c x).eng = s.eng := rfl
@[simp] theorem State.setContext_irqPend (s : State) (c : Fin 32) (x : Context) : (s.setContext c x).irqPend = s.irqPend := rfl
@[simp] theorem State.setContext_irqMask (s : State) (c : Fin 32) (x : Context) : (s.setContext c x).irqMask = s.irqMask := rfl
@[simp] theorem State.setContext_queues (s : State) (c : Fin 32) (x : Context) : (s.setContext c x).queues = s.queues := rfl
@[simp] theorem State.setContext_waitList (s : State) (c : Fin 32) (x : Context) : (s.setContext c x).waitList = s.waitList := rfl
@[simp] theorem State.setContext_turn (s : State) (c : Fin 32) (x : Context) : (s.setContext c x).turn = s.turn := rfl
@[simp] theorem State.setContext_credit (s : State) (c : Fin 32) (x : Context) : (s.setContext c x).credit = s.credit := rfl
@[simp] theorem State.setContext_notices (s : State) (c : Fin 32) (x : Context) : (s.setContext c x).notices = s.notices := rfl
@[simp] theorem State.setContext_cu (s : State) (c : Fin 32) (x : Context) : (s.setContext c x).cu = s.cu := rfl
@[simp] theorem State.setContext_cache (s : State) (c : Fin 32) (x : Context) : (s.setContext c x).cache = s.cache := rfl
@[simp] theorem State.setContext_dp (s : State) (c : Fin 32) (x : Context) : (s.setContext c x).dp = s.dp := rfl
@[simp] theorem State.setContext_stopReq (s : State) (c : Fin 32) (x : Context) : (s.setContext c x).stopReq = s.stopReq := rfl
@[simp] theorem State.setContext_streams (s : State) (c : Fin 32) (x : Context) : (s.setContext c x).streams = s.streams := rfl
@[simp] theorem State.setContext_store (s : State) (c : Fin 32) (x : Context) : (s.setContext c x).store = s.store := rfl
@[simp] theorem State.setContext_portA (s : State) (c : Fin 32) (x : Context) : (s.setContext c x).portA = s.portA := rfl
@[simp] theorem State.setContext_portB (s : State) (c : Fin 32) (x : Context) : (s.setContext c x).portB = s.portB := rfl
@[simp] theorem State.setContext_cq (s : State) (c : Fin 32) (x : Context) : (s.setContext c x).cq = s.cq := rfl
@[simp] theorem State.setContext_stale (s : State) (c : Fin 32) (x : Context) : (s.setContext c x).stale = s.stale := rfl

/-! ### Replacing a cache entry -/

@[simp] theorem State.setEntry_pending (s : State) (e : Fin 8) (x : Entry) : (s.setEntry e x).pending = s.pending := rfl
@[simp] theorem State.setEntry_eng (s : State) (e : Fin 8) (x : Entry) : (s.setEntry e x).eng = s.eng := rfl
@[simp] theorem State.setEntry_irqPend (s : State) (e : Fin 8) (x : Entry) : (s.setEntry e x).irqPend = s.irqPend := rfl
@[simp] theorem State.setEntry_irqMask (s : State) (e : Fin 8) (x : Entry) : (s.setEntry e x).irqMask = s.irqMask := rfl
@[simp] theorem State.setEntry_queues (s : State) (e : Fin 8) (x : Entry) : (s.setEntry e x).queues = s.queues := rfl
@[simp] theorem State.setEntry_waitList (s : State) (e : Fin 8) (x : Entry) : (s.setEntry e x).waitList = s.waitList := rfl
@[simp] theorem State.setEntry_turn (s : State) (e : Fin 8) (x : Entry) : (s.setEntry e x).turn = s.turn := rfl
@[simp] theorem State.setEntry_credit (s : State) (e : Fin 8) (x : Entry) : (s.setEntry e x).credit = s.credit := rfl
@[simp] theorem State.setEntry_notices (s : State) (e : Fin 8) (x : Entry) : (s.setEntry e x).notices = s.notices := rfl
@[simp] theorem State.setEntry_cu (s : State) (e : Fin 8) (x : Entry) : (s.setEntry e x).cu = s.cu := rfl
@[simp] theorem State.setEntry_contexts (s : State) (e : Fin 8) (x : Entry) : (s.setEntry e x).contexts = s.contexts := rfl
@[simp] theorem State.setEntry_dp (s : State) (e : Fin 8) (x : Entry) : (s.setEntry e x).dp = s.dp := rfl
@[simp] theorem State.setEntry_stopReq (s : State) (e : Fin 8) (x : Entry) : (s.setEntry e x).stopReq = s.stopReq := rfl
@[simp] theorem State.setEntry_streams (s : State) (e : Fin 8) (x : Entry) : (s.setEntry e x).streams = s.streams := rfl
@[simp] theorem State.setEntry_store (s : State) (e : Fin 8) (x : Entry) : (s.setEntry e x).store = s.store := rfl
@[simp] theorem State.setEntry_portA (s : State) (e : Fin 8) (x : Entry) : (s.setEntry e x).portA = s.portA := rfl
@[simp] theorem State.setEntry_portB (s : State) (e : Fin 8) (x : Entry) : (s.setEntry e x).portB = s.portB := rfl
@[simp] theorem State.setEntry_cq (s : State) (e : Fin 8) (x : Entry) : (s.setEntry e x).cq = s.cq := rfl
@[simp] theorem State.setEntry_stale (s : State) (e : Fin 8) (x : Entry) : (s.setEntry e x).stale = s.stale := rfl

/-! ### Replacing a port record -/

@[simp] theorem State.setPort_pending (s : State) (p : PortId) (r : PortRec) : (s.setPort p r).pending = s.pending := by cases p <;> rfl
@[simp] theorem State.setPort_eng (s : State) (p : PortId) (r : PortRec) : (s.setPort p r).eng = s.eng := by cases p <;> rfl
@[simp] theorem State.setPort_irqPend (s : State) (p : PortId) (r : PortRec) : (s.setPort p r).irqPend = s.irqPend := by cases p <;> rfl
@[simp] theorem State.setPort_irqMask (s : State) (p : PortId) (r : PortRec) : (s.setPort p r).irqMask = s.irqMask := by cases p <;> rfl
@[simp] theorem State.setPort_queues (s : State) (p : PortId) (r : PortRec) : (s.setPort p r).queues = s.queues := by cases p <;> rfl
@[simp] theorem State.setPort_waitList (s : State) (p : PortId) (r : PortRec) : (s.setPort p r).waitList = s.waitList := by cases p <;> rfl
@[simp] theorem State.setPort_turn (s : State) (p : PortId) (r : PortRec) : (s.setPort p r).turn = s.turn := by cases p <;> rfl
@[simp] theorem State.setPort_credit (s : State) (p : PortId) (r : PortRec) : (s.setPort p r).credit = s.credit := by cases p <;> rfl
@[simp] theorem State.setPort_notices (s : State) (p : PortId) (r : PortRec) : (s.setPort p r).notices = s.notices := by cases p <;> rfl
@[simp] theorem State.setPort_cu (s : State) (p : PortId) (r : PortRec) : (s.setPort p r).cu = s.cu := by cases p <;> rfl
@[simp] theorem State.setPort_cache (s : State) (p : PortId) (r : PortRec) : (s.setPort p r).cache = s.cache := by cases p <;> rfl
@[simp] theorem State.setPort_contexts (s : State) (p : PortId) (r : PortRec) : (s.setPort p r).contexts = s.contexts := by cases p <;> rfl
@[simp] theorem State.setPort_dp (s : State) (p : PortId) (r : PortRec) : (s.setPort p r).dp = s.dp := by cases p <;> rfl
@[simp] theorem State.setPort_stopReq (s : State) (p : PortId) (r : PortRec) : (s.setPort p r).stopReq = s.stopReq := by cases p <;> rfl
@[simp] theorem State.setPort_streams (s : State) (p : PortId) (r : PortRec) : (s.setPort p r).streams = s.streams := by cases p <;> rfl
@[simp] theorem State.setPort_store (s : State) (p : PortId) (r : PortRec) : (s.setPort p r).store = s.store := by cases p <;> rfl
@[simp] theorem State.setPort_cq (s : State) (p : PortId) (r : PortRec) : (s.setPort p r).cq = s.cq := by cases p <;> rfl
@[simp] theorem State.setPort_stale (s : State) (p : PortId) (r : PortRec) : (s.setPort p r).stale = s.stale := by cases p <;> rfl

/-! ### Replacing a head -/

@[simp] theorem State.setHead_pending (s : State) (q : Fin 4) (h : Head) : (s.setHead q h).pending = s.pending := rfl
@[simp] theorem State.setHead_eng (s : State) (q : Fin 4) (h : Head) : (s.setHead q h).eng = s.eng := rfl
@[simp] theorem State.setHead_irqPend (s : State) (q : Fin 4) (h : Head) : (s.setHead q h).irqPend = s.irqPend := rfl
@[simp] theorem State.setHead_irqMask (s : State) (q : Fin 4) (h : Head) : (s.setHead q h).irqMask = s.irqMask := rfl
@[simp] theorem State.setHead_waitList (s : State) (q : Fin 4) (h : Head) : (s.setHead q h).waitList = s.waitList := rfl
@[simp] theorem State.setHead_turn (s : State) (q : Fin 4) (h : Head) : (s.setHead q h).turn = s.turn := rfl
@[simp] theorem State.setHead_credit (s : State) (q : Fin 4) (h : Head) : (s.setHead q h).credit = s.credit := rfl
@[simp] theorem State.setHead_notices (s : State) (q : Fin 4) (h : Head) : (s.setHead q h).notices = s.notices := rfl
@[simp] theorem State.setHead_cu (s : State) (q : Fin 4) (h : Head) : (s.setHead q h).cu = s.cu := rfl
@[simp] theorem State.setHead_cache (s : State) (q : Fin 4) (h : Head) : (s.setHead q h).cache = s.cache := rfl
@[simp] theorem State.setHead_contexts (s : State) (q : Fin 4) (h : Head) : (s.setHead q h).contexts = s.contexts := rfl
@[simp] theorem State.setHead_dp (s : State) (q : Fin 4) (h : Head) : (s.setHead q h).dp = s.dp := rfl
@[simp] theorem State.setHead_stopReq (s : State) (q : Fin 4) (h : Head) : (s.setHead q h).stopReq = s.stopReq := rfl
@[simp] theorem State.setHead_streams (s : State) (q : Fin 4) (h : Head) : (s.setHead q h).streams = s.streams := rfl
@[simp] theorem State.setHead_store (s : State) (q : Fin 4) (h : Head) : (s.setHead q h).store = s.store := rfl
@[simp] theorem State.setHead_portA (s : State) (q : Fin 4) (h : Head) : (s.setHead q h).portA = s.portA := rfl
@[simp] theorem State.setHead_portB (s : State) (q : Fin 4) (h : Head) : (s.setHead q h).portB = s.portB := rfl
@[simp] theorem State.setHead_cq (s : State) (q : Fin 4) (h : Head) : (s.setHead q h).cq = s.cq := rfl
@[simp] theorem State.setHead_stale (s : State) (q : Fin 4) (h : Head) : (s.setHead q h).stale = s.stale := rfl

/-! ### The parts of the cache after an entry is replaced -/

@[simp] theorem State.setEntry_cache_lru (s : State) (e : Fin 8) (x : Entry) : (s.setEntry e x).cache.lru = s.cache.lru := rfl
@[simp] theorem State.setEntry_cache_reqs (s : State) (e : Fin 8) (x : Entry) : (s.setEntry e x).cache.reqs = s.cache.reqs := rfl
@[simp] theorem State.setEntry_cache_fill (s : State) (e : Fin 8) (x : Entry) : (s.setEntry e x).cache.fill = s.cache.fill := rfl

/-! ### Reading back -/


theorem State.queue_setQueue (s : State) (q k : Fin 4) (r : QueueRec) :
    (s.setQueue q r).queue k = if k = q then r else s.queue k := by
  by_cases h : k = q
  · subst h; simp [State.queue, State.setQueue]
  · have h' : q.val ≠ k.val := fun e => h (Fin.ext e.symm)
    simp [State.queue, State.setQueue, h, Vector.getElem_set_ne, h']

@[simp] theorem State.queue_setQueue_self (s : State) (q : Fin 4) (r : QueueRec) : (s.setQueue q r).queue q = r := by
  simp [State.queue_setQueue]

@[simp] theorem State.queue_setQueue_ne (s : State) {q k : Fin 4} (r : QueueRec) (h : k ≠ q) :
    (s.setQueue q r).queue k = s.queue k := by
  simp [State.queue_setQueue, h]

theorem State.stream_setStream (s : State) (n k : Fin 48) (r : StreamRec) :
    (s.setStream n r).stream k = if k = n then r else s.stream k := by
  by_cases h : k = n
  · subst h; simp [State.stream, State.setStream]
  · have h' : n.val ≠ k.val := fun e => h (Fin.ext e.symm)
    simp [State.stream, State.setStream, h, Vector.getElem_set_ne, h']

@[simp] theorem State.stream_setStream_self (s : State) (n : Fin 48) (r : StreamRec) : (s.setStream n r).stream n = r := by
  simp [State.stream_setStream]

@[simp] theorem State.stream_setStream_ne (s : State) {n k : Fin 48} (r : StreamRec) (h : k ≠ n) :
    (s.setStream n r).stream k = s.stream k := by
  simp [State.stream_setStream, h]

theorem State.context_setContext (s : State) (c k : Fin 32) (x : Context) :
    (s.setContext c x).context k = if k = c then x else s.context k := by
  by_cases h : k = c
  · subst h; simp [State.context, State.setContext]
  · have h' : c.val ≠ k.val := fun e => h (Fin.ext e.symm)
    simp [State.context, State.setContext, h, Vector.getElem_set_ne, h']

@[simp] theorem State.context_setContext_self (s : State) (c : Fin 32) (x : Context) : (s.setContext c x).context c = x := by
  simp [State.context_setContext]

@[simp] theorem State.context_setContext_ne (s : State) {c k : Fin 32} (x : Context) (h : k ≠ c) :
    (s.setContext c x).context k = s.context k := by
  simp [State.context_setContext, h]

theorem State.entry_setEntry (s : State) (e k : Fin 8) (x : Entry) :
    (s.setEntry e x).entry k = if k = e then x else s.entry k := by
  by_cases h : k = e
  · subst h; simp [State.entry, State.setEntry]
  · have h' : e.val ≠ k.val := fun e => h (Fin.ext e.symm)
    simp [State.entry, State.setEntry, h, Vector.getElem_set_ne, h']

@[simp] theorem State.entry_setEntry_self (s : State) (e : Fin 8) (x : Entry) : (s.setEntry e x).entry e = x := by
  simp [State.entry_setEntry]

@[simp] theorem State.entry_setEntry_ne (s : State) {e k : Fin 8} (x : Entry) (h : k ≠ e) :
    (s.setEntry e x).entry k = s.entry k := by
  simp [State.entry_setEntry, h]

theorem State.queue_setHead (s : State) (q k : Fin 4) (h : Head) :
    (s.setHead q h).queue k = if k = q then { s.queue q with head := h } else s.queue k := by
  simp [State.setHead, State.queue_setQueue]

@[simp] theorem State.queue_setHead_self (s : State) (q : Fin 4) (h : Head) :
    (s.setHead q h).queue q = { s.queue q with head := h } := by
  simp [State.queue_setHead]

@[simp] theorem State.queue_setHead_ne (s : State) {q k : Fin 4} (h : Head) (hk : k ≠ q) :
    (s.setHead q h).queue k = s.queue k := by
  simp [State.queue_setHead, hk]

@[simp] theorem State.port_setPort_self (s : State) (p : PortId) (r : PortRec) : (s.setPort p r).port p = r := by
  cases p <;> rfl

@[simp] theorem State.port_setPort_ne (s : State) {p k : PortId} (r : PortRec) (h : k ≠ p) :
    (s.setPort p r).port k = s.port k := by
  cases p <;> cases k <;> first | rfl | exact absurd rfl h

/-! ### A table read through an update of another table -/

@[simp] theorem State.stream_setQueue (s : State) (q : Fin 4) (r : QueueRec) (k : Fin 48) : (s.setQueue q r).stream k = s.stream k := rfl
@[simp] theorem State.context_setQueue (s : State) (q : Fin 4) (r : QueueRec) (k : Fin 32) : (s.setQueue q r).context k = s.context k := rfl
@[simp] theorem State.entry_setQueue (s : State) (q : Fin 4) (r : QueueRec) (k : Fin 8) : (s.setQueue q r).entry k = s.entry k := rfl
@[simp] theorem State.port_setQueue (s : State) (q : Fin 4) (r : QueueRec) (k : PortId) : (s.setQueue q r).port k = s.port k := by cases k <;> rfl
@[simp] theorem State.queue_setStream (s : State) (n : Fin 48) (r : StreamRec) (k : Fin 4) : (s.setStream n r).queue k = s.queue k := rfl
@[simp] theorem State.context_setStream (s : State) (n : Fin 48) (r : StreamRec) (k : Fin 32) : (s.setStream n r).context k = s.context k := rfl
@[simp] theorem State.entry_setStream (s : State) (n : Fin 48) (r : StreamRec) (k : Fin 8) : (s.setStream n r).entry k = s.entry k := rfl
@[simp] theorem State.port_setStream (s : State) (n : Fin 48) (r : StreamRec) (k : PortId) : (s.setStream n r).port k = s.port k := by cases k <;> rfl
@[simp] theorem State.queue_setContext (s : State) (c : Fin 32) (x : Context) (k : Fin 4) : (s.setContext c x).queue k = s.queue k := rfl
@[simp] theorem State.stream_setContext (s : State) (c : Fin 32) (x : Context) (k : Fin 48) : (s.setContext c x).stream k = s.stream k := rfl
@[simp] theorem State.entry_setContext (s : State) (c : Fin 32) (x : Context) (k : Fin 8) : (s.setContext c x).entry k = s.entry k := rfl
@[simp] theorem State.port_setContext (s : State) (c : Fin 32) (x : Context) (k : PortId) : (s.setContext c x).port k = s.port k := by cases k <;> rfl
@[simp] theorem State.queue_setEntry (s : State) (e : Fin 8) (x : Entry) (k : Fin 4) : (s.setEntry e x).queue k = s.queue k := rfl
@[simp] theorem State.stream_setEntry (s : State) (e : Fin 8) (x : Entry) (k : Fin 48) : (s.setEntry e x).stream k = s.stream k := rfl
@[simp] theorem State.context_setEntry (s : State) (e : Fin 8) (x : Entry) (k : Fin 32) : (s.setEntry e x).context k = s.context k := rfl
@[simp] theorem State.port_setEntry (s : State) (e : Fin 8) (x : Entry) (k : PortId) : (s.setEntry e x).port k = s.port k := by cases k <;> rfl
@[simp] theorem State.queue_setPort (s : State) (p : PortId) (r : PortRec) (k : Fin 4) : (s.setPort p r).queue k = s.queue k := by cases p <;> rfl
@[simp] theorem State.stream_setPort (s : State) (p : PortId) (r : PortRec) (k : Fin 48) : (s.setPort p r).stream k = s.stream k := by cases p <;> rfl
@[simp] theorem State.context_setPort (s : State) (p : PortId) (r : PortRec) (k : Fin 32) : (s.setPort p r).context k = s.context k := by cases p <;> rfl
@[simp] theorem State.entry_setPort (s : State) (p : PortId) (r : PortRec) (k : Fin 8) : (s.setPort p r).entry k = s.entry k := by cases p <;> rfl
@[simp] theorem State.stream_setHead (s : State) (q : Fin 4) (h : Head) (k : Fin 48) : (s.setHead q h).stream k = s.stream k := rfl
@[simp] theorem State.context_setHead (s : State) (q : Fin 4) (h : Head) (k : Fin 32) : (s.setHead q h).context k = s.context k := rfl
@[simp] theorem State.entry_setHead (s : State) (q : Fin 4) (h : Head) (k : Fin 8) : (s.setHead q h).entry k = s.entry k := rfl
@[simp] theorem State.port_setHead (s : State) (q : Fin 4) (h : Head) (k : PortId) : (s.setHead q h).port k = s.port k := by cases k <;> rfl

/-! ### What a command answers -/

theorem taken_eq {s t : State} (h : s.eng.inReset = false) : taken s t = .next t := by simp [taken, h]

theorem taken_inReset {s t : State} (h : s.eng.inReset = true) : taken s t = .next s := by simp [taken, h]

/-- A command that passes the guard answers `s` itself or the state it computed. -/
theorem taken_cases {s t u : State} (h : taken s t = .next u) :
    (s.eng.inReset = true ∧ u = s) ∨ (s.eng.inReset = false ∧ u = t) := by
  cases hr : s.eng.inReset <;> simp [taken, hr] at h <;> simp [h]

end Sys2Proof.Machine
end

