-- ==== Sys2Proof/Laws/Heads.lean ====
section
/-! SUPPORT. Spec lemmas of the shared operations on heads and completions: replacing a record twice, which part of the state
each operation leaves alone, and what the control unit's selection does. -/

namespace Sys2Proof.Machine

open Sys2Proof

/-! ### Replacing a record twice, or by itself -/

@[simp] theorem State.setQueue_setQueue (s : State) (q : Fin 4) (a b : QueueRec) :
    (s.setQueue q a).setQueue q b = s.setQueue q b := by simp [State.setQueue]

@[simp] theorem State.setQueue_queue (s : State) (q : Fin 4) : s.setQueue q (s.queue q) = s := by
  simp [State.setQueue, State.queue]

@[simp] theorem State.setEntry_setEntry (s : State) (e : Fin 8) (a b : Entry) :
    (s.setEntry e a).setEntry e b = s.setEntry e b := by simp [State.setEntry]

@[simp] theorem State.setEntry_entry (s : State) (e : Fin 8) : s.setEntry e (s.entry e) = s := by
  simp [State.setEntry, State.entry]

@[simp] theorem State.setStream_setStream (s : State) (n : Fin 48) (a b : StreamRec) :
    (s.setStream n a).setStream n b = s.setStream n b := by simp [State.setStream]

@[simp] theorem State.setStream_stream (s : State) (n : Fin 48) : s.setStream n (s.stream n) = s := by
  simp [State.setStream, State.stream]

@[simp] theorem State.setContext_setContext (s : State) (c : Fin 32) (a b : Context) :
    (s.setContext c a).setContext c b = s.setContext c b := by simp [State.setContext]

@[simp] theorem State.setPort_setPort (s : State) (p : PortId) (a b : PortRec) :
    (s.setPort p a).setPort p b = s.setPort p b := by cases p <;> rfl

@[simp] theorem State.setPort_port (s : State) (p : PortId) : s.setPort p (s.port p) = s := by cases p <;> rfl

@[simp] theorem State.setHead_setHead (s : State) (q : Fin 4) (a b : Head) :
    (s.setHead q a).setHead q b = s.setHead q b := by simp [State.setHead]

@[simp] theorem State.setQueue_setHead (s : State) (q : Fin 4) (h : Head) (r : QueueRec) :
    (s.setHead q h).setQueue q r = s.setQueue q r := by simp [State.setHead]

/-- Replacing a head by itself changes nothing. -/
theorem State.setHead_self {s : State} {q : Fin 4} {h : Head} (hh : (s.queue q).head = h) : s.setHead q h = s := by
  subst hh; exact s.setQueue_queue q

/-! ### Selection by the control unit (R47) -/

/-- The head selected is the one the unit's order names first. -/
theorem selected_of_selects {s : State} {q : Fin 4} {pos : Nat} {h : Header} {body : ControlRec}
    (hs : Selects s q pos h body) : selected s = some q := by
  have hq : ctlIn .controlWait (s.queue q).head = true := by simp [hs.head, ctlIn]
  have hf := hs.first
  unfold selected queuesAfter
  generalize s.cu.last = l at *
  have key : ∀ k : Fin 4, q = l + 1 + k → (∀ d : Fin 4, d < k → ctlIn .controlWait (s.queue (l + 1 + d)).head = false) →
      List.find? (fun q => ctlIn .controlWait (s.queue q).head) [l + 1, l + 2, l + 3, l] = some q := by
    intro k hk hd
    have e0 : l + 1 + 0 = l + 1 := by simp
    have e1 : l + 1 + 1 = l + 2 := by rw [add_assoc]; rfl
    have e2 : l + 1 + 2 = l + 3 := by rw [add_assoc]; rfl
    have e3 : l + 1 + 3 = l := by rw [add_assoc]; exact add_zero l
    have d0 := hd 0; have d1 := hd 1; have d2 := hd 2
    rw [e0] at d0; rw [e1] at d1; rw [e2] at d2
    subst hk
    fin_cases k <;> simp_all [List.find?]
  exact key (q - l - 1) (by rw [sub_sub, add_sub_cancel]) hf

/-- The selected head enters EXECUTING and its record is executed (R47, R48). -/
theorem controlSelect_of_selects {s : State} {q : Fin 4} {pos : Nat} {h : Header} {body : ControlRec}
    (hs : Selects s q pos h body) :
    execControlSelect s = .next (executeControl q body (executing q pos h body s)) := by
  have hcu : { s with cu := { s.cu with last := q } } = { s with cu := { work := none, last := q } } := by
    rw [show s.cu = { work := none, last := s.cu.last } from by rw [← hs.idle]]
  unfold execControlSelect
  rw [taken_eq hs.awake, if_pos ⟨hs.running, by simp [controlIdle, hs.idle]⟩, selected_of_selects hs]
  simp only [selectAndExecute, hs.head, executing, hcu]

/-- The head of an executing record. -/
@[simp] theorem executing_head (s : State) (q : Fin 4) (pos : Nat) (h : Header) (body : ControlRec) :
    ((executing q pos h body s).queue q).head = .control pos h body .executing := by simp [executing]

/-- A record that executes completes with the stamps as they stand, and the unit becomes idle (R48). -/
theorem finishControl_eq {u : State} {q : Fin 4} {pos : Nat} {h : Header} {body : ControlRec} {c : CtlState}
    (hh : (u.queue q).head = .control pos h body c) (st : Status) (count : Nat) (detail : Detail) (hit : Bool) :
    finishControl q st count detail hit u =
      completeHead q { completion u q h st with count := count, detail := detail, chainHit := hit }
        { u with cu := { u.cu with work := none } } := by
  have hq : ({ u with cu := { u.cu with work := none } } : State).queue q = u.queue q := rfl
  simp only [finishControl, completeControl, hq, hh]; rfl

/-- A record that executes parks, and the unit becomes idle (R48). -/
theorem parkControl_eq {u : State} {q : Fin 4} {pos : Nat} {h : Header} {body : ControlRec} {c : CtlState}
    (hh : (u.queue q).head = .control pos h body c) :
    parkControl q u = { u with cu := { u.cu with work := none } }.setHead q (.control pos h body .parked) := by
  simp only [parkControl, hh]

/-- A completion's fields read only the two frame counters. -/
theorem completion_congr {s t : State} (ha : t.portA.fcount = s.portA.fcount) (hb : t.portB.fcount = s.portB.fcount)
    (q : Fin 4) (h : Header) (st : Status) : completion t q h st = completion s q h st := by
  simp [completion, stampA, stampB, ha, hb]

/-- What the head holds does not matter to its completion. -/
@[simp] theorem completeHead_setHead (s : State) (q : Fin 4) (r : CqRec) (h : Head) :
    completeHead q r (s.setHead q h) = completeHead q r s := by
  have hp : posts (s.setHead q h) = posts s := rfl
  have e1 : ({ s.setHead q h with cq := cqPostReserved (s.setHead q h).cq r } : State) =
    ({ s with cq := cqPostReserved s.cq r } : State).setHead q h := rfl
  have e2 : unreserve (s.setHead q h) = (unreserve s).setHead q h := rfl
  simp only [completeHead, hp, e1, e2, State.setHead_setHead]

end Sys2Proof.Machine
end

