-- ==== Sys2Proof/Laws/Frames.lean ====
section
/-! SUPPORT. Frames of the shared operations: the whole next state written as the old one with the few fields that may change,
and what becomes of the queues an operation does not name. -/

namespace Sys2Proof.Machine

open Sys2Proof

/-! ### The completion writer -/

/-- A SUMMARY changes the writer alone. -/
theorem postSummary_frame (s : State) : postSummary s = { s with cq := (postSummary s).cq } := by
  unfold postSummary; split <;> rfl

/-- An event changes the writer alone. -/
theorem raiseEvent_frame (s : State) (k : EvKind) (n : Nat) (r : EvReason) :
    raiseEvent s k n r = { s with cq := (raiseEvent s k n r).cq } := by
  unfold raiseEvent
  split
  · rfl
  · rw [postSummary_frame]; simp only []; split <;> rfl

@[simp] theorem raiseEvent_stream (s : State) (k : EvKind) (n : Nat) (r : EvReason) (m : Fin 48) :
    (raiseEvent s k n r).stream m = s.stream m := by rw [raiseEvent_frame]; rfl

@[simp] theorem raiseEvent_store (s : State) (k : EvKind) (n : Nat) (r : EvReason) :
    (raiseEvent s k n r).store = s.store := by rw [raiseEvent_frame]

@[simp] theorem raiseEvent_queue (s : State) (k : EvKind) (n : Nat) (r : EvReason) (q : Fin 4) :
    (raiseEvent s k n r).queue q = s.queue q := by rw [raiseEvent_frame]; rfl

@[simp] theorem raiseEvent_port (s : State) (k : EvKind) (n : Nat) (r : EvReason) (p : PortId) :
    (raiseEvent s k n r).port p = s.port p := by rw [raiseEvent_frame]; cases p <;> rfl

@[simp] theorem raiseEvent_eng (s : State) (k : EvKind) (n : Nat) (r : EvReason) : (raiseEvent s k n r).eng = s.eng := by
  rw [raiseEvent_frame]

/-! ### The queue fetcher -/

/-- An asking queue changes its own record, the wait list and the writer's reservations alone. -/
theorem askIfEligible_frame (q : Fin 4) (s : State) : askIfEligible q s =
    { s with
      queues := (askIfEligible q s).queues, waitList := (askIfEligible q s).waitList, cq := (askIfEligible q s).cq } := by
  unfold askIfEligible askFetch; split
  · split <;> rfl
  · rfl

theorem askIfEligible_queue_ne (s : State) {q k : Fin 4} (h : k ≠ q) : (askIfEligible q s).queue k = s.queue k := by
  unfold askIfEligible askFetch; split
  · split
    · rfl
    · simp only [issueFetch]; rw [State.queue_setQueue_ne _ _ h]; rfl
  · rfl

/-- A flush changes its queue and the writer alone. -/
theorem flushEffect_frame (q : Fin 4) (s : State) : flushEffect q s =
    { s with queues := (flushEffect q s).queues, cq := (flushEffect q s).cq } := rfl

theorem flushEffect_queue_ne (s : State) {q k : Fin 4} (h : k ≠ q) : (flushEffect q s).queue k = s.queue k := by
  simp only [flushEffect]; rw [State.queue_setQueue_ne _ _ h]; rfl

theorem listForFlush_frame (q : Fin 4) (s : State) :
    listForFlush q s = { s with waitList := (listForFlush q s).waitList } := by
  unfold listForFlush; split <;> rfl

theorem flushOwn_frame (q : Fin 4) (s : State) : flushOwn q s =
    { s with queues := (flushOwn q s).queues, waitList := (flushOwn q s).waitList, cq := (flushOwn q s).cq } := by
  unfold flushOwn; split
  · rw [listForFlush_frame]; rfl
  · rfl

theorem flushOwn_queue_ne (s : State) {q k : Fin 4} (h : k ≠ q) : (flushOwn q s).queue k = s.queue k := by
  unfold flushOwn; split
  · rw [listForFlush_frame]; exact State.queue_setQueue_ne _ _ h
  · rw [flushEffect_queue_ne _ h]; rfl

theorem afterEmpty_frame (q : Fin 4) (s : State) : afterEmpty q s =
    { s with queues := (afterEmpty q s).queues, waitList := (afterEmpty q s).waitList, cq := (afterEmpty q s).cq } := by
  unfold afterEmpty; split
  · exact flushOwn_frame q s
  · exact askIfEligible_frame q s

theorem afterEmpty_queue_ne (s : State) {q k : Fin 4} (h : k ≠ q) : (afterEmpty q s).queue k = s.queue k := by
  unfold afterEmpty; split
  · exact flushOwn_queue_ne s h
  · exact askIfEligible_queue_ne s h

/-- A head's completion changes its queue, the wait list and the writer alone. -/
theorem completeHead_frame (q : Fin 4) (r : CqRec) (s : State) : completeHead q r s =
    { s with
      queues := (completeHead q r s).queues, waitList := (completeHead q r s).waitList, cq := (completeHead q r s).cq } := by
  unfold completeHead; split
  · rw [afterEmpty_frame]; rfl
  · rfl

theorem completeHead_queue_ne (r : CqRec) (s : State) {q k : Fin 4} (h : k ≠ q) :
    (completeHead q r s).queue k = s.queue k := by
  unfold completeHead; split
  · rw [afterEmpty_queue_ne _ h, State.queue_setHead_ne _ _ h]; rfl
  · rw [State.queue_setHead_ne _ _ h]; rfl

@[simp] theorem completeHead_eng (q : Fin 4) (r : CqRec) (s : State) : (completeHead q r s).eng = s.eng := by
  rw [completeHead_frame]

@[simp] theorem completeHead_cu (q : Fin 4) (r : CqRec) (s : State) : (completeHead q r s).cu = s.cu := by
  rw [completeHead_frame]

@[simp] theorem completeHead_cache (q : Fin 4) (r : CqRec) (s : State) : (completeHead q r s).cache = s.cache := by
  rw [completeHead_frame]

@[simp] theorem completeHead_contexts (q : Fin 4) (r : CqRec) (s : State) :
    (completeHead q r s).contexts = s.contexts := by rw [completeHead_frame]

@[simp] theorem completeHead_dp (q : Fin 4) (r : CqRec) (s : State) : (completeHead q r s).dp = s.dp := by
  rw [completeHead_frame]

@[simp] theorem completeHead_streams (q : Fin 4) (r : CqRec) (s : State) : (completeHead q r s).streams = s.streams := by
  rw [completeHead_frame]

@[simp] theorem completeHead_store (q : Fin 4) (r : CqRec) (s : State) : (completeHead q r s).store = s.store := by
  rw [completeHead_frame]

@[simp] theorem completeHead_notices (q : Fin 4) (r : CqRec) (s : State) : (completeHead q r s).notices = s.notices := by
  rw [completeHead_frame]

@[simp] theorem completeHead_port (q : Fin 4) (r : CqRec) (s : State) (p : PortId) :
    (completeHead q r s).port p = s.port p := by rw [completeHead_frame]; cases p <;> rfl

@[simp] theorem completeHead_pending (q : Fin 4) (r : CqRec) (s : State) : (completeHead q r s).pending = s.pending := by
  rw [completeHead_frame]

@[simp] theorem completeHead_irqMask (q : Fin 4) (r : CqRec) (s : State) : (completeHead q r s).irqMask = s.irqMask := by
  rw [completeHead_frame]

/-- After its completion a head is EMPTY, or already FETCHING the next record. -/
theorem completeHead_head (q : Fin 4) (r : CqRec) (s : State) :
    ((completeHead q r s).queue q).head = .empty ∨ ∃ pos, ((completeHead q r s).queue q).head = .fetching pos := by
  unfold completeHead; split
  · unfold afterEmpty; split
    · unfold flushOwn; split
      · rw [listForFlush_frame]; left; simp [State.queue, State.setQueue, State.setHead]
      · left; simp [flushEffect, flushedQueue, reserve, unlist, State.queue, State.setQueue, State.setHead]
    · unfold askIfEligible askFetch; split
      · split
        · left; simp [State.queue, State.setQueue, State.setHead]
        · right; simp [issueFetch]
      · left; simp
  · left; simp

/-- The wait list's service changes queues, the wait list and the writer alone. -/
theorem serveEntries_frame (l : List (Fin 4 × Purpose)) (s : State) : serveEntries l s =
    { s with
      queues := (serveEntries l s).queues, waitList := (serveEntries l s).waitList, cq := (serveEntries l s).cq } := by
  induction l generalizing s with
  | nil => rfl
  | cons e l ih =>
    obtain ⟨q, p⟩ := e
    unfold serveEntries
    split
    · exact ih s
    · split
      · rfl
      · cases p <;> (simp only []; rw [ih]; rfl)

/-! ### Ends of records -/

/-- The end of a drain changes the engine's state and IRQPEND alone. -/
theorem checkDrain_frame (s : State) : checkDrain s =
    { s with eng := { s.eng with st := (checkDrain s).eng.st }, irqPend := (checkDrain s).irqPend } := by
  unfold checkDrain; split <;> rfl

@[simp] theorem checkDrain_queue (s : State) (q : Fin 4) : (checkDrain s).queue q = s.queue q := by
  rw [checkDrain_frame]; rfl

@[simp] theorem checkDrain_cq (s : State) : (checkDrain s).cq = s.cq := by rw [checkDrain_frame]

/-- The end of a chain's use changes one cache entry alone. -/
theorem useEnd_frame (e : Fin 8) (s : State) : useEnd e s =
    s.setEntry e (if (s.entry e).stale then Entry.free else { s.entry e with inuse := false }) := by
  unfold useEnd; split <;> rfl

/-! ### Streams -/

/-- Claims change the stream table alone. -/
theorem setClaims_frame (b : Bool) (l : List (Fin 48)) (s : State) :
    setClaims b l s = { s with streams := (setClaims b l s).streams } := by
  induction l generalizing s with
  | nil => rfl
  | cons n l ih => unfold setClaims; rw [ih]; rfl

/-- CLAIMED after claims were set or cleared; every other field of every stream is unchanged. -/
theorem setClaims_stream (b : Bool) (l : List (Fin 48)) (s : State) (m : Fin 48) :
    (setClaims b l s).stream m = if m ∈ l then { s.stream m with claimed := b } else s.stream m := by
  induction l generalizing s with
  | nil => simp [setClaims]
  | cons n l ih =>
    unfold setClaims; rw [ih, State.stream_setStream]
    by_cases h : m = n
    · subst h; simp
    · simp [h]

/-- Release: CLAIMED falls on the job's streams and a notice is sent for each. -/
theorem releaseStreams_frame (d : DataRec) (s : State) : releaseStreams d s =
    { s with streams := (releaseStreams d s).streams, notices := s.notices ++ namedStreams d } := by
  unfold releaseStreams notifyAll; rw [setClaims_frame]

/-- Commit in roles changes the stream table alone. -/
theorem commitRoles_frame (n : Nat) (l : List (Fin 48 × Role)) (s : State) :
    commitRoles n l s = { s with streams := (commitRoles n l s).streams } := by
  induction l generalizing s with
  | nil => rfl
  | cons x l ih => obtain ⟨x, role⟩ := x; unfold commitRoles; rw [ih]; rfl

/-- Commit changes the stream table and sends a notice for each stream. -/
theorem commitStreams_frame (d : DataRec) (s : State) : commitStreams d s =
    { s with streams := (commitStreams d s).streams, notices := s.notices ++ namedStreams d } := by
  unfold commitStreams; rw [releaseStreams_frame, commitRoles_frame]

/-- A port append changes its stream, the store, the writer and the notices alone. -/
theorem portAppend_frame (n : Fin 48) (f : Word) (x : Sample) (s : State) : portAppend n f x s =
    { s with
      streams := (portAppend n f x s).streams, store := (portAppend n f x s).store, cq := (portAppend n f x s).cq
      notices := (portAppend n f x s).notices } := by
  unfold portAppend; simp only []; split
  · rfl
  · split
    · rw [raiseEvent_frame]; split <;> rfl
    · split <;> rfl

/-- A port take changes its stream, the writer and the notices alone. -/
theorem portTake_frame (n : Fin 48) (f : Word) (s : State) : portTake n f s =
    { s with
      streams := (portTake n f s).streams, cq := (portTake n f s).cq, notices := (portTake n f s).notices } := by
  unfold portTake; simp only []; split
  · rfl
  · split
    · rw [raiseEvent_frame]; rfl
    · rfl

end Sys2Proof.Machine
end

