-- ==== Sys2Proof/Laws/PerInstr.lean ====
section
/-! SUPPORT. The per-command family `ReadsBounded`: a well-formed command asks the datapath only for reads of at most 16 words,
32 bytes, at one of the four inputs a job may have (R108: no read crosses a 32-byte boundary). -/

namespace Sys2Proof

/-- The reads of a datapath input that a command chooses to issue; most commands choose none. -/
def instrReads : Instr → List ReadChoice
  | .run => []
  | .halt => []
  | .clear => []
  | .engctlNone => []
  | .postAdvance _ _ => []
  | .postRestart _ => []
  | .postFlush _ => []
  | .cqheadWrite _ => []
  | .irqpendWrite _ => []
  | .irqmaskWrite _ => []
  | .setupadrWrite _ => []
  | .registerWriteIgnored _ _ _ => []
  | .pinReset => []
  | .resetRelease => []
  | .tick => []
  | .waitTimerExpiry _ => []
  | .coalescingTimerExpiry => []
  | .setupReadAnswer _ _ => []
  | .headFetchData _ _ => []
  | .headFetchError _ => []
  | .controlSelect => []
  | .snapshotWriteAnswer _ => []
  | .stopRequest => []
  | .changeNotice _ _ => []
  | .grant reads => reads
  | .fillBegin _ => []
  | .fillReadAnswer _ _ _ reads => reads
  | .computeSample reads => reads
  | .dpReadAnswer _ _ reads => reads
  | .dpReadError _ => []
  | .dpWriteAnswer _ => []
  | .dpWriteError _ => []
  | .frameEvent _ => []
  | .huntSyncMark _ => []
  | .candidateDrop _ => []
  | .lockEvent _ => []
  | .lossEvent _ => []
  | .bodyWriteAnswer => []
  | .phaseWriteAnswer => []
  | .cqWriteError => []
  | .staleAnswerDiscard _ _ => []
  | .bitClock _ _ _ => []
  | .engctlReservedCode _ => []
  | .postReservedAction _ => []

/-- A well-formed command's reads are within bounds. -/
def Laws.ReadsBounded.Statement (i : Instr) : Prop :=
  wellFormed i = true → ∀ c ∈ instrReads i, c.input < 4 ∧ 1 ≤ c.words ∧ c.words ≤ 16

theorem Laws.ReadsBounded.run : Laws.ReadsBounded.Statement .run := by
  intro _ c hc; cases hc

theorem Laws.ReadsBounded.halt : Laws.ReadsBounded.Statement .halt := by
  intro _ c hc; cases hc

theorem Laws.ReadsBounded.clear : Laws.ReadsBounded.Statement .clear := by
  intro _ c hc; cases hc

theorem Laws.ReadsBounded.engctlNone : Laws.ReadsBounded.Statement .engctlNone := by
  intro _ c hc; cases hc

theorem Laws.ReadsBounded.postAdvance (queue : Fin 4) (index : BitVec 12) : Laws.ReadsBounded.Statement (.postAdvance queue index) := by
  intro _ c hc; cases hc

theorem Laws.ReadsBounded.postRestart (queue : Fin 4) : Laws.ReadsBounded.Statement (.postRestart queue) := by
  intro _ c hc; cases hc

theorem Laws.ReadsBounded.postFlush (queue : Fin 4) : Laws.ReadsBounded.Statement (.postFlush queue) := by
  intro _ c hc; cases hc

theorem Laws.ReadsBounded.cqheadWrite (index : BitVec 16) : Laws.ReadsBounded.Statement (.cqheadWrite index) := by
  intro _ c hc; cases hc

theorem Laws.ReadsBounded.irqpendWrite (value : Word) : Laws.ReadsBounded.Statement (.irqpendWrite value) := by
  intro _ c hc; cases hc

theorem Laws.ReadsBounded.irqmaskWrite (value : Word) : Laws.ReadsBounded.Statement (.irqmaskWrite value) := by
  intro _ c hc; cases hc

theorem Laws.ReadsBounded.setupadrWrite (value : Word) : Laws.ReadsBounded.Statement (.setupadrWrite value) := by
  intro _ c hc; cases hc

theorem Laws.ReadsBounded.registerWriteIgnored (offset : Nat) (strobes : BitVec 4) (value : Word) : Laws.ReadsBounded.Statement (.registerWriteIgnored offset strobes value) := by
  intro _ c hc; cases hc

theorem Laws.ReadsBounded.pinReset : Laws.ReadsBounded.Statement .pinReset := by
  intro _ c hc; cases hc

theorem Laws.ReadsBounded.resetRelease : Laws.ReadsBounded.Statement .resetRelease := by
  intro _ c hc; cases hc

theorem Laws.ReadsBounded.tick : Laws.ReadsBounded.Statement .tick := by
  intro _ c hc; cases hc

theorem Laws.ReadsBounded.waitTimerExpiry (queue : Fin 4) : Laws.ReadsBounded.Statement (.waitTimerExpiry queue) := by
  intro _ c hc; cases hc

theorem Laws.ReadsBounded.coalescingTimerExpiry : Laws.ReadsBounded.Statement .coalescingTimerExpiry := by
  intro _ c hc; cases hc

theorem Laws.ReadsBounded.setupReadAnswer (offset : Nat) (answer : Answer) : Laws.ReadsBounded.Statement (.setupReadAnswer offset answer) := by
  intro _ c hc; cases hc

theorem Laws.ReadsBounded.headFetchData (queue : Fin 4) (bytes : List Byte) : Laws.ReadsBounded.Statement (.headFetchData queue bytes) := by
  intro _ c hc; cases hc

theorem Laws.ReadsBounded.headFetchError (queue : Fin 4) : Laws.ReadsBounded.Statement (.headFetchError queue) := by
  intro _ c hc; cases hc

theorem Laws.ReadsBounded.controlSelect : Laws.ReadsBounded.Statement .controlSelect := by
  intro _ c hc; cases hc

theorem Laws.ReadsBounded.snapshotWriteAnswer (ok : Bool) : Laws.ReadsBounded.Statement (.snapshotWriteAnswer ok) := by
  intro _ c hc; cases hc

theorem Laws.ReadsBounded.stopRequest : Laws.ReadsBounded.Statement .stopRequest := by
  intro _ c hc; cases hc

theorem Laws.ReadsBounded.changeNotice (stream : Fin 48) (order : List (Fin 4)) : Laws.ReadsBounded.Statement (.changeNotice stream order) := by
  intro _ c hc; cases hc

theorem Laws.ReadsBounded.grant (reads : List ReadChoice) : Laws.ReadsBounded.Statement (.grant reads) := by
  intro h c hc
  have hr : readChoiceOk c = true := by
    simp only [instrReads] at hc
    simp only [wellFormed, List.all_eq_true] at h
    exact h c hc
  simpa [readChoiceOk, and_assoc] using hr

theorem Laws.ReadsBounded.fillBegin (order : List (Fin 4)) : Laws.ReadsBounded.Statement (.fillBegin order) := by
  intro _ c hc; cases hc

theorem Laws.ReadsBounded.fillReadAnswer (offset : Nat) (answer : Answer) (order : List (Fin 4)) (reads : List ReadChoice) : Laws.ReadsBounded.Statement (.fillReadAnswer offset answer order reads) := by
  intro h c hc
  have hr : readChoiceOk c = true := by
    simp only [instrReads] at hc
    simp only [wellFormed, Bool.and_eq_true, List.all_eq_true] at h
    exact h.2 c hc
  simpa [readChoiceOk, and_assoc] using hr

theorem Laws.ReadsBounded.computeSample (reads : List ReadChoice) : Laws.ReadsBounded.Statement (.computeSample reads) := by
  intro h c hc
  have hr : readChoiceOk c = true := by
    simp only [instrReads] at hc
    simp only [wellFormed, List.all_eq_true] at h
    exact h c hc
  simpa [readChoiceOk, and_assoc] using hr

theorem Laws.ReadsBounded.dpReadAnswer (k : Nat) (data : List Byte) (reads : List ReadChoice) : Laws.ReadsBounded.Statement (.dpReadAnswer k data reads) := by
  intro h c hc
  have hr : readChoiceOk c = true := by
    simp only [instrReads] at hc
    simp only [wellFormed, Bool.and_eq_true, List.all_eq_true] at h
    exact h.2 c hc
  simpa [readChoiceOk, and_assoc] using hr

theorem Laws.ReadsBounded.dpReadError (k : Nat) : Laws.ReadsBounded.Statement (.dpReadError k) := by
  intro _ c hc; cases hc

theorem Laws.ReadsBounded.dpWriteAnswer (k : Nat) : Laws.ReadsBounded.Statement (.dpWriteAnswer k) := by
  intro _ c hc; cases hc

theorem Laws.ReadsBounded.dpWriteError (k : Nat) : Laws.ReadsBounded.Statement (.dpWriteError k) := by
  intro _ c hc; cases hc

theorem Laws.ReadsBounded.frameEvent (port : PortId) : Laws.ReadsBounded.Statement (.frameEvent port) := by
  intro _ c hc; cases hc

theorem Laws.ReadsBounded.huntSyncMark (port : PortId) : Laws.ReadsBounded.Statement (.huntSyncMark port) := by
  intro _ c hc; cases hc

theorem Laws.ReadsBounded.candidateDrop (port : PortId) : Laws.ReadsBounded.Statement (.candidateDrop port) := by
  intro _ c hc; cases hc

theorem Laws.ReadsBounded.lockEvent (port : PortId) : Laws.ReadsBounded.Statement (.lockEvent port) := by
  intro _ c hc; cases hc

theorem Laws.ReadsBounded.lossEvent (port : PortId) : Laws.ReadsBounded.Statement (.lossEvent port) := by
  intro _ c hc; cases hc

theorem Laws.ReadsBounded.bodyWriteAnswer : Laws.ReadsBounded.Statement .bodyWriteAnswer := by
  intro _ c hc; cases hc

theorem Laws.ReadsBounded.phaseWriteAnswer : Laws.ReadsBounded.Statement .phaseWriteAnswer := by
  intro _ c hc; cases hc

theorem Laws.ReadsBounded.cqWriteError : Laws.ReadsBounded.Statement .cqWriteError := by
  intro _ c hc; cases hc

theorem Laws.ReadsBounded.staleAnswerDiscard (k : Nat) (bytes : Nat) : Laws.ReadsBounded.Statement (.staleAnswerDiscard k bytes) := by
  intro _ c hc; cases hc

theorem Laws.ReadsBounded.bitClock (port : PortId) (din : Bool) (sync : Bool) : Laws.ReadsBounded.Statement (.bitClock port din sync) := by
  intro _ c hc; cases hc

theorem Laws.ReadsBounded.engctlReservedCode (code : BitVec 4) : Laws.ReadsBounded.Statement (.engctlReservedCode code) := by
  intro _ c hc; cases hc

theorem Laws.ReadsBounded.postReservedAction (queue : Fin 4) : Laws.ReadsBounded.Statement (.postReservedAction queue) := by
  intro _ c hc; cases hc

end Sys2Proof
end

