-- ==== Sys2Proof/Laws/Store.lean ====
section
/-! SUPPORT. The sample store: reading after writing, and the canonical form kept by every write. -/

namespace Sys2Proof.Machine

open Sys2Proof

theorem storeWfFrom_mono {lo hi : Nat} {m : Store} (h : hi ≤ lo) (hm : storeWfFrom lo m = true) : storeWfFrom hi m = true := by
  cases m with
  | nil => rfl
  | cons x rest =>
    obtain ⟨k, v⟩ := x
    simp only [storeWfFrom, Bool.and_eq_true, decide_eq_true_eq] at hm ⊢
    exact ⟨⟨⟨by omega, hm.1.1.2⟩, hm.1.2⟩, hm.2⟩

/-- A canonical store that begins at `lo` lists nothing below it. -/
theorem storeRead_below {lo a : Nat} {m : Store} (hm : storeWfFrom lo m = true) (h : a < lo) : storeRead m a = 0 := by
  cases m with
  | nil => rfl
  | cons x rest =>
    obtain ⟨k, v⟩ := x
    simp only [storeWfFrom, Bool.and_eq_true, decide_eq_true_eq] at hm
    simp [storeRead, show a < k by omega]

theorem storeRead_storeWrite_from (lo : Nat) (m : Store) (hm : storeWfFrom lo m = true) (a b : Nat) (v : Sample) :
    storeRead (storeWrite m a v) b = if b = a then v else storeRead m b := by
  induction m generalizing lo with
  | nil =>
    by_cases hv : v = 0#16 <;> by_cases hb : b = a <;> simp [storeWrite, storeRead, hv, hb]
  | cons x rest ih =>
    obtain ⟨k, w⟩ := x
    simp only [storeWfFrom, Bool.and_eq_true, decide_eq_true_eq] at hm
    have hr := hm.2
    have below : ∀ c, c ≤ k → storeRead rest c = 0 := fun c hc => storeRead_below hr (by omega)
    have ihr := ih (k + 1) hr
    simp only [storeWrite]
    by_cases h1 : a < k
    · by_cases hv : v = 0#16 <;> by_cases hb : b = a
      · simp [h1, hv, hb, storeRead]
      · simp [h1, hv, hb, storeRead]
      · simp [h1, hv, hb, storeRead]
      · by_cases hlt : b < a
        · simp [h1, hv, hb, storeRead, hlt, show b < k by omega]
        · simp [h1, hv, hb, storeRead, hlt]
    · by_cases h2 : a = k
      · subst h2
        by_cases hv : v = 0#16 <;> by_cases hb : b = a
        · simp [hv, hb, below]
        · by_cases hlt : b < a
          · simp [hv, hb, storeRead, hlt, below b (by omega)]
          · simp [hv, hb, storeRead, hlt]
        · simp [hv, hb, storeRead]
        · simp [hv, hb, storeRead]
      · simp only [h1, h2, if_false]
        by_cases hlt : b < k
        · simp [storeRead, hlt, show b ≠ a by omega]
        · by_cases hbk : b = k
          · simp [storeRead, hbk, show k ≠ a by omega]
          · simp [storeRead, hlt, hbk, ihr]

/-- Reading a word after a write: the word written, or what every other address held. -/
theorem storeRead_storeWrite {m : Store} (hm : storeWf m = true) (a b : Nat) (v : Sample) :
    storeRead (storeWrite m a v) b = if b = a then v else storeRead m b :=
  storeRead_storeWrite_from 0 m hm a b v

theorem storeWfFrom_storeWrite (lo : Nat) (m : Store) (a : Nat) (v : Sample) (hm : storeWfFrom lo m = true) (hlo : lo ≤ a)
    (ha : a < Config.storeWords) : storeWfFrom lo (storeWrite m a v) = true := by
  induction m generalizing lo with
  | nil => by_cases hv : v = 0#16 <;> simp [storeWrite, storeWfFrom, hv, hlo, ha]
  | cons x rest ih =>
    obtain ⟨k, w⟩ := x
    have hm' := hm
    simp only [storeWfFrom, Bool.and_eq_true, decide_eq_true_eq] at hm'
    have hw : w ≠ 0#16 := hm'.1.2
    simp only [storeWrite]
    by_cases h1 : a < k
    · by_cases hv : v = 0#16
      · simpa [h1, hv] using hm
      · simp [h1, hv, storeWfFrom, hlo, ha, hm'.2, hm'.1.1.2, hw, show a + 1 ≤ k by omega]
    · by_cases h2 : a = k
      · subst h2
        by_cases hv : v = 0#16
        · simpa [hv] using storeWfFrom_mono (by omega) hm'.2
        · simp [hv, storeWfFrom, hlo, ha, hm'.2]
      · simp [h1, h2, storeWfFrom, hm'.1.1.1, hm'.1.1.2, hw, ih (k + 1) hm'.2 (by omega)]

/-- A write inside the store keeps its canonical form. -/
theorem storeWf_storeWrite {m : Store} {a : Nat} (v : Sample) (hm : storeWf m = true) (ha : a < Config.storeWords) :
    storeWf (storeWrite m a v) = true :=
  storeWfFrom_storeWrite 0 m a v hm (Nat.zero_le a) ha

/-- Writing several words inside the store keeps its canonical form. -/
theorem storeWf_storeWriteAll (ws : List (Nat × Sample)) {m : Store} (hm : storeWf m = true)
    (hw : ∀ x ∈ ws, x.1 < Config.storeWords) : storeWf (storeWriteAll m ws) = true := by
  induction ws generalizing m with
  | nil => exact hm
  | cons x rest ih =>
    exact ih (storeWf_storeWrite x.2 hm (hw x (by simp))) (fun y hy => hw y (by simp [hy]))

/-- Every ring position lies inside the store. -/
theorem ringWord_lt (r : StreamRec) (pos : Nat) : ringWord r pos < Config.storeWords :=
  Nat.mod_lt _ (by decide)

/-- The words a definition zeroes lie inside the store. -/
theorem historyZeroes_lt (base length hist : Nat) : ∀ x ∈ historyZeroes base length hist, x.1 < Config.storeWords := by
  intro x hx
  simp only [historyZeroes, List.mem_map] at hx
  obtain ⟨i, -, rfl⟩ := hx
  exact Nat.mod_lt _ (by decide)

end Sys2Proof.Machine
end

