-- ==== Sys2Proof/Tests/Slice0.lean ====
section
/-! SUPPORT. Tests: the checks of WellFormed, words of the register window written out bit by bit, the manual's worked examples
and small steps, with expected results from the manual; then, for each obligation with hypotheses, a state and operands
that meet them. -/

namespace Sys2Proof.Machine.Tests

open Sys2Proof

/-! ### Small states -/

/-- The state a command leads to. -/
def after (c : Instr) (s : State) : Option State :=
  match exec c s with
  | .next t => some t
  | .fault _ => none
  | .refused _ => none

/-- An ACTIVE queue of 8 entries with weight 2. -/
def q8 : QueueRec := { QueueRec.reset with state := .active, base := 0x1000#32, size := 8, weight := 2 }

/-- A RUNNING engine with four ACTIVE queues and a completion ring of 16 entries. -/
def up : State :=
  { State.reset with
    eng := { Engine.reset with st := .running }
    queues := Vector.replicate 4 q8
    cq := { CqWriter.reset with base := 0x8000#32, size := 16, cthresh := 4, cdelay := 200 } }

/-- The same engine in another engine state. -/
def inState (st : EngState) : State := { up with eng := { up.eng with st := st } }

/-- A completion ring with no free entry. -/
def full : State := { up with cq := { up.cq with tailx := 16 } }

/-- A header. -/
def hdr : Header := { kind := 0x0A#8, irqNow := false, tag := 0x11223344#32 }

/-- Queue 1 holds a control record in CONTROL_WAIT, with its reservation. -/
def ctl (s : State) (body : ControlRec) : State :=
  { s with cq := { s.cq with resv := s.cq.resv + 1 } }.setHead 1 (.control 5 hdr body .controlWait)

/-- A stream of 64 words with 4 words of history. -/
def ring (fill : Nat) : StreamRec :=
  { StreamRec.free with
    defined := true, base := 256, length := 64, hist := 4, producer := .portRx, consumer := .job, wrpos := fill
    fill := fill, ovrarm := true, undarm := true }

/-- A FILTER of 4 samples from stream 2 to memory. -/
def job4 : DataRec :=
  { kind := .filter 0x4000#32 none, inputs := [.stream 2], output := .memory 0x10010#32, n := 4, policy := .saturate,
    rounding := .round, monitor := true, thresh := 16000, waitLimit := 0 }

/-- A MIX of 4 samples of stream 2 into memory. -/
def mix4 : DataRec := { job4 with kind := .mix [0x4000#16] }

/-- A job record of a data record in a job state. -/
def jobIn (st : JState) (d : DataRec) : JobRec :=
  { data := d, jstate := st, waited := false, timer := some 0, trun := true, claims := false, chainWait := .none,
    chainEnt := none, chainHit := false, ctxReset := false }

/-- Queue 0 holds a data record. -/
def held (s : State) (j : JobRec) : State := s.setHead 0 (.data 3 hdr j)

/-! ### WellFormed: an ill-formed term for each check -/

theorem test_wf_ignored_write : wellFormed (.registerWriteIgnored 0x08 15#4 0) = false := by decide
theorem test_wf_setup_empty : wellFormed (.setupReadAnswer 0 (.ok [])) = false := by decide
theorem test_wf_setup_beyond : wellFormed (.setupReadAnswer 127 (.error 2)) = false := by decide
theorem test_wf_setup_blocks : wellFormed (.setupReadAnswer 60 (.error 8)) = false := by decide
theorem test_wf_fetch_length : wellFormed (.headFetchData 0 (List.replicate 63 0#8)) = false := by decide
theorem test_wf_notice_order : wellFormed (.changeNotice 0 [1, 1]) = false := by decide
theorem test_wf_grant_input : wellFormed (.grant [⟨4, 1⟩]) = false := by decide
theorem test_wf_grant_words : wellFormed (.grant [⟨0, 0⟩]) = false := by decide
theorem test_wf_fill_begin_order : wellFormed (.fillBegin [2, 2]) = false := by decide
theorem test_wf_fill_read_empty : wellFormed (.fillReadAnswer 0 (.error 0) [] []) = false := by decide
theorem test_wf_fill_read_order : wellFormed (.fillReadAnswer 0 (.error 1) [3, 3] []) = false := by decide
theorem test_wf_fill_read_reads : wellFormed (.fillReadAnswer 0 (.error 1) [] [⟨0, 17⟩]) = false := by decide
theorem test_wf_compute_reads : wellFormed (.computeSample [⟨5, 1⟩]) = false := by decide
theorem test_wf_dp_read_odd : wellFormed (.dpReadAnswer 0 [1#8, 2#8, 3#8] []) = false := by decide
theorem test_wf_dp_read_short : wellFormed (.dpReadAnswer 0 [1#8] []) = false := by decide
theorem test_wf_dp_read_long : wellFormed (.dpReadAnswer 0 (List.replicate 34 0#8) []) = false := by decide
theorem test_wf_dp_read_reads : wellFormed (.dpReadAnswer 0 [1#8, 2#8] [⟨0, 0⟩]) = false := by decide
theorem test_wf_stale_bytes : wellFormed (.staleAnswerDiscard 0 0) = false := by decide
theorem test_wf_reserved_code : wellFormed (.engctlReservedCode 3#4) = false := by decide

/-! ### Words of the register window (10.1) -/

/-- POST: QUEUE 2 in bits 1:0, ACTION ADVANCE 0 in bits 5:4, INDEX 5 in bits 27:16. -/
theorem test_decode_post_advance :
    decodeWrite 0x0C 15#4 0b0000000000000101_0000000000000010#32 = .postAdvance 2 5#12 := by decide
/-- POST: QUEUE 3, ACTION FLUSH 2. -/
theorem test_decode_post_flush : decodeWrite 0x0C 15#4 0b0000000000000000_0000000000100011#32 = .postFlush 3 := by decide
/-- POST: QUEUE 1, ACTION RESTART 1. -/
theorem test_decode_post_restart : decodeWrite 0x0C 15#4 0b010001#32 = .postRestart 1 := by decide
/-- ENGCTL: CMD RUN 1, HALT 2 and CLEAR 3 in bits 3:0. -/
theorem test_decode_engctl : decodeWrite 0x00 15#4 1#32 = .run ∧ decodeWrite 0x00 15#4 2#32 = .halt ∧
    decodeWrite 0x00 15#4 3#32 = .clear ∧ decodeWrite 0x00 15#4 0#32 = .engctlNone ∧
    decodeWrite 0x00 15#4 4#32 = .engctlReservedCode 4#4 := by decide
/-- A write without all four strobes is ignored. -/
theorem test_decode_strobes : decodeWrite 0x00 7#4 1#32 = .registerWriteIgnored 0x00 7#4 1#32 := by decide
/-- A CLEAR_CONTEXT of context 7: KIND 08h, the context number in byte 8. -/
theorem test_decode_clear_context :
    decodeBody 0 ([0x08#8, 0, 0, 0, 0, 0, 0, 0, 7#8] ++ List.replicate 55 0#8) = some (.control (.clearContext 7)) := by
  decide

/-! ### Worked examples of the manual -/

/-- Chapter 5, the FIR and GAIN chain: its two stages. -/
def firGain : List StageRec := [.fir [0x4000#16, 0x4000#16, 0xE000#16], .gain 0x6000#16 1]

/-- Sample 0 of the example: 4127 under ROUND, with no clip. -/
theorem test_fir_gain_sample0 :
    runStages .saturate .round [2000#16, 1000#16] firGain 0 4001#16 bqZero 0 = .out 4127#16 bqZero 0 := by decide
/-- Sample 1: −2248. -/
theorem test_fir_gain_sample1 :
    runStages .saturate .round [4001#16, 2000#16] firGain 0 (-6000#16) bqZero 0 = .out (-2248#16) bqZero 0 := by decide
/-- Sample 3 is 47250: 32767 with one clip under SATURATE, −18286 under WRAP, a trap at stage index 1 under TRAP. -/
theorem test_fir_gain_sample3 :
    runStages .saturate .round [30000#16, -6000#16] firGain 0 30000#16 bqZero 0 = .out 32767#16 bqZero 1 ∧
    runStages .wrap .round [30000#16, -6000#16] firGain 0 30000#16 bqZero 0 = .out (-18286#16) bqZero 1 ∧
    runStages .trap .round [30000#16, -6000#16] firGain 0 30000#16 bqZero 0 = .trapped 1 := by decide
/-- Stage 1 of sample 1: −1499.5 is −1499 under ROUND and −1500 under TRUNC. -/
theorem test_rounding : roundShift .round 15 (-49135616) = -1499 ∧ roundShift .trunc 15 (-49135616) = -1500 ∧
    roundShift .round 1 5 = 3 ∧ roundShift .round 1 (-5) = -2 ∧ roundShift .trunc 1 (-5) = -3 := by decide
/-- The monitor of the example: PEAK 32767 at 3, OVER 2. -/
theorem test_monitor : (let dp := finishSamples true 16000 [4127#16, -2248#16, 16500#16, 32767#16] Datapath.idle
    (dp.peak, dp.peakIdx, dp.overCnt, dp.finished)) = (32767, 3, 2, 4) := by decide

/-- Chapter 6, job A of the context example: samples 1000 and 1500, and the state after them. -/
def halfPole : List StageRec := [.biquad 0x4000#16 0 0 (-8192#16) 0]

theorem test_biquad_job_a :
    runStages .saturate .round [] halfPole 0 1000#16 (bqSet bqZero 0 ⟨1000#16, 0, 1000#16, 0⟩) 0 =
      .out 1500#16 (bqSet bqZero 0 ⟨1000#16, 1000#16, 1500#16, 1000#16⟩) 0 := by decide

/-! ### Single steps -/

theorem test_run_configures : (after .run State.reset).map (fun t => (t.eng.st, t.eng.setup.isSome)) =
    some (.configuring, true) := by decide
theorem test_run_misaligned : (after .run { State.reset with eng := { Engine.reset with setupAdr := 32#32 } }).map
    (fun t => (t.eng.st, t.eng.fault, t.irqPend.engine)) = some (.off, .setupAlign, true) := by decide
theorem test_halt_at_rest : (after .halt up).map (fun t => (t.eng.st, t.irqPend.engine)) = some (.halted, true) := by decide
theorem test_clear_keeps_mask :
    (after .clear { inState .halted with irqMask := ⟨true, true, true⟩, store := [(3, 7#16)] }).map
      (fun t => (t.eng.st, t.irqMask.engine, t.store)) = some (.off, true, [(3, 7#16)]) := by decide
theorem test_pin_reset_clears : (after .pinReset { up with irqMask := ⟨true, true, true⟩, store := [(3, 7#16)] }).map
    (fun t => (t.eng.inReset, t.irqMask.engine, t.store)) = some (true, false, []) := by decide
theorem test_advance_fetches : (after (.postAdvance 2 1#12) up).map
    (fun t => ((t.queue 2).head, (t.queue 2).cons, t.cq.resv)) = some (.fetching 0, 1, 1) := by decide
theorem test_advance_beyond : (after (.postAdvance 2 8#12) up).map
    (fun t => (t.irqPend.indexError, t.eng.errSrc, t.eng.errQ)) = some (true, .post, 2) := by decide
theorem test_advance_waits : (after (.postAdvance 2 1#12) full).map
    (fun t => ((t.queue 2).head, t.waitList)) = some (.empty, [(2, .fetch)]) := by decide
theorem test_marker_completes : (after .controlSelect (ctl up .marker)).map
    (fun t => (t.cq.wrlist.map (fun r => (r.status, r.tag)), (t.queue 1).head, t.cu.last)) =
    some ([(.ok, 0x11223344#32)], .empty, 1) := by decide
theorem test_marker_waits_in_draining :
    (after .controlSelect (ctl (inState .draining) .marker)).map (fun t => t.cq.wrlist.length) = some 0 := by decide
theorem test_retire_free : (after .controlSelect (ctl up (.retireStream 7))).map
    (fun t => t.cq.wrlist.map (fun r => r.status)) = some [.noStream] := by decide
theorem test_bind_port_off : (after .controlSelect (ctl up (.bindSlot .a 0 .unbind))).map
    (fun t => t.cq.wrlist.map (fun r => r.status)) = some [.portOff] := by decide
theorem test_body_then_phase :
    (after .bodyWriteAnswer { up with cq := { up.cq with wr := .body, wrlist := [cqZero] } }).map (fun t => t.cq.wr) =
      some .phase := by decide
theorem test_cq_error_faults :
    (after .cqWriteError { up with cq := { up.cq with wr := .body, wrlist := [cqZero] } }).map
      (fun t => (t.eng.st, t.eng.fault, t.cq.wrlist, t.irqPend.engine)) = some (.faulted, .cqWrite, [], true) := by decide
/-- Chapter 8, the coalescing example: with a count of 4 the fourth record written sets COMPLETION and stops the timer. -/
theorem test_coalescing_fourth :
    (after .phaseWriteAnswer
      { up with cq := { up.cq with wr := .phase, wrlist := [cqZero], ccount := 3, ctimer := some 100 } }).map
      (fun t => (t.irqPend.completion, t.cq.ccount, t.cq.ctimer)) = some (true, 0, none) := by decide
/-- The same example: the first record starts the timer at 200. -/
theorem test_coalescing_first :
    (after .phaseWriteAnswer { up with cq := { up.cq with wr := .phase, wrlist := [cqZero] } }).map
      (fun t => (t.irqPend.completion, t.cq.ccount, t.cq.ctimer)) = some (false, 1, some 200) := by decide
theorem test_tick : (after .tick (held { up with cq := { up.cq with ctimer := some 5 } }
    { jobIn .waiting job4 with timer := some 9 })).map
      (fun t => (t.cq.ctimer, (headJob (t.queue 0).head).map (fun j => j.timer))) = some (some 4, some (some 8)) := by decide
theorem test_grant_short : (after (.grant []) (held (up.setStream 2 (ring 3)) (jobIn .ready job4))).map
    (fun t => (t.turn, t.credit, headIn .waiting (t.queue 0).head)) = some (0, 1, true) := by decide
theorem test_grant_miss : (after (.grant []) (held (up.setStream 2 (ring 4)) (jobIn .ready job4))).map
    (fun t => ((t.stream 2).claimed, t.cache.reqs)) = some (true, [⟨0x4000#32, .job, [0]⟩]) := by decide
theorem test_master_boundary :
    (after (.bitClock .a true false)
      (up.setPort .a { PortRec.reset with mode := .master, slots := 2, div := 4, lock := .locked, bitpos := 31 })).map
      (fun t => (t.portA.bitpos, t.portA.due)) = some (0, some (.frame true)) := by decide
theorem test_hunt_lock : (after (.bitClock .b false true) (up.setPort .b
    { PortRec.reset with mode := .follower, slots := 2, lock := .hunting, candidate := some 31 })).map
      (fun t => t.portB.due) = some (some .lock) := by decide

/-- Queue 0's job runs on stream 2 with a chain of one GAIN of one half, in cache entry 5. -/
def computing (out : Endpoint) : State :=
  let s1 := (held (up.setStream 2 { ring 4 with claimed := true })
    { jobIn .running { job4 with output := out } with chainEnt := some 5 }).setEntry 5
      { Entry.free with estate := .valid, addr := 0x4000#32, stages := [.gain 0x4000#16 0], inuse := true }
  { s1 with
    store := [(256, 100#16), (257, 200#16), (258, 300#16), (259, 400#16)]
    cache := { s1.cache with lru := [5] }
    dp := { Datapath.idle with st := .compute, inputs := [⟨0, []⟩] } }

theorem test_compute_gathers : (after (.computeSample []) (computing (.memory 0x10010#32))).map
    (fun t => (t.dp.next, t.dp.gather, t.dp.finished)) = some (1, [50#16], 0) := by decide
theorem test_compute_last_writes : (after (.computeSample [])
    (let s := computing (.memory 0x10010#32); { s with dp := { s.dp with next := 3, gather := [1#16, 2#16, 3#16] } })).map
    (fun t => (t.dp.st, t.dp.endStat, t.dp.writes)) =
    some (.settle, .ok, [⟨0x10010, [1#16, 2#16, 3#16, 200#16]⟩]) := by decide
theorem test_write_answer_ends : (after (.dpWriteAnswer 0)
    (let s := computing (.memory 0x10010#32); { s with dp := { s.dp with
      st := .settle, endStat := .ok, next := 4, finished := 4, writes := [⟨0x10010, [1#16]⟩] } })).map
    (fun t => (t.dp.st, (t.stream 2).rdpos, (t.stream 2).fill, (t.entry 5).inuse, t.cq.wrlist.map (fun r => r.count))) =
    some (.idle, 4, 0, false, [4]) := by decide
theorem test_stop_request : (after .stopRequest { computing (.memory 0x10010#32) with stopReq := true }).map
    (fun t => (t.dp.st, t.stopReq, (t.stream 2).fill, (t.stream 2).claimed, t.cq.wrlist.map (fun r => r.status))) =
    some (.idle, false, 4, false, [.aborted]) := by decide

/-- R97, R112, R113: a write error discards two samples of GATHER, and of the 3 overflows counted only the one of the finished
sample is reported. -/
theorem test_bus_error_clips : (after (.dpWriteError 0)
    (let s := computing (.memory 0x10010#32); { s with dp := { s.dp with
      next := 3, finished := 1, clips := 3, clipsDone := 1, gather := [1#16, 2#16], writes := [⟨0x10010, [5#16]⟩] } })).map
    (fun t => t.cq.wrlist.map (fun r => (r.status, r.count, r.clips))) = some [(.busError, 1, 1)] := by decide
/-- R109: the write of GATHER finishes its samples, so their overflows are reported whatever comes after. -/
theorem test_gather_clips : (issueGather { job4 with output := .memory 0x10010#32 }
    { Datapath.idle with next := 2, clips := 3, clipsDone := 1, gather := [1#16, 2#16] }).clipsDone = 3 := by decide

/-- A LOCKED master with stream 9 bound to slot 0 for transmission and stream 2 to slot 1 for reception. -/
def bound : State :=
  (((up.setStream 2 (ring 59)).setStream 9 { ring 1 with base := 512, producer := .job, consumer := .portTx }).setPort .a
    { PortRec.reset with
      mode := .master, slots := 2, div := 4, lock := .locked, due := some (.frame true)
      rxword := Vector.replicate 32 0x1234#16
      map := (Vector.replicate 32 Slot.free).set 0 ⟨some (.tx, 9), none⟩ |>.set 1 ⟨some (.rx, 2), none⟩ })

/-- The take of slot 0 and the append of slot 1, of which a frame event is made. -/
theorem test_take_slot : (let t := takeSlot .a 6#32 0 { bound with store := [(512, 77#16)] }
    ((t.port .a).txhold[0], (t.stream 9).fill, (t.stream 9).stamp)) = (some 77#16, 0, 6#32) := by decide
theorem test_append_slot : (let t := appendSlot .a 6#32 1 bound
    ((t.stream 2).fill, (t.stream 2).stamp, t.store)) = (60, 6#32, [(315, 0x1234#16)]) := by decide
/-- With its ring full the append drops the sample and raises one event. -/
theorem test_append_overrun : (let t := appendSlot .a 6#32 1 (bound.setStream 2 (ring 60))
    ((t.stream 2).fill, (t.stream 2).ovrcnt, t.cq.wrlist.map (fun r => r.detail))) =
    (60, 1, [.event .streamOverrun 2 .newDropped]) := by decide
/-- A MIX body: COUNT 1, gain 4000h in bytes 1Ah and 1Bh, stream 2 in byte 19h, N 4 in bytes 10h and 11h. -/
theorem test_decode_mix : decodeBody 0 ([0x02#8, 0, 0, 0, 0, 0, 0, 0, 1#8, 1#8, 0, 0, 0, 0, 1#8, 0, 4#8, 0, 0, 0, 0, 0, 0, 0,
    0, 2#8, 0, 0x40#8] ++ List.replicate 36 0#8) = some (.data
      { kind := .mix [0x4000#16], inputs := [.stream 2], output := .memory 0x10000#32, n := 4, policy := .saturate,
        rounding := .round, monitor := false, thresh := 0, waitLimit := 0 }) := by decide

/-- A FILTER body: its own FLAGS bit MONITOR, stream 2 to byte 10010h, N 4, no context, THRESH 3E80h, the chain at 4000h. -/
theorem test_decode_filter : decodeBody 0 ([0x01#8, 2, 0, 0, 0, 0, 0, 0, 0, 2, 1, 0, 0, 0, 0, 0, 0x10, 0, 1, 0, 4, 0, 0xFF, 0, 0,
    0, 0x80, 0x3E, 0, 0, 0, 0, 0, 0x40] ++ List.replicate 30 0#8) = some (.data job4) := by decide

/-- R129, R140: the first bit clock of a master that has just locked shifts FxDIN into RXWORD 0 and stays at position 0. -/
theorem test_master_opening :
    (after (.bitClock .a true false) (up.setPort .a (loadedPort { mode := 1, slots := 2, div := 4 } PortRec.reset))).map
      (fun t => (t.portA.bitpos, t.portA.rxword[0], t.portA.due, t.portA.opening)) = some (0, 1#16, none, false) := by decide

/-! ### Every obligation's hypotheses are met

One theorem for each obligation that has hypotheses: a state and operands that meet them, for each of its clauses. -/

/-- The idle unit selects queue 1's record, the first after queue 3. -/
theorem selects_ctl (s : State) (body : ControlRec) (ha : awake s) (hr : s.eng.st = .running)
    (hc : s.cu = ControlUnit.reset) (h0 : ctlIn .controlWait (s.queue 0).head = false) :
    Selects (ctl s body) 1 5 hdr body where
  awake := ha
  running := hr
  idle := by show s.cu.work = none; rw [hc]; rfl
  head := by simp [ctl]
  first := by
    have hl : (ctl s body).cu.last = 3 := by show s.cu.last = 3; rw [hc]; rfl
    intro d hd
    rw [hl] at hd ⊢
    have : d = 0 := by revert hd; revert d; decide
    subst this
    show ctlIn .controlWait (({ s with cq := { s.cq with resv := s.cq.resv + 1 } }.setHead 1 _).queue 0).head = false
    rw [State.queue_setHead_ne _ _ (by decide)]
    exact h0

/-- A RUNNING engine selects and executes the record. -/
theorem selects_up (body : ControlRec) : Selects (ctl up body) 1 5 hdr body := selects_ctl up body rfl rfl rfl rfl

/-- The block after a pin reset with RUN waiting. -/
def waitingRun : State := { State.reset with pending := [.run] }

theorem waitingRun_heads : HeadsSound waitingRun where
  wait := ⟨by decide, fun _ h => absurd h (by simp [waitingRun, State.reset])⟩
  discard := by unfold DiscardSound; decide
  oneJob := by decide
  running := by unfold RunningSound; decide
  executing := by unfold ExecutingSound; decide
  abort := trivial
  rest := fun _ => by decide
  ring := by unfold RingSound indicesSound; decide

theorem waitingRun_engine : EngineSound waitingRun :=
  ⟨by unfold SetupSound; decide, by decide, by decide, by decide, by decide, by decide⟩

theorem waitingRun_rings : RingsSound waitingRun where
  fits := by unfold ringFits; decide
  apart := fun n _ _ hn => absurd hn (by
    have h : ∀ k : Fin 48, ¬ (waitingRun.stream k).defined = true := by decide
    exact h n)
  held := fun q => by
    have h : (waitingRun.queue q).head = .empty := by revert q; decide
    rw [h]; trivial

theorem reset_port : PortSound PortRec.reset where
  off := by decide
  master := by decide
  slots := by decide
  bitpos := by decide
  silent := by decide
  unused := by unfold slotSilent; decide
  candidate := fun _ h => by cases h
  due := trivial
  opening := fun h => by cases h

theorem waitingRun_cache : CacheSound waitingRun where
  distinct := by decide
  requests := ⟨by decide, by decide, fun _ h => by cases h⟩
  filling := by decide
  fillAddr := fun _ h => by cases h
  lru := by decide
  empty := by decide
  pinned := by decide
  held := by decide
  holder := by decide
  stale := by decide
  waitersOnce := by decide
  waitFill := fun _ h => by cases h
  waitReq := fun _ h => by cases h
  pins := by decide

theorem waitingRun_data : DataSound waitingRun := fun q => by
  have h : (waitingRun.queue q).head = .empty := by revert q; decide
  rw [h]; trivial

theorem waitingRun_bindings : BindingsSound waitingRun where
  slots := fun p j => by
    have h : (waitingRun.port p).slot j = Slot.free := by revert j; cases p <;> decide
    rw [h]; trivial
  mirrored := fun p j dir n ph => by
    have h1 : mirror (waitingRun.stream n) dir = none := by revert n; cases dir <;> decide
    have h2 : slotPhase ((waitingRun.port p).slot j) = none := by revert j; cases p <;> decide
    simp [h1, h2]
  kinds := fun n dir => by revert n; cases dir <;> decide
  rest := by decide

theorem waitingRun_streams : StreamsSound waitingRun where
  account := fun n h => absurd h (by revert n; decide)
  free := by decide
  claimed := fun n => by
    have h1 : (waitingRun.stream n).claimed = false := by revert n; decide
    have h2 : ∀ q : Fin 4, jobActive (waitingRun.queue q).head = false := by decide
    simp [h1, h2]
  stands := fun q => by
    have h : (waitingRun.queue q).head = .empty := by revert q; decide
    rw [h]; trivial
  snapshot := trivial

theorem witness_StepRunsFrontCommand : waitingRun.pending = .run :: [] ∧ State.reset.pending = [] := ⟨rfl, rfl⟩

theorem witness_CommandsRun : wellFormed .run = true ∧ (3#4).toNat < 4 ∧ writeTaken 0x18 15#4 = true ∧ 4 ≤ (4#4).toNat ∧
    0x04 ∉ [0x00, 0x08, 0x0C, 0x10, 0x14, 0x18] := by decide

theorem witness_QueueAndResetHold : (∃ t, exec .run State.reset = .next t) ∧
    ∃ s t : State, s.eng.inReset = true ∧ exec .run s = .next t ∧ Instr.run ≠ .pinReset ∧ Instr.run ≠ .resetRelease ∧
      ∀ k n, Instr.run ≠ .staleAnswerDiscard k n :=
  ⟨⟨_, rfl⟩, { State.reset with eng := { Engine.reset with inReset := true } }, _, rfl, rfl, by decide, by decide, nofun⟩

theorem witness_WritesDecode : (14#4) ≠ 15#4 ∧ writeTaken 0x04 15#4 = false ∧ writeTaken 0x1C 15#4 = false := by decide

theorem witness_StoreStaysSound : StoreSound waitingRun ∧ ∃ t, step waitingRun = .next t := ⟨by decide, _, rfl⟩
theorem witness_HeadsStaySound : HeadsSound waitingRun ∧ EngineSound waitingRun ∧ ∃ t, step waitingRun = .next t :=
  ⟨waitingRun_heads, waitingRun_engine, _, rfl⟩
theorem witness_EngineStaysSound : HeadsSound waitingRun ∧ EngineSound waitingRun ∧ ∃ t, step waitingRun = .next t :=
  ⟨waitingRun_heads, waitingRun_engine, _, rfl⟩
theorem witness_RingsStaySound : RingsSound waitingRun ∧ ∃ t, step waitingRun = .next t := ⟨waitingRun_rings, _, rfl⟩
theorem witness_PortsStaySound : PortsSound waitingRun ∧ ∃ t, step waitingRun = .next t := ⟨⟨reset_port, reset_port⟩, _, rfl⟩
theorem witness_CacheStaysSound :
    HeadsSound waitingRun ∧ EngineSound waitingRun ∧ CacheSound waitingRun ∧ ∃ t, step waitingRun = .next t :=
  ⟨waitingRun_heads, waitingRun_engine, waitingRun_cache, _, rfl⟩
theorem witness_ContextsStaySound :
    HeadsSound waitingRun ∧ EngineSound waitingRun ∧ ContextsSound waitingRun ∧ ∃ t, step waitingRun = .next t :=
  ⟨waitingRun_heads, waitingRun_engine, ⟨by decide, by decide, by decide⟩, _, rfl⟩
theorem witness_DatapathStaysSound :
    HeadsSound waitingRun ∧ DataSound waitingRun ∧ DatapathSound waitingRun ∧ ∃ t, step waitingRun = .next t :=
  ⟨waitingRun_heads, waitingRun_data, by show waitingRun.dp = _; rfl, _, rfl⟩
theorem witness_BindingsStaySound :
    EngineSound waitingRun ∧ PortsSound waitingRun ∧ BindingsSound waitingRun ∧ ∃ t, step waitingRun = .next t :=
  ⟨waitingRun_engine, ⟨reset_port, reset_port⟩, waitingRun_bindings, _, rfl⟩
theorem witness_StreamsStaySound : HeadsSound waitingRun ∧ EngineSound waitingRun ∧ DataSound waitingRun ∧
    RingsSound waitingRun ∧ PortsSound waitingRun ∧ BindingsSound waitingRun ∧ StreamsSound waitingRun ∧
    ∃ t, step waitingRun = .next t :=
  ⟨waitingRun_heads, waitingRun_engine, waitingRun_data, waitingRun_rings, ⟨reset_port, reset_port⟩, waitingRun_bindings,
    waitingRun_streams, _, rfl⟩

theorem witness_SetupAddressRule : awake State.reset ∧ State.reset.eng.st = .off ∧ awake up ∧ up.eng.st ≠ .off ∧
    (∃ t, exec .pinReset up = .next t) ∧ ∃ t, exec .halt up = .next t ∧ Instr.halt ≠ .pinReset ∧
      ∀ v, Instr.halt ≠ .setupadrWrite v := ⟨rfl, rfl, rfl, by decide, ⟨_, rfl⟩, _, rfl, by decide, nofun⟩

theorem witness_IrqMaskRule : awake up ∧ (∃ t, exec .pinReset up = .next t) ∧
    (awake (inState .halted) ∧ (inState .halted).eng.st = .halted ∧ ∃ t, exec .clear (inState .halted) = .next t) ∧
    (inState .faulted).eng.st = .faulted ∧ State.reset.eng.st = .off ∧
    ∃ t, exec .halt up = .next t ∧ Instr.halt ≠ .pinReset ∧ ∀ v, Instr.halt ≠ .irqmaskWrite v :=
  ⟨rfl, ⟨_, rfl⟩, ⟨rfl, rfl, _, rfl⟩, rfl, rfl, _, rfl, by decide, nofun⟩

/-- The bytes of a setup record without queues, a ring of 16 entries and both ports OFF. -/
def plainSetup : List Byte :=
  List.replicate 64 0#8 ++ [0#8, 0x80#8, 0#8, 0#8, 16#8, 0#8, 1#8] ++ List.replicate 57 0#8

/-- That record read but for its last byte. -/
def setupLast : ReadBuf := { cells := (plainSetup.take 127).map some ++ [none], err := false }

set_option maxRecDepth 20000 in
theorem witness_FrameCounterRule : (∃ t, exec (.frameEvent .a) bound = .next t) ∧
    (awake bound ∧ (bound.port .a).due = some (.frame true)) ∧
    (awake (inState .halted) ∧ (inState .halted).eng.st = .halted) ∧ State.reset.eng.st = .off ∧
    (inState .faulted).eng.st = .faulted ∧
    (let s := { inState .configuring with eng := { Engine.reset with st := .configuring, setup := some setupLast } }
     awake s ∧ s.eng.setup = some setupLast) ∧
    (answerFits setupLast 127 (answerLength (.ok [0#8])) = true ∧ 127 / 64 = (127 + answerLength (.ok [0#8]) - 1) / 64 ∧
      bufDone (bufTake setupLast 127 (.ok [0#8])) = true ∧ (bufTake setupLast 127 (.ok [0#8])).err = false ∧
      ∀ x ∈ setupChecks (decodeSetup (bufBytes (bufTake setupLast 127 (.ok [0#8])))), x.ok = true) :=
  ⟨⟨_, rfl⟩, by decide⟩

theorem witness_StoppedEngineIsSilent :
    (∃ t, exec .tick (inState .halted) = .next t ∧ (inState .halted).eng.st ≠ .running ∧ t.eng.st ≠ .running) ∧
    (((inState .halted).setHead 0 (.fetching 3)).queue 0).head = .fetching 3 ∧
    ∃ s t : State, EngineSound s ∧ s.eng.st = .faulted ∧ exec .tick s = .next t ∧ Instr.tick ≠ .clear ∧
      Instr.tick ≠ .pinReset :=
  ⟨⟨_, rfl, by decide, by decide⟩, rfl,
    { inState .faulted with eng := { Engine.reset with st := .faulted, fault := .cqWrite } }, _,
    ⟨by unfold SetupSound; decide, by decide, by decide, by decide, by decide, by decide⟩, rfl, rfl, by decide, by decide⟩

/-- Queue 0 has one record to fetch. -/
def posted : State := up.setQueue 0 { q8 with prod := 1 }

theorem witness_EligibleQueueAsks :
    up.queue 0 = q8 ∧ (up.queue 0).prod = (up.queue 0).cons ∧
    (posted.eng.st = .running ∧ (posted.queue 0).state = .active ∧ (posted.queue 0).prod ≠ (posted.queue 0).cons ∧
      (posted.queue 0).head = .empty ∧ (posted.queue 0).flushPend = false ∧ posted.waitList = [] ∧
      freeCount posted.cq ≠ 0) ∧ freeCount { posted with cq := full.cq }.cq = 0 := by decide

theorem witness_CompletingAHead :
    (inState .faulted).eng.st = .faulted ∧ up.eng.st ≠ .faulted ∧
    (let u := { up with cq := cqPostReserved up.cq cqZero }.setQueue 0 { q8 with head := .empty }
     (u.queue 0).flushPend = false) ∧
    (let u := { up with cq := cqPostReserved up.cq cqZero }.setQueue 0 { q8 with flushPend := true }
     (u.queue 0).flushPend = true ∧ freeCount u.cq ≠ 0) ∧
    (let u := { up with cq := cqPostReserved { full.cq with tailx := 15, resv := 1 } cqZero }.setQueue 0
      { q8 with flushPend := true }
     (u.queue 0).flushPend = true ∧ freeCount u.cq = 0 ∧ u.waitList = []) := by decide

theorem witness_CompletionLayout :
    (cqZero.count < 2 ^ 16 ∧ cqZero.clips < 2 ^ 16 ∧ cqZero.peak < 2 ^ 16 ∧ cqZero.peakIdx < 2 ^ 16 ∧
      cqZero.overCnt < 2 ^ 16 ∧ cqZero.detail = .none) ∧
    { cqZero with detail := .trap 5 1023 }.detail = .trap 5 1023 ∧ 5 < 6 ∧ 1023 < 1024 ∧
    { cqZero with detail := .entry 7 }.detail = .entry 7 ∧
    { cqZero with detail := .event .streamUnderrun 47 .empty }.detail = .event .streamUnderrun 47 .empty ∧ 47 < 48 ∧
    { cqZero with detail := .summary ⟨true, true, true, true⟩ }.detail = .summary ⟨true, true, true, true⟩ := by decide

theorem witness_EventRule : (inState .faulted).eng.st = .faulted ∧ live up = true ∧ freeCount full.cq = 0 ∧ live full = true ∧
    freeCount up.cq ≠ 0 ∧ up.cq.foldSet = ⟨false, false, false, false⟩ ∧
    (let s := { up with cq := { up.cq with foldSet := ⟨true, false, false, false⟩, foldCnt := 1 } }
     live s = true ∧ freeCount s.cq ≠ 0 ∧ s.cq.foldSet ≠ ⟨false, false, false, false⟩) := by decide

/-- Three completions are posted and not returned. -/
def three : State := { up with cq := { up.cq with tailx := 3 } }

theorem witness_CqheadWriteRule : awake three ∧ awake State.reset ∧ State.reset.eng.st = .off ∧
    (three.cq.headx < 2 * three.cq.size ∧ (0#16).toNat = three.cq.headx) ∧
    2 * three.cq.size ≤ (32#16).toNat ∧
    postedCount three.cq < ((4#16).toNat + 2 * three.cq.size - three.cq.headx) % (2 * three.cq.size) ∧
    (three.eng.st ≠ .off ∧ three.eng.st ≠ .configuring ∧ (3#16).toNat < 2 * three.cq.size ∧
      ((3#16).toNat + 2 * three.cq.size - three.cq.headx) % (2 * three.cq.size) ≤ postedCount three.cq ∧
      three.eng.st ≠ .faulted ∧ ((3#16).toNat + 2 * three.cq.size - three.cq.headx) % (2 * three.cq.size) ≠ 0 ∧
      three.cq.foldSet = ⟨false, false, false, false⟩ ∧ three.waitList = []) ∧
    (inState .faulted).eng.st = .faulted ∧
    (let c := { three.cq with foldSet := ⟨false, true, false, false⟩ }
     c.foldSet ≠ ⟨false, false, false, false⟩ ∧ freeCount c ≠ 0) ∧ freeCount full.cq = 0 := by decide

theorem witness_WaitListServedInOrder : (inState .halted).eng.st ≠ .running ∧ live up = true ∧ live full = true ∧
    freeCount full.cq = 0 ∧ full.eng.st = .running ∧ freeCount up.cq ≠ 0 ∧ (up.queue 0).head = .empty ∧
    (let r : QueueRec := { q8 with head := .fetching 3, discard := true }; r.head = .fetching 3 ∧ r.discard = true) := by decide

/-- One record's phase write is outstanding. -/
def phased (now : Bool) (count : Nat) : State :=
  { up with cq := { up.cq with wr := .phase, wrlist := [{ cqZero with irqNow := now }], ccount := count } }

theorem witness_CoalescingRule : awake (phased true 0) ∧ (phased true 0).cq.wr = .phase ∧
    (phased true 0).cq.wrlist = [{ cqZero with irqNow := true }] ∧ (phased false 3).cq.ccount + 1 = (phased false 3).cq.cthresh ∧
    ((phased false 0).cq.ccount + 1 ≠ (phased false 0).cq.cthresh ∧ (phased false 0).cq.ccount = 0 ∧
      (phased false 0).cq.cdelay ≠ 0) ∧
    ((phased false 1).cq.ccount + 1 ≠ (phased false 1).cq.cthresh ∧ (phased false 1).cq.ccount ≠ 0) ∧
    { up.cq with ctimer := some 0, ccount := 1 }.ctimer = some 0 ∧ { up.cq with ctimer := some 0 }.ccount = 0 := by decide

theorem witness_CompletionWriteAnswers : awake (phased true 0) ∧ (phased true 0).cq.wr ≠ .idle ∧
    { up with cq := { up.cq with wr := .body } }.cq.wr = .body := by decide

theorem witness_RegisterWrites : awake up ∧ (7#4 ≠ 15#4) ∧ 0x04 ∉ [0x00, 0x08, 0x0C, 0x10, 0x14, 0x18] ∧ 4 ≤ (4#4).toNat ∧
    (up.eng.st ≠ .off ∧ up.eng.st ≠ .halted) ∧ (inState .halted).eng.st ≠ .running ∧
    (up.eng.st ≠ .off ∧ up.eng.st ≠ .halted ∧ up.eng.st ≠ .faulted) ∧
    { up.eng with faultIdx := 4 }.faultIdx ≤ 4 ∧ 0x0C ∉ [0x04, 0x08, 0x10, 0x14, 0x18] := by decide

theorem witness_RunStarts : awake State.reset ∧ State.reset.eng.st = .off ∧ State.reset.eng.setupAdr.toNat % 64 = 0 ∧
    State.reset.eng.setupAdr.toNat + 128 ≤ 2 ^ 32 ∧ ¬ ((0xFFFFFFC0#32).toNat + 128 ≤ 2 ^ 32) ∧
    (0xFFFFFF80#32).toNat + 128 ≤ 2 ^ 32 ∧ awake (inState .halted) ∧ (inState .halted).eng.st = .halted ∧
    (inState .halted).waitList = [] ∧ ∀ q : Fin 4, eligible up q = false := by decide

theorem witness_HaltDrains : awake up ∧ up.eng.st = .running ∧ (∀ q : Fin 4, jobActive (up.queue q).head = false) ∧
    up.cu.work = none ∧ up.cache.fill = none ∧ up.cache.reqs = [] ∧
    (∃ q : Fin 4, jobActive ((held up (jobIn .running job4)).queue q).head = true) ∧
    (inState .draining).eng.st = .draining ∧ up.eng.st ≠ .draining := by decide

theorem witness_ClearResets : awake (inState .halted) ∧ (inState .halted).eng.st = .halted ∧ awake (inState .faulted) ∧
    (inState .faulted).eng.st = .faulted ∧ awake State.reset ∧ State.reset.eng.st = .off := by decide

/-- A fetch and a completion write of before a reset. -/
def staleTwo : State := { State.reset with stale := [⟨.headFetch 0, 0x1000, 64⟩, ⟨.cqWrite, 0x8000, 31⟩] }

theorem witness_PinResetAndRelease : staleTwo.stale[0]? = some ⟨.headFetch 0, 0x1000, 64⟩ ∧ 64 ≤ 64 ∧ 63 < 64 := by decide

/-- A setup read of which `n` bytes are still to come, all the others 0. -/
def setupOpen (n : Nat) : ReadBuf := { cells := List.replicate (128 - n) (some 0#8) ++ List.replicate n none, err := false }

set_option maxRecDepth 20000 in
theorem witness_SetupAnswers :
    (126 + answerLength (.ok [0#8]) ≤ (setupOpen 2).cells.length ∧ 127 + answerLength (.error 1) ≤ (setupOpen 1).cells.length ∧
      (setupOpen 1).cells[0]? = some (some 0#8)) ∧
    (answerFits (setupOpen 2) 126 (answerLength (.ok [0#8])) = true ∧ 126 / 64 = (126 + 1 - 1) / 64 ∧
      bufDone (bufTake (setupOpen 2) 126 (.ok [0#8])) = false) ∧
    (answerFits (setupOpen 1) 127 (answerLength (.error 1)) = true ∧
      bufDone (bufTake (setupOpen 1) 127 (.error 1)) = true ∧ (bufTake (setupOpen 1) 127 (.error 1)).err = true) ∧
    (bufDone (bufTake (setupOpen 1) 127 (.ok [0#8])) = true ∧ (bufTake (setupOpen 1) 127 (.ok [0#8])).err = false) ∧
    setupChecks (decodeSetup (List.replicate 128 0#8)) =
      [⟨true, .cqAlign, 4⟩] ++ ⟨false, .cqSize, 4⟩ :: (setupChecks (decodeSetup (List.replicate 128 0#8))).drop 2 ∧
    (∀ x ∈ setupChecks (decodeSetup plainSetup), x.ok = true) ∧
    ((⟨0, 0, 0⟩ : SetupPort).mode = 0 ∧ (⟨1, 2, 4⟩ : SetupPort).mode = 1 ∧ (⟨2, 32, 0⟩ : SetupPort).mode = 2) ∧
    ((([0, 1, 2, 3] : List (Fin 4)).filter (fun q => (decodeSetup plainSetup).queues[q.val].present)).map
      (fun q => (⟨q.val, (decodeSetup plainSetup).queues[q.val].base.toNat,
        64 * (decodeSetup plainSetup).queues[q.val].size⟩ : MemRing)) ++ [⟨4, 0x8000, 32 * 16⟩] =
      [] ++ (⟨4, 0x8000, 512⟩ : MemRing) :: []) := by decide

theorem witness_PostAdvanceRule : awake up ∧ up.queue 2 = q8 ∧ State.reset.eng.st = .off ∧
    (State.reset.queue 2).state = .absent ∧ q8.size ≤ (8#12).toNat ∧
    (q8.size - 1 < (({ q8 with prod := 7, cons := 1 }).prod + 8 - 1) % 8 + ((1#12).toNat + 8 - 7) % 8) ∧
    (up.eng.st ≠ .off ∧ up.eng.st ≠ .configuring ∧ q8.state ≠ .absent ∧ (7#12).toNat < q8.size ∧
      (q8.prod + q8.size - q8.cons) % q8.size + ((7#12).toNat + q8.size - q8.prod) % q8.size ≤ q8.size - 1) := by decide

theorem witness_PostRestartRule : awake up ∧ q8.state ≠ .stopped ∧
    (up.setQueue 0 { q8 with state := .stopped }).queue 0 = { q8 with state := .stopped } ∧
    (inState .draining).eng.st ≠ .running := by decide

theorem witness_PostFlushRule : awake up ∧ live State.reset = false ∧ (State.reset.queue 0).state = .absent ∧
    live up = true ∧ (up.queue 0).state ≠ .absent ∧
    (up.setQueue 0 { q8 with flushPend := true }).queue 0 = { q8 with flushPend := true } ∧
    jobActive ((held up (jobIn .running job4)).queue 0).head = true ∧
    jobQueued ((held up (jobIn .waiting job4)).queue 0).head = true ∧
    ctlIn .controlWait ((ctl up .marker).queue 1).head = true ∧
    ((posted.setHead 0 (.fetching 0)).queue 0).head = .fetching 0 ∧ q8.discard = false ∧
    (up.queue 0).head = .empty ∧ freeCount up.cq ≠ 0 ∧ freeCount full.cq = 0 ∧ full.waitList = [] ∧
    (∃ e ∈ { full with waitList := [((0 : Fin 4), Purpose.fetch)] }.waitList, e.1 = 0) := by decide

/-- Queue 0 is fetching ring position 0. -/
def fetching (discard : Bool) : State := posted.setQueue 0 { q8 with prod := 1, cons := 1, head := .fetching 0, discard }

/-- The 64 bytes of a record of a kind with four bytes of its body and the rest 0. -/
def recBytes (kind a b c d : Byte) : List Byte := [kind, 0, 0, 0, 0, 0, 0, 0, a, b, c, d] ++ List.replicate 52 0#8

/-- Boundary values of the fields that the decode checks look at. -/
theorem witness_FetchAnswers_decode :
    ((0xFFFFFFF8#32).toNat % 2 = 0 ∧ (0xFFFFFFF8#32).toNat + 2 * 4 ≤ 2 ^ 32) ∧ 2 ^ 32 < (0xFFFFFFFA#32).toNat + 2 * 4 ∧
    num8 (recBytes 1 0 0 0 0) 0 = 0x01 ∧ num8 (recBytes 2 0 0 0 0) 0 = 0x02 ∧ num8 (recBytes 3 0 0 0 0) 0 = 0x03 ∧
    num8 (recBytes 0x0B 0 0 0 0) 0 = 0x0B ∧ num8 (recBytes 0 0 0 0 0) 0 = 0 ∧
    (num8 (recBytes 4 47 0 0 0) 0 = 0x04 ∧ num8 (recBytes 4 47 0 0 0) 8 = (47 : Fin 48).val) ∧
    (num8 (recBytes 5 47 0 0 0) 0 = 0x05 ∧ num8 (recBytes 5 47 0 0 0) 8 = (47 : Fin 48).val ∧
      (word (recBytes 5 47 0 0 0) 0x0C).toNat % 32 = 0) ∧
    (∀ action : Fin 3, num8 (recBytes 6 1 31 (BitVec.ofNat 8 action.val) 47) 0 = 0x06 ∧
      num8 (recBytes 6 1 31 (BitVec.ofNat 8 action.val) 47) 8 = 1 ∧
      num8 (recBytes 6 1 31 (BitVec.ofNat 8 action.val) 47) 9 = (31 : Fin 32).val ∧
      num8 (recBytes 6 1 31 (BitVec.ofNat 8 action.val) 47) 0x0A = action.val ∧
      num8 (recBytes 6 1 31 (BitVec.ofNat 8 action.val) 47) 0x0B = (47 : Fin 48).val) ∧
    (num8 (recBytes 7 4 0 0 0) 0 = 0x07 ∧ num8 (recBytes 7 4 0 0 0) 8 = 4) ∧
    (num8 (recBytes 8 31 0 0 0) 0 = 0x08 ∧ num8 (recBytes 8 31 0 0 0) 8 = (31 : Fin 32).val) ∧
    (num8 (recBytes 9 3 0 0 0) 0 = 0x09 ∧ num8 (recBytes 9 3 0 0 0) 8 = (3 : Fin 4).val ∧ (3 : Fin 4) ≠ 0) ∧
    num8 (recBytes 10 0 0 0 0) 0 = 0x0A ∧
    (decodeBody 0 (recBytes 7 5 0 0 0) = none ∧ byteAt (recBytes 7 5 0 0 0) 0 = 0x07#8) ∧
    (decodeBody 0 (recBytes 8 32 0 0 0) = none ∧ byteAt (recBytes 8 32 0 0 0) 0 = 0x08#8) ∧
    (decodeBody 0 (recBytes 4 48 0 0 0) = none ∧ byteAt (recBytes 4 48 0 0 0) 0 ≠ 0x07#8 ∧
      byteAt (recBytes 4 48 0 0 0) 0 ≠ 0x08#8) := by decide

theorem witness_FetchAnswers : awake (fetching true) ∧ ((fetching true).queue 0).head = .fetching 0 ∧
    ((fetching true).queue 0).discard = true ∧ ((fetching false).queue 0).discard = false ∧
    (List.replicate 64 0#8).length = 64 ∧ decodeBody 0 (List.replicate 64 0#8) = none ∧
    decodeBody 0 (0x0A#8 :: List.replicate 63 0#8) = some (.control .marker) ∧
    (0x0A#8 :: List.replicate 63 0#8).length = 64 ∧
    jobCheck (fetching false) job4 = some .noStream ∧ jobCheck ((fetching false).setStream 2 (ring 4)) job4 = none := by decide

theorem witness_ClearContextRule :
    num8 ([0x08#8, 0, 0, 0, 0, 0, 0, 0, 32#8] ++ List.replicate 55 0#8) 0 = 0x08 ∧
    Selects (ctl up (.clearContext 7)) 1 5 hdr (.clearContext 7) ∧
    ((ctl (up.setContext 7 ⟨some 0x40#32, bqZero, true⟩) (.clearContext 7)).context 7).held = true ∧
    Selects (ctl (up.setContext 7 ⟨some 0x40#32, bqZero, true⟩) (.clearContext 7)) 1 5 hdr (.clearContext 7) ∧
    ((ctl (up.setContext 7 ⟨some 0x40#32, bqZero, false⟩) (.clearContext 7)).context 7).binding ≠ none ∧
    Selects (ctl (up.setContext 7 ⟨some 0x40#32, bqZero, false⟩) (.clearContext 7)) 1 5 hdr (.clearContext 7) ∧
    ((ctl up (.clearContext 7)).context 7).binding = none ∧
    Selects (ctl (up.setHead 2 (.control 6 hdr (.clearContext 7) .controlWait)) (.abort 2 hdr.tag)) 1 5 hdr
      (.abort 2 hdr.tag) ∧
    ((ctl (up.setHead 2 (.control 6 hdr (.clearContext 7) .controlWait)) (.abort 2 hdr.tag)).queue 2).head =
      .control 6 hdr (.clearContext 7) .controlWait :=
  ⟨by decide, selects_up _, by decide, selects_ctl _ _ rfl rfl rfl rfl, by decide, selects_ctl _ _ rfl rfl rfl rfl, by decide,
    selects_ctl _ _ rfl rfl rfl rfl, by decide⟩

/-- A DEFINE_STREAM of stream 3 beside stream 2's ring at 256 to 319. -/
def define3 (base : Nat) : ControlRec := .defineStream 3 base 64 4 .job .portTx .dropNew 0

theorem witness_DefineStreamRule :
    (∀ base, Selects (ctl (up.setStream 2 (ring 0)) (define3 base)) 1 5 hdr (define3 base)) ∧
    (∃ m : Fin 48, m ≠ 3 ∧ ((up.setStream 2 (ring 0)).stream m).defined = true ∧
      319 < ((up.setStream 2 (ring 0)).stream m).base + ((up.setStream 2 (ring 0)).stream m).length ∧
      ((up.setStream 2 (ring 0)).stream m).base < 319 + 64) ∧
    (¬ ∃ m : Fin 48, m ≠ 3 ∧ ((up.setStream 2 (ring 0)).stream m).defined = true ∧
      320 < ((up.setStream 2 (ring 0)).stream m).base + ((up.setStream 2 (ring 0)).stream m).length ∧
      ((up.setStream 2 (ring 0)).stream m).base < 320 + 64) ∧
    ((up.setStream 2 (ring 0)).stream 3).defined = false ∧ ((up.setStream 3 (ring 0)).stream 3).defined = true ∧
    StoreSound up ∧ 32704 + 64 ≤ 32768 ∧ 4 ≤ 64 :=
  ⟨fun _ => selects_ctl _ _ rfl rfl rfl rfl, by decide, by decide, by decide, by decide, by decide, by decide, by decide⟩

theorem witness_RetireStreamRule :
    num8 ([0x04#8, 0, 0, 0, 0, 0, 0, 0, 48#8] ++ List.replicate 55 0#8) 0 = 0x04 ∧
    (∀ r : StreamRec, Selects (ctl (up.setStream 2 r) (.retireStream 2)) 1 5 hdr (.retireStream 2)) ∧
    (up.stream 2).defined = false ∧ { ring 0 with claimed := true }.claimed = true ∧ (ring 0).claimed = false ∧
    { ring 0 with rxbind := some ⟨.a, 0, .pending⟩ }.rxbind ≠ none ∧ (ring 0).defined = true ∧ (ring 0).rxbind = none ∧
    (ring 0).txbind = none :=
  ⟨by decide, fun _ => selects_ctl _ _ rfl rfl rfl rfl, by decide, by decide, by decide, by decide, by decide, by decide,
    by decide⟩

/-- Queue 1's READ_STREAM waits for its snapshot write. -/
def snapping : State :=
  { up with cu := { work := some (.snapshot 1 2 0x2000#32 true []), last := 1 } }.setHead 1
    (.control 5 hdr (.readStream 2 0x2000#32 true) .executing)

theorem witness_ReadStreamRule :
    ((ring 60).base < 2 ^ 16 ∧ (ring 60).length < 2 ^ 16 ∧ (ring 60).hist < 2 ^ 8 ∧ (ring 60).wrpos < 2 ^ 16 ∧
      (ring 60).rdpos < 2 ^ 16 ∧ (ring 60).fill < 2 ^ 16 ∧ (ring 60).ovrcnt < 2 ^ 16 ∧ (ring 60).undcnt < 2 ^ 16) ∧
    (∀ r : StreamRec, Selects (ctl (up.setStream 2 r) (.readStream 2 0x2000#32 true)) 1 5 hdr (.readStream 2 0x2000#32 true)) ∧
    (up.stream 2).defined = false ∧ (ring 0).defined = true ∧
    awake snapping ∧ snapping.cu.work = some (.snapshot 1 2 0x2000#32 true []) ∧
    (snapping.queue 1).head = .control 5 hdr (.readStream 2 0x2000#32 true) .executing :=
  ⟨by decide, fun _ => selects_ctl _ _ rfl rfl rfl rfl, by decide, by decide, rfl, rfl, rfl⟩

/-- A port in a lock state with a slot map entry in slot 1. -/
def portIn (mode : PortMode) (lock : LockState) (x : Slot) : PortRec :=
  { PortRec.reset with mode, slots := 2, div := 4, lock, map := (Vector.replicate 32 Slot.free).set 1 x }

theorem witness_BindSlotRule :
    (∀ (r : PortRec) (x : StreamRec) (a : BindAction), Selects (ctl ((up.setStream 2 x).setPort .a r) (.bindSlot .a 1 a)) 1 5
      hdr (.bindSlot .a 1 a)) ∧
    (bindStatus up .a 1 .unbind ≠ .ok) ∧ (ring 0).producer = .portRx ∧ (up.port .a).lock = .off ∧
    (portIn .master .locked Slot.free).lock ≠ .off ∧ (portIn .master .locked Slot.free).slots ≤ (2 : Fin 32).val ∧
    (1 : Fin 32).val < (portIn .master .locked Slot.free).slots ∧ (up.stream 2).defined = false ∧
    bindKindOk (ring 0) .tx = false ∧ bindKindOk (ring 0) .rx = true ∧
    ((portIn .master .locked ⟨some (.rx, 2), none⟩).slot 1).current ≠ none ∧
    ((portIn .master .locked Slot.free).slot 1).current = none ∧ ((portIn .master .locked Slot.free).slot 1).pending = none ∧
    mirror { ring 0 with rxbind := some ⟨.b, 0, .current⟩ } .rx ≠ none ∧ mirror (ring 0) .rx = none ∧
    (portIn .follower .hunting Slot.free).lock = .hunting ∧
    ((portIn .master .locked ⟨some (.rx, 2), some (.unbind 3)⟩).slot 1).pending ≠ none ∧
    ((portIn .master .locked ⟨some (.rx, 2), none⟩).slot 1).current = some (.rx, 2) := by
  refine ⟨fun _ _ _ => selects_ctl _ _ rfl rfl rfl rfl, ?_⟩
  decide

/-- Entry 6 holds an address in an ESTATE. -/
def cached (st : EState) (stale inuse pinned : Bool) : State :=
  let s1 := up.setEntry 6 { estate := st, addr := 0x4000#32, stages := [], pinned, inuse, stale }
  { s1 with cache := { s1.cache with
      lru := (if st = .valid ∧ stale = false then [6] else [])
      fill := (if st = .filling then some { addr := 0x4000#32, entry := 6, waiters := [], part := .header, buf := bufNew 16,
                                            count := 0, coefAdr := 0, taps := 0 } else none) } }

/-- A request stands in a place. -/
def asked (addr : Word) (p : Place) : State := { up with cache := { up.cache with reqs := [⟨addr, p, [2]⟩] } }

/-- A pinned entry. -/
def pinnedEntry : Entry := { Entry.free with estate := .valid, addr := 0x40#32, pinned := true }

/-- Every entry is pinned. -/
def allPinned : State := { up with cache := { up.cache with entries := Vector.replicate 8 pinnedEntry } }

/-- Seven entries are pinned; entry 6 holds an address unpinned. -/
def sevenPinned : State :=
  { up with cache := { up.cache with
      entries := (Vector.replicate 8 pinnedEntry).set 6 { pinnedEntry with addr := 0x4000#32, pinned := false }, lru := [6] } }

/-- Status and CHAIN_HIT of the completion with which a CHAIN_CONTROL record of address 4000h ends. -/
def chainEnds (s : State) (a : ChainAction) : Option (List (Status × Bool)) :=
  (after .controlSelect (ctl s (.chainControl a 0x4000#32))).map (fun t => t.cq.wrlist.map (fun r => (r.status, r.chainHit)))

/-- R89: the address was found VALID and no fill was made. -/
theorem test_chain_hit_pin_limit : chainEnds sevenPinned .loadPin = some [(.pinLimit, true)] := by decide
/-- R89: a stale entry in use is VALID, a stale one being filled is not. -/
theorem test_chain_hit_in_use : chainEnds (cached .valid true true false) .load = some [(.inUse, true)] ∧
    chainEnds (cached .filling true false false) .load = some [(.inUse, false)] := by decide

theorem witness_ChainControlRule :
    (∀ (s : State) (a : ChainAction), awake s → s.eng.st = .running → s.cu = ControlUnit.reset →
      ctlIn .controlWait (s.queue 0).head = false →
      Selects (ctl s (.chainControl a 0x4000#32)) 1 5 hdr (.chainControl a 0x4000#32)) ∧
    (true = true ↔ (true = true → 0x4000#32 ∈ pendingPins up ∨ pinCount up < 7)) ∧
    (false = true ↔ (true = true → 0x4000#32 ∈ pendingPins allPinned ∨ pinCount allPinned < 7)) ∧
    (∀ st ∈ [EState.filling, .valid], ((cached st false false false).entry 6).estate ≠ .empty ∧
      ((cached st false false false).entry 6).addr = 0x4000#32 ∧
      ∀ y : Fin 8, ((cached st false false false).entry y).estate ≠ .empty → y = 6) ∧
    ((cached .valid true true false).entry 6).stale = true ∧ 6 ∉ (cached .valid true true false).cache.lru ∧
    (∀ x : Fin 8, (up.entry x).estate = .empty) ∧ (∃ r ∈ (asked 0x4000#32 .job).cache.reqs, r.addr = 0x4000#32) ∧
    (∀ r ∈ (asked 0x8000#32 .control).cache.reqs, r.addr ≠ 0x4000#32) ∧
    (∃ r ∈ (asked 0x8000#32 .control).cache.reqs, r.place = .control) ∧
    (∀ r ∈ (asked 0x8000#32 .job).cache.reqs, r.place ≠ .control) ∧
    (6 ∈ (cached .valid false false false).cache.lru ∧ 6 ∉ (cached .filling false false false).cache.lru) ∧
    (((cached .filling true false false).entry 6).stale = true ∧
      ((cached .filling true false false).entry 6).estate = .filling) ∧
    ((sevenPinned.entry 6).stale = false ∧ (sevenPinned.entry 6).pinned = false ∧ ¬ pinCount sevenPinned < 7 ∧
      0x4000#32 ∉ pendingPins sevenPinned) := by
  refine ⟨fun s a h1 h2 h3 h4 => selects_ctl _ _ h1 h2 h3 h4, ?_⟩
  decide

/-- Queue 2 holds a record, and queue 1 an ABORT of it. -/
def aborting (h : Head) : State := ctl (up.setHead 2 h) (.abort 2 hdr.tag)

/-- A STARTING job that waits for the JOB place. -/
def seeking : JobRec := { jobIn .starting job4 with chainWait := .requested }

theorem witness_AbortAndMarkerRule :
    Selects (ctl up .marker) 1 5 hdr .marker ∧ (∀ h : Head, Selects (aborting h) 1 5 hdr (.abort 2 hdr.tag)) ∧
    (2 : Fin 4) ≠ 1 ∧ ((aborting .empty).queue 2).head = .empty ∧ ((aborting (.fetching 3)).queue 2).head = .fetching 3 ∧
    (∀ h : Head, ((aborting h).queue 2).head = h) ∧ ({ hdr with tag := 0#32 } : Header).tag ≠ hdr.tag ∧
    (jobIn .waiting job4).jstate = .waiting ∧ (jobIn .starting job4).jstate = .starting ∧
    (jobIn .running job4).jstate = .running ∧
    (portIn .master .locked ⟨none, some (.bind .rx 2 2)⟩).slot 1 = { current := none, pending := some (.bind .rx 2 2) } ∧
    (portIn .master .locked ⟨some (.rx, 2), some (.unbind 2)⟩).slot 1 =
      { current := some (.rx, 2), pending := some (.unbind 2) } ∧
    (∀ r : Fin 4, headIn .starting (up.queue r).head = false) ∧
    (∀ s ∈ [asked 0x8000#32 .job, asked 0x4000#32 .control, up, cached .valid false false false,
        cached .filling false false false],
      ((held s seeking).queue 0).head = .data 3 hdr seeking ∧ (∀ r ∈ (held s seeking).cache.reqs, 0 ∉ r.waiters) ∧
      ∀ r : Fin 4, r ≠ 0 → headIn .starting ((held s seeking).queue r).head = false) ∧
    (∃ r ∈ (held (asked 0x8000#32 .job) seeking).cache.reqs, r.place = .job) ∧
    (∀ r ∈ (held (asked 0x4000#32 .control) seeking).cache.reqs, r.place ≠ .job ∧ r.addr = 0x4000#32) ∧
    seeking.data.kind = .filter 0x4000#32 none ∧ seeking.chainEnt = none ∧
    { seeking with chainEnt := some 6 }.chainEnt = some 6 := by
  refine ⟨selects_up _, fun _ => selects_ctl _ _ rfl rfl rfl rfl, by decide, rfl, rfl, fun _ => ?_, ?_⟩
  · unfold aborting ctl; rw [State.queue_setHead_ne _ _ (by decide)]; rfl
  · decide

/-- A MIX that reads and writes stream 2. -/
def mixInPlace : DataRec := { mix4 with output := .stream 2 }

/-- Queues 0 and 2 hold WAITING jobs on stream 2, the second a MIX in place, and a notice of it is sent. -/
def twoWaiting (r : StreamRec) : State :=
  { (held (up.setStream 2 r) (jobIn .waiting job4)).setHead 2 (.data 5 hdr (jobIn .waiting mixInPlace)) with notices := [2] }

/-- Both heads are examined: the FILTER is ready, and the MIX fails as the output of a PORT_RX stream. -/
theorem test_notice_two_heads : (after (.changeNotice 2 [2]) (twoWaiting (ring 4))).map
    (fun t => (headIn .ready (t.queue 0).head, (t.queue 2).head, t.cq.wrlist.map (fun r => r.status), t.notices)) =
    some (true, .empty, [.wrongEndpoint], []) := by decide

theorem witness_TimersAndNoticesRule :
    (awake (twoWaiting (ring 4)) ∧ 2 ∈ (twoWaiting (ring 4)).notices ∧
      ((twoWaiting (ring 4)).queue 2).head = .data 5 hdr (jobIn .waiting mixInPlace)) ∧
    ((streamRoles mixInPlace).filter (fun x => decide (x.1 = 2)) = [(2, .input)] ++ (2, .output) :: [] ∧
      streamCheck ((twoWaiting (ring 4)).stream 2) .input 4 = none ∧
      streamCheck ((twoWaiting (ring 4)).stream 2) .output 4 = some .wrongEndpoint) ∧
    (let r := { ring 4 with producer := .job }
     (∀ y ∈ streamRoles mixInPlace, streamCheck r y.2 4 = none ∧ streamReady r y.2 4 = true) ∧
     streamReady { r with fill := 58 } .output 4 = false) ∧ ([2] : List (Fin 4)).Nodup ∧
    awake up ∧ up.eng.st ≠ .faulted ∧ (inState .faulted).eng.st = .faulted ∧
    ((held up (jobIn .waiting job4)).queue 0).head = .data 3 hdr (jobIn .waiting job4) ∧ (jobIn .waiting job4).trun = true ∧
    live (held up (jobIn .waiting job4)) = true ∧ (jobIn .waiting job4).timer = some 0 ∧
    2 ∉ up.notices ∧ 2 ∈ { up with notices := [2, 3] }.notices ∧
    (2, Role.input) ∈ streamRoles job4 ∧ (∀ role ∈ [Role.input, .output], (2, role) ∈ streamRoles job4 → role = .input) ∧
    streamCheck (up.stream 2) .input 4 = some .noStream ∧ streamCheck (ring 4) .input 4 = none ∧
    streamReady (ring 4) .input 4 = true ∧ streamReady (ring 3) .input 4 = false := by decide

/-- Queue 0 holds a READY job on stream 2, and the turn and credit stand as given. -/
def ready (d : DataRec) (fill : Nat) (turn : Fin 4) (credit : Nat) : State :=
  { held (up.setStream 2 (ring fill)) (jobIn .ready d) with turn := turn, credit := credit }

theorem witness_GrantRule :
    (inState .halted).eng.st ≠ .running ∧ (∃ r : Fin 4, jobActive ((held up (jobIn .running job4)).queue r).head = true) ∧
    (∀ r : Fin 4, headIn .ready (up.queue r).head = false) ∧
    awake (ready job4 4 0 1) ∧ (ready job4 4 0 1).eng.st = .running ∧
    (∀ r : Fin 4, jobActive ((ready job4 4 0 1).queue r).head = false) ∧
    ((ready job4 4 0 1).queue 0).head = .data 3 hdr (jobIn .ready job4) ∧ (jobIn .ready job4).jstate = .ready ∧
    0 < (ready job4 4 0 1).credit ∧
    (headIn .ready ((ready job4 4 1 1).queue 1).head = false ∧
      ∀ d : Fin 4, d < 0 - 1 - 1 → headIn .ready ((ready job4 4 1 1).queue (1 + 1 + d)).head = false) ∧
    (ready job4 4 0 0).credit = 0 ∧ streamRoles job4 = [] ++ (2, .input) :: [] ∧
    streamCheck (up.stream 2) .input 4 = some .noStream ∧ streamCheck (ring 3) .input 4 = none ∧
    streamReady (ring 3) .input 4 = false ∧ streamReady (ring 4) .input 4 = true ∧
    mix4.kind = .mix [0x4000#16] ∧ (jobIn .ready mix4).chainEnt = none ∧
    (up.stream 2).defined = false ∧ (ring 0).defined = true ∧ (ring 0).producer ≠ .job ∧ (ring 0).consumer = .job ∧
    { ring 0 with consumer := .portTx, producer := .job }.consumer ≠ .job ∧
    (ring 0).length - (ring 0).hist < 61 ∧ 60 ≤ (ring 0).length - (ring 0).hist ∧ job4.kind = .filter 0x4000#32 none ∧
    (∀ y : Fin 8, ((cached .valid false false false).entry y).estate ≠ .empty → y = 6) ∧
    ((cached .filling false false false).entry 6).estate = .filling ∧
    (∀ r ∈ (asked 0x8000#32 .control).cache.reqs, r.addr ≠ 0x4000#32 ∧ r.place ≠ .job) ∧
    (∃ r ∈ (asked 0x8000#32 .job).cache.reqs, r.place = .job) := by decide

/-- Queue 0's starting job holds entry 6 with given stages. -/
def starting (d : DataRec) (stages : List StageRec) : State :=
  (held (up.setStream 2 (ring 4)) { jobIn .starting d with chainEnt := some 6 }).setEntry 6
    { Entry.free with estate := .valid, addr := 0x4000#32, stages := stages, inuse := true }

theorem witness_EntryToRunningRule : (∀ c rest, halfPole ≠ .fir c :: rest) ∧
    ((starting job4 halfPole).queue 0).head = .data 3 hdr { jobIn .starting job4 with chainEnt := some 6 } ∧
    job4.inputs = [.stream 2] ∧ chainHasBiquad ((starting job4 halfPole).entry 6).stages = true ∧
    chainTaps [StageRec.fir (List.replicate 6 0#16)] = 6 ∧ (ring 4).hist + 1 < 6 ∧
    chainTaps [StageRec.fir (List.replicate 5 0#16)] = 5 ∧ 5 ≤ (ring 4).hist + 1 ∧
    chainHasBiquad firGain = false ∧
    (let s := (starting { job4 with kind := .filter 0x4000#32 (some 7) } firGain).setContext 7 ⟨some 0x4000#32, bqZero, false⟩
     (s.context 7).binding = some (s.entry 6).addr) ∧
    ((starting job4 firGain).context 7).binding ≠ some ((starting job4 firGain).entry 6).addr :=
  ⟨fun _ _ h => by simp [halfPole] at h, by decide⟩

/-- A request of one waiter, queue 1's parked LOAD, or queue 0's starting job. -/
def loading (addr : Word) : State :=
  { ctl up (.chainControl .load addr) with cache := { up.cache with reqs := [⟨addr, .control, [1]⟩] } }.setHead 1
    (.control 5 hdr (.chainControl .load addr) .parked)

/-- Queue 1's LOAD waits for the CONTROL place. -/
def placeWaiting (s : State) : State :=
  { s with cu := { work := some (.placeWait 1), last := 1 } }.setHead 1
    (.control 5 hdr (.chainControl .load 0x4000#32) .executing)

/-- Every entry is VALID and PINNED. -/
def pinnedFull : State :=
  { loading 0x4000#32 with cache := { (loading 0x4000#32).cache with
    entries := Vector.replicate 8 { Entry.free with estate := .valid, pinned := true }, lru := [3, 1] } }

/-- A request of two waiters, queue 1's parked LOAD_PIN and queue 0's starting job. -/
def twoLoading : State :=
  (held { loading 0x4000#32 with cache := { up.cache with reqs := [⟨0x4000#32, .control, [1, 0]⟩] } }
    (jobIn .starting job4)).setHead 1 (.control 5 hdr (.chainControl .loadPin 0x4000#32) .parked)

theorem witness_FillBeginRule :
    (awake twoLoading ∧ twoLoading.cache.fill = none ∧ twoLoading.cache.reqs = ⟨0x4000#32, .control, [1, 0]⟩ :: [] ∧
      (twoLoading.queue 0).head = .data 3 hdr (jobIn .starting job4) ∧
      (twoLoading.queue 1).head = .control 5 hdr (.chainControl .loadPin 0x4000#32) .parked ∧
      ((twoLoading.entry 0).estate = .empty ∧ ∀ f < (0 : Fin 8), (twoLoading.entry f).estate ≠ .empty)) ∧
    up.cache.reqs = [] ∧ awake (loading 0x4000#32) ∧ (loading 0x4000#32).cache.fill = none ∧
    (loading 0x4000#32).cache.reqs = ⟨0x4000#32, .control, [1]⟩ :: [] ∧ (loading 0x4000#32).cu.work = none ∧
    (∀ p : Fin 4, headIn .starting ((loading 0x4000#32).queue p).head = false) ∧
    ((0x4000#32).toNat % 16 = 0 ∧ (0x4000#32).toNat + 112 ≤ 2 ^ 32) ∧ (0xFFFFFF90#32).toNat + 112 ≤ 2 ^ 32 ∧
    ¬ ((0xFFFFFFA0#32).toNat + 112 ≤ 2 ^ 32) ∧
    (((loading 0x4000#32).entry 0).estate = .empty ∧ ∀ f < (0 : Fin 8), ((loading 0x4000#32).entry f).estate ≠ .empty) ∧
    ((∀ f : Fin 8, (pinnedFull.entry f).estate ≠ .empty) ∧
      ∀ f ∈ pinnedFull.cache.lru, (pinnedFull.entry f).pinned = true ∨ (pinnedFull.entry f).inuse = true) ∧
    (let s := pinnedFull.setEntry 1 { Entry.free with estate := .valid }
     s.cache.lru = [3] ++ 1 :: [] ∧ (s.entry 1).pinned = false ∧ (s.entry 1).inuse = false ∧ (s.entry 3).pinned = true) ∧
    ((loading 0x4000#32).queue 1).head = .control 5 hdr (.chainControl .load 0x4000#32) .parked ∧
    ((held up (jobIn .starting job4)).queue 0).head = .data 3 hdr (jobIn .starting job4) ∧
    (jobIn .starting job4).chainEnt = none ∧
    ((placeWaiting up).queue 1).head = .control 5 hdr (.chainControl .load 0x4000#32) .executing ∧
    (placeWaiting up).cu.work = some (.placeWait 1) ∧ (∀ r ∈ (placeWaiting up).cache.reqs, r.place ≠ .control) ∧
    (∃ r ∈ (placeWaiting (asked 0x8000#32 .control)).cache.reqs, r.place = .control) ∧
    (∀ x : Fin 8, ((placeWaiting up).entry x).estate = .empty) ∧ (∀ q, up.cu.work ≠ some (.placeWait q)) ∧
    (∀ q : Fin 4, headIn .starting (up.queue q).head = false) ∧
    (jobIn .starting job4).chainWait ≠ .requested := by decide

/-- A fill into entry 6 of which one byte of a part is still to come. -/
def fillIn (part : FillPart) (count n : Nat) : Fill :=
  { addr := 0x4000#32, entry := 6, waiters := [1], part, buf := { cells := List.replicate (n - 1) (some 0#8) ++ [none], err := false },
    count, coefAdr := 0x5000#32, taps := 2 }

/-- A fill whose part is a whole new one. -/
def fillNew (part : FillPart) (count n : Nat) : Fill := { fillIn part count n with buf := bufNew n }

set_option maxRecDepth 20000 in
theorem witness_FillReadRule :
    awake { up with cache := { up.cache with fill := some (fillNew .header 0 16) } } ∧
    (answerFits (fillNew .header 0 16).buf 0 8 = true ∧ bufDone (bufTake (fillNew .header 0 16).buf 0 (.error 8)) = false) ∧
    (answerFits (fillNew .header 0 16).buf 0 16 = true ∧ bufDone (bufTake (fillNew .header 0 16).buf 0 (.error 16)) = true ∧
      (bufTake (fillNew .header 0 16).buf 0 (.error 16)).err = true) ∧
    (let b := bufTake (fillNew .header 0 16).buf 0 (.ok (6#8 :: List.replicate 15 0#8))
     bufDone b = true ∧ b.err = false ∧ 1 ≤ num8 (bufBytes b) 0 ∧ num8 (bufBytes b) 0 ≤ 6) ∧
    (let b := bufTake (fillNew .header 0 16).buf 0 (.ok (List.replicate 16 0#8))
     bufDone b = true ∧ num8 (bufBytes b) 0 = 0) ∧
    (let b := bufTake (fillNew .header 0 16).buf 0 (.ok (7#8 :: List.replicate 15 0#8)); 6 < num8 (bufBytes b) 0) ∧
    decodeStages (List.replicate 16 0#8) 1 = none ∧
    decodeStages ([3#8, 0#8, 0#8, 0x40#8] ++ List.replicate 12 0#8) 1 = some ([StageRec.gain 0x4000#16 0].map RawStage.stage) ∧
    decodeStages ([1#8, 0#8, 2#8, 0#8] ++ List.replicate 12 0#8) 1 = some (.fir 2 :: [].map RawStage.stage) ∧
    ((0xFFFFFFFC#32).toNat % 2 = 0 ∧ (0xFFFFFFFC#32).toNat + 2 * 2 ≤ 2 ^ 32) ∧ ¬ ((0xFFFFFFFE#32).toNat + 2 * 2 ≤ 2 ^ 32) ∧
    (fillNew .coefs 1 4).part = .coefs ∧ (fillNew .stages 1 16).part = .stages ∧
    (∀ type : Fin 3, (decodeStages ([BitVec.ofNat 8 (type.val + 1), 0#8, 128#8] ++ List.replicate 13 0#8) 1).isSome = true ∧
      num8 ([BitVec.ofNat 8 (type.val + 1), 0#8, 128#8] ++ List.replicate 13 0#8) (16 * 0) = type.val + 1) := by decide

theorem witness_FillEndRule :
    (true = true ↔ ∃ w ∈ [1, 0], headIn .starting (twoLoading.queue w).head = true) ∧
    (true = true ↔ ∃ w ∈ [1, 0], ∃ pos h a,
      (twoLoading.queue w).head = .control pos h (.chainControl .loadPin a) .parked) ∧
    (false = true ↔ ∃ w ∈ ([] : List (Fin 4)), headIn .starting (twoLoading.queue w).head = true) ∧
    (false = true ↔ ∃ w ∈ ([] : List (Fin 4)), ∃ pos h a,
      (twoLoading.queue w).head = .control pos h (.chainControl .loadPin a) .parked) ∧
    (twoLoading.queue 1).head = .control 5 hdr (.chainControl .loadPin 0x4000#32) .parked ∧
    (twoLoading.queue 0).head = .data 3 hdr (jobIn .starting job4) ∧ ([1, 0] : List (Fin 4)).Nodup ∧
    ([0, 1] : List (Fin 4)).Perm [1, 0] ∧
    (fillNew .header 0 16).waiters = [1] ∧
    ((loading 0x4000#32).queue 1).head = .control 5 hdr (.chainControl .load 0x4000#32) .parked ∧
    ((cached .filling false false false).entry 6).stale = false ∧ ((cached .filling true false false).entry 6).stale = true ∧
    ((held up (jobIn .starting job4)).queue 0).head = .data 3 hdr (jobIn .starting job4) ∧
    (jobIn .starting job4).jstate = .starting ∧ (jobIn .starting job4).chainEnt = none := by
  refine ⟨by decide, ⟨fun _ => ⟨1, by decide, 5, hdr, 0x4000#32, rfl⟩, fun _ => rfl⟩, by decide, by simp, ?_⟩
  decide

/-- R84, with two waiters: the job is served after the LOAD_PIN, whose pin the entry then has, and both use one entry. -/
theorem test_fill_serves_both : (let t := fillPassed { fillNew .stages 1 16 with waiters := [1, 0] } [1, 0] [] twoLoading
    ((t.entry 6).pinned, (t.entry 6).inuse, t.cache.lru, headIn .running (t.queue 0).head,
      t.cq.wrlist.map (fun r => (r.status, r.detail)))) = (true, true, [6], true, [(.ok, .entry 6)]) := by decide

theorem witness_ArithmeticRule :
    (∀ coefs, StageRec.fir (List.replicate 128 0x8000#16) = .fir coefs → coefs.length ≤ 128) ∧
    (∀ g shift, StageRec.gain 0x8000#16 7 = .gain g shift → shift ≤ 7) ∧
    [0#16, 0#16, 0#16, 0#16].length ≤ 4 ∧ Datapath.idle.finished = 0 ∧ [0#16] ≠ [] ∧
    (let dp := { Datapath.idle with finished := 2, peak := 5 }; magnitude 5#16 ≤ dp.peak ∧ dp.finished ≠ 0 ∧
      dp.peak < magnitude 6#16) ∧
    applyPolicy .saturate (roundShift .round 15 (2 ^ 30)) = .out 0x7FFF#16 true ∧
    applyPolicy .trap (roundShift .round 15 (2 ^ 30)) = .trapped := by
  refine ⟨fun coefs h => ?_, fun g shift h => ?_, by decide⟩
  · cases h; simp
  · cases h; decide

theorem witness_CascadeRule :
    stageResult .saturate .round (stageShift (.gain 0x6000#16 1)) (stageAcc (.gain 0x6000#16 1) 31500#16 [] BqState.zero) =
      .out 32767#16 true ∧
    stageResult .trap .round (stageShift (.gain 0x6000#16 1)) (stageAcc (.gain 0x6000#16 1) 31500#16 [] BqState.zero) =
      .trapped ∧ (5 : Nat) < 6 ∧
    runStages .saturate .round [2000#16, 1000#16] [.fir [0x4000#16, 0x4000#16, 0xE000#16]] 0 4001#16 bqZero 0 =
      .out 2751#16 bqZero 0 := by decide

theorem computes_computing (out : Endpoint) : Computes (computing out) 3 hdr
    { jobIn .running { job4 with output := out } with chainEnt := some 5 } := ⟨rfl, rfl, rfl⟩

/-- The job that computes. -/
def runningTo (out : Endpoint) : JobRec := { jobIn .running { job4 with output := out } with chainEnt := some 5 }

/-- The computing job with NEXT and GATHER as given. -/
def computingAt (out : Endpoint) (next : Nat) (gather : List Sample) : State :=
  { computing out with dp := { (computing out).dp with next := next, finished := next - gather.length, gather := gather } }

/-- A job of memory input `a` and memory output `b` with three samples in GATHER and the next read at `rdnext`. -/
def copying (a b : Word) (rdnext : Nat) : State :=
  let s1 := held up { jobIn .running { job4 with inputs := [.memory a], output := .memory b } with chainEnt := some 5 }
  { s1 with dp := { Datapath.idle with
    st := .compute, inputs := [⟨rdnext, []⟩], next := 3, gather := [1#16, 2#16, 3#16], reads := [⟨0, a.toNat, 2⟩] } }

/-- Its job. -/
def copyJob (a b : Word) : JobRec :=
  { jobIn .running { job4 with inputs := [.memory a], output := .memory b } with chainEnt := some 5 }

theorem computes_copying (a b : Word) (rdnext : Nat) : Computes (copying a b rdnext) 3 hdr (copyJob a b) := ⟨rfl, rfl, rfl⟩

/-- Reads issued, a delay line, and GATHER due, held and not held. -/
theorem witness_ComputeSampleRule_reads :
    ((copying 0x2000#32 0x1001A#32 0x2006).queue (copying 0x2000#32 0x1001A#32 0x2006).dp.jobq).head =
      .data 3 hdr (copyJob 0x2000#32 0x1001A#32) ∧
    (copying 0x2000#32 0x1001A#32 0x2006).dp.st = .compute ∧
    (copyJob 0x2000#32 0x1001A#32).data.inputs[0]? = some (.memory 0x2000#32) ∧
    (copyJob 0x2000#32 0x1001A#32).data.inputs[1]? = none ∧ up.dp.st ≠ .compute ∧ job4.inputs[0]? = some (.stream 2) ∧
    (copying 0x2000#32 0x1001A#32 0x2006).dp.inputs[0]? = some ⟨0x2006, []⟩ ∧
    min 16 (min (((0x2000#32).toNat + 2 * 4 - 0x2006) / 2) ((32 - 0x2006 % 32) / 2)) = 1 ∧
    min 16 (min (((0x2000#32).toNat + 2 * 4 - 0x2008) / 2) ((32 - 0x2008 % 32) / 2)) = 0 ∧
    (copying 0x2000#32 0x1001A#32 0x2006).dp.inputs.length = (copyJob 0x2000#32 0x1001A#32).data.inputs.length ∧
    (copyJob 0x2000#32 0x1001A#32).data.inputs = .memory 0x2000#32 :: [] ∧
    (copyJob 0x2000#32 0x1001A#32).chainEnt = some 5 ∧
    gatherDue (copyJob 0x2000#32 0x1001A#32).data (copying 0x2000#32 0x1001A#32 0x2006).dp = true ∧
    gatherHeld (copying 0x2000#32 0x1001A#32 0x2006) (copyJob 0x2000#32 0x1001A#32) = false ∧
    gatherDue (copyJob 0x1001A#32 0x1001A#32).data (copying 0x1001A#32 0x1001A#32 0x2006).dp = true ∧
    gatherHeld (copying 0x1001A#32 0x1001A#32 0x2006) (copyJob 0x1001A#32 0x1001A#32) = true := by decide

theorem witness_ComputeSampleRule :
    Computes (computing (.stream 9)) 3 hdr (runningTo (.stream 9)) ∧
    Computes (computing (.memory 0x10010#32)) 3 hdr (runningTo (.memory 0x10010#32)) ∧
    gatherDue job4 (computing (.memory 0x10010#32)).dp = false ∧
    wordsReady { computing (.memory 0#32) with dp := { (computing (.memory 0#32)).dp with inputs := [] } }
      (runningTo (.memory 0#32)) = true ∧
    wordsReady (computing (.memory 0x10010#32)) (runningTo (.memory 0x10010#32)) = true ∧
    inputSamples (computing (.memory 0x10010#32)) job4 0 = some [100#16] ∧
    computeOut (computing (.memory 0x10010#32)) (runningTo (.memory 0x10010#32)) [100#16] = .out 50#16 bqZero 0 ∧
    (let s := (computing (.memory 0x10010#32)).setEntry 5 { Entry.free with stages := [.gain 0x7FFF#16 7] }
     computeOut s { runningTo (.memory 0#32) with data := { job4 with policy := .trap } } [30000#16] = .trapped 0) ∧
    ((computingAt (.memory 0x10010#32) 2 [1#16, 2#16]).dp.next + 1 ≠ 4 ∧ (0x10010 + 2 * (2 + 1)) % 32 ≠ 0) ∧
    (computingAt (.memory 0x10010#32) 3 [1#16, 2#16, 3#16]).dp.next + 1 = 4 ∧ (0x1001A + 2 * (2 + 1)) % 32 = 0 ∧
    gatherHeld (computingAt (.memory 0x10010#32) 2 [1#16]) (runningTo (.memory 0x10010#32)) = false := by
  refine ⟨⟨rfl, rfl, rfl⟩, ⟨rfl, rfl, rfl⟩, ?_⟩
  decide

/-- One input of memory, a read of two words outstanding. -/
def reading (st : DpState) : State :=
  let s1 := held up { jobIn .running { job4 with inputs := [.memory 0x2000#32] } with chainEnt := some 5 }
  { s1 with dp := { Datapath.idle with
    st := st, inputs := [⟨0x2004, []⟩], reads := [⟨0, 0x2000, 2⟩], writes := [⟨0x10010, [5#16]⟩] } }

/-- A read's answer with GATHER due: not held, and held by a word that this answer does not bring. -/
theorem witness_DatapathAnswersRule_gather :
    (∀ a : Word, Computes (copying a 0x1001A#32 0x2006) 3 hdr (copyJob a 0x1001A#32)) ∧
    (copying 0x2000#32 0x1001A#32 0x2006).dp.reads[0]? = some ⟨0, 0x2000, 2⟩ ∧
    (copying 0x2000#32 0x1001A#32 0x2006).dp.next ≠ 0 ∧
    (let s := copying 0x2000#32 0x1001A#32 0x2006
     let v := { s with dp := { s.dp with reads := [], inputs := [⟨0x2006, [(0x2000, 1#16), (0x2002, 2#16)]⟩] } }
     gatherDue (copyJob 0x2000#32 0x1001A#32).data v.dp = true ∧ gatherHeld v (copyJob 0x2000#32 0x1001A#32) = false) ∧
    (let s := copying 0x1001A#32 0x1001A#32 0x1001E
     let v := { s with dp := { s.dp with reads := [], inputs := [⟨0x1001E, [(0x1001A, 1#16), (0x1001C, 2#16)]⟩] } }
     gatherHeld v (copyJob 0x1001A#32 0x1001A#32) = true) := by
  refine ⟨fun _ => ⟨rfl, rfl, rfl⟩, ?_⟩
  decide

theorem witness_DatapathAnswersRule :
    awake (reading .compute) ∧ (reading .compute).dp.reads[0]? = some ⟨0, 0x2000, 2⟩ ∧
    (reading .settle).dp.st = .settle ∧ [1#8, 2#8, 3#8, 4#8].length = 2 * 2 ∧ (reading .compute).dp.st = .compute ∧
    (∃ pos h j, Computes (reading .compute) pos h j) ∧ (reading .compute).dp.inputs[0]? = some ⟨0x2004, []⟩ ∧
    (reading .compute).dp.gather = [] ∧ (reading .compute).dp.next = 0 ∧
    (reading .compute).dp.writes[0]? = some ⟨0x10010, [5#16]⟩ ∧ { Datapath.idle with endStat := .ok }.endStat = .ok ∧
    (reading .settle).dp.endStat ≠ .ok ∧ up.stopReq = false ∧ up.dp.st ≠ .compute ∧
    { reading .compute with stopReq := true }.stopReq = true ∧ (reading .compute).dp.endStat = .none ∧
    (computingAt (.memory 0x10010#32) 2 [1#16]).dp.gather ≠ [] := by
  refine ⟨rfl, rfl, rfl, rfl, rfl, ⟨3, hdr, _, ⟨rfl, rfl, rfl⟩⟩, rfl, rfl, rfl, rfl, rfl, ?_⟩
  decide

/-- The end is taken and every access is answered. -/
def settled (st : EndStat) : State :=
  { computing (.memory 0x10010#32) with dp := { Datapath.idle with st := .settle, endStat := st, finished := 4, next := 4 } }

theorem witness_EndOfJobRule :
    up.dp.st ≠ .settle ∧ (streamInputs job4).Nodup ∧ (settled .ok).dp.st = .settle ∧ (settled .ok).dp.reads = [] ∧
    (settled .ok).dp.writes = [] ∧ ((settled .ok).queue (settled .ok).dp.jobq).head =
      .data 3 hdr (runningTo (.memory 0x10010#32)) ∧
    jobContext job4 = none ∧ jobContext { job4 with kind := .filter 0x4000#32 (some 7) } = some 7 ∧
    (runningTo (.memory 0x10010#32)).chainEnt = some 5 ∧ (settled .busError).dp.endStat = .busError ∧
    (settled .ok).cu.work = none ∧
    (let s := { settled .aborted with cu := { work := some (.abortWait 1 0), last := 1 } }.setHead 1
        (.control 5 hdr (.abort 0 hdr.tag) .executing)
     s.cu.work = some (.abortWait 1 0) ∧ (s.queue 1).head = .control 5 hdr (.abort 0 hdr.tag) .executing ∧
       s.dp.endStat = .aborted) := by decide

theorem witness_AppendAndTakeRule :
    ((ring 59).fill + (ring 59).hist < (ring 59).length) ∧ (ring 60).length ≤ (ring 60).fill + (ring 60).hist ∧
    (ring 60).policy = .dropNew ∧ { ring 60 with policy := .dropOld, claimed := true }.claimed = true ∧
    { ring 60 with policy := .dropOld }.policy = .dropOld ∧ (ring 60).claimed = false ∧ 1 ≤ (ring 1).fill ∧
    (ring 0).fill = 0 ∧ storeWf [(3, 7#16)] = true := by decide

theorem witness_FrameEventRule :
    awake bound ∧ (bound.port .a).due = some (.frame true) ∧
    (∀ j : Fin 32, ({ PortRec.reset with due := some (.frame false) } : PortRec).slot j = Slot.free) ∧
    (∀ i : Fin 32, slotStream (bound.port .a) .tx i = if i = 0 then some 9 else none) ∧
    (portIn .master .locked ⟨none, some (.bind .rx 2 2)⟩).slot 1 = { current := none, pending := some (.bind .rx 2 2) } ∧
    (portIn .master .locked ⟨some (.rx, 2), some (.unbind 2)⟩).slot 1 =
      { current := some (.rx, 2), pending := some (.unbind 2) } ∧
    ((up.setHead 2 (.control 6 hdr (.bindSlot .a 1 .unbind) .parked)).queue 2).head =
      .control 6 hdr (.bindSlot .a 1 .unbind) .parked := by decide

theorem witness_LineEventsRule :
    awake up ∧ (∀ d : LineDue, ({ PortRec.reset with due := some d } : PortRec).due = some d) ∧ (up.port .a).due = none ∧
    (up.port .a).lock = .off ∧ (portIn .follower .hunting Slot.free).lock = .hunting ∧
    ((portIn .master .locked Slot.free).lock = .locked ∧ (portIn .master .locked Slot.free).mode = .master ∧
      { portIn .master .locked Slot.free with bitpos := 30 }.bitpos + 1 < 16 * 2 ∧
      16 * 2 ≤ { portIn .master .locked Slot.free with bitpos := 31 }.bitpos + 1) ∧
    (portIn .follower .locked Slot.free).mode ≠ .master ∧ (true = (true && !(portIn .follower .locked Slot.free).sync)) ∧
    (false = (false && !(portIn .follower .locked Slot.free).sync)) ∧
    { portIn .master .locked Slot.free with bitpos := 31 }.bitpos / 16 = (1 : Fin 32).val ∧
    { portIn .master .locked Slot.free with opening := true }.opening = true ∧
    (portIn .master .locked Slot.free).opening = false := by
  refine ⟨rfl, fun _ => rfl, ?_⟩
  decide

end Sys2Proof.Machine.Tests
end

section
/-! SUPPORT. RETIRE_STREAM: its decode bound, its checks in order, and the whole next state of each outcome (R21, R22). -/

namespace Sys2Proof.Machine

open Sys2Proof

/-! ### Decoding a stream number -/

/-- A number is no index of a table exactly at or above the table's size. -/
theorem index?_eq_none_iff (size n : Nat) : index? size n = none ↔ size ≤ n := by
  by_cases h : n < size
  · simp [index?, h]
  · simpa [index?, h] using Nat.le_of_not_lt h

/-- The body of a record of kind RETIRE_STREAM. -/
theorem decodeBody_retireStream (q : Fin 4) {bytes : List Byte} (hk : num8 bytes 0 = 0x04) :
    decodeBody q bytes = (index? 48 (num8 bytes 0x08)).map (fun n => .control (.retireStream n)) := by
  simp only [decodeBody, hk]

/-! ### A control record that executes and completes in the same step -/

/-- CONTROL_SELECT executes the selected record (R47). -/
theorem exec_controlSelect_of_selects {s : State} {q : Fin 4} {pos : Nat} {h : Header} {body : ControlRec}
    (hs : Selects s q pos h body) :
    exec .controlSelect s = .next (executeControl q body (executing q pos h body s)) :=
  controlSelect_of_selects hs

/-- Entering EXECUTING changes no stream. -/
@[simp] theorem stream_executing (s : State) (q : Fin 4) (pos : Nat) (h : Header) (body : ControlRec) (n : Fin 48) :
    (executing q pos h body s).stream n = s.stream n := rfl

/-- A record without count and detail, of a control unit that is idle again, hands over its plain completion; its
stamps are those of any state with the same frame counters (R48, R49). -/
theorem finishControl_of_idle {s u : State} {q : Fin 4} {pos : Nat} {h : Header} {body : ControlRec} {c : CtlState}
    (hh : (u.queue q).head = .control pos h body c) (hidle : u.cu.work = none)
    (ha : u.portA.fcount = s.portA.fcount) (hb : u.portB.fcount = s.portB.fcount) (st : Status) :
    finishControl q st 0 .none false u = completeHead q (completion s q h st) u := by
  have hcu : { u with cu := { u.cu with work := none } } = u := by rw [← hidle]
  rw [finishControl_eq hh, hcu, ← completion_congr ha hb]
  rfl

/-! ### The checks of a retire, in order (R21) -/

/-- A FREE stream cannot be retired. -/
theorem retireStatus_of_free {r : StreamRec} (hd : r.defined = false) : retireStatus r = .noStream := by
  simp [retireStatus, hd]

/-- A claimed stream is in use, bound or not. -/
theorem retireStatus_of_claimed {r : StreamRec} (hd : r.defined = true) (hc : r.claimed = true) :
    retireStatus r = .inUse := by
  simp [retireStatus, hd, hc]

/-- A stream with a mirror in either direction is bound. -/
theorem retireStatus_of_bound {r : StreamRec} (hd : r.defined = true) (hc : r.claimed = false)
    (hb : r.rxbind ≠ none ∨ r.txbind ≠ none) : retireStatus r = .bound := by
  simp [retireStatus, hd, hc, Option.isSome_iff_ne_none, hb]

/-- An unclaimed, unbound stream can be retired. -/
theorem retireStatus_of_retirable {r : StreamRec} (hd : r.defined = true) (hc : r.claimed = false)
    (hrx : r.rxbind = none) (htx : r.txbind = none) : retireStatus r = .ok := by
  simp [retireStatus, hd, hc, hrx, htx]

/-! ### The two outcomes of a retire -/

section

variable {s : State} {q : Fin 4} {pos : Nat} {h : Header} {n : Fin 48}

/-- A failing check completes the record with its status, and no stream changes (R21). -/
theorem retire_refused (hs : Selects s q pos h (.retireStream n)) {st : Status}
    (hst : retireStatus (s.stream n) = st) (hne : st ≠ .ok) :
    exec .controlSelect s =
      .next (completeHead q (completion s q h st) (executing q pos h (.retireStream n) s)) := by
  have hret : execRetire q n (executing q pos h (.retireStream n) s) =
      finishControl q st 0 .none false (executing q pos h (.retireStream n) s) := by
    simp only [execRetire, stream_executing, hst]
  rw [exec_controlSelect_of_selects hs, executeControl, hret]
  exact congrArg _ (finishControl_of_idle (executing_head ..) rfl rfl rfl st)

/-- A passing retire sets the stream FREE, sends its notice and completes OK; every other field, the store too, stays as
execution found it (R22). -/
theorem retire_accepted (hs : Selects s q pos h (.retireStream n)) (hok : retireStatus (s.stream n) = .ok) :
    exec .controlSelect s = .next (completeHead q (completion s q h .ok)
      (notify ((executing q pos h (.retireStream n) s).setStream n StreamRec.free) n)) := by
  have hret : execRetire q n (executing q pos h (.retireStream n) s) = finishControl q .ok 0 .none false
      (notify ((executing q pos h (.retireStream n) s).setStream n StreamRec.free) n) := by
    simp only [execRetire, stream_executing, hok]
  have hhead : ((notify ((executing q pos h (.retireStream n) s).setStream n StreamRec.free) n).queue q).head =
      .control pos h (.retireStream n) .executing := executing_head ..
  rw [exec_controlSelect_of_selects hs, executeControl, hret]
  exact congrArg _ (finishControl_of_idle hhead rfl rfl rfl .ok)

end

/-- Settles O42: the decode bound, then the three checks in their order, each by its status, and the passing retire. -/
theorem retireStreamRule : Obligations.RetireStreamRule := by
  refine ⟨fun q bytes hk => ?_, ?_⟩
  · rw [decodeBody_retireStream q hk, Option.map_eq_none_iff, index?_eq_none_iff]
    exact Nat.lt_iff_add_one_le
  · rintro s q pos h n e hs rfl r rfl
    refine ⟨fun hd => ?noStream, fun hd hc => ?inUse, fun hd hc hb => ?bound, fun hd hc hrx htx => ?ok⟩
    case noStream => exact retire_refused hs (retireStatus_of_free hd) (by decide)
    case inUse => exact retire_refused hs (retireStatus_of_claimed hd hc) (by decide)
    case bound => exact retire_refused hs (retireStatus_of_bound hd hc hb) (by decide)
    case ok => exact retire_accepted hs (retireStatus_of_retirable hd hc hrx htx)

end Sys2Proof.Machine
end

section
/-! SUPPORT. POST RESTART: its effect on a STOPPED queue and on any other, and no fetch outside RUNNING (R33, R37). -/

namespace Sys2Proof.Machine

open Sys2Proof

/-! ### Asking for a record -/

/-- No queue is eligible for a fetch while the engine is not RUNNING (R37). -/
theorem eligible_of_not_running {s : State} (hrun : s.eng.st ≠ .running) (q : Fin 4) : eligible s q = false := by
  simp [eligible, hrun]

/-- A queue that is not eligible asks for nothing (R38). -/
theorem askIfEligible_of_not_eligible {s : State} {q : Fin 4} (he : eligible s q = false) : askIfEligible q s = s := by
  simp [askIfEligible, he]

/-- No queue asks for a record while the engine is not RUNNING (R37). -/
theorem askIfEligible_of_not_running {s : State} (hrun : s.eng.st ≠ .running) (q : Fin 4) : askIfEligible q s = s :=
  askIfEligible_of_not_eligible (eligible_of_not_running hrun q)

/-! ### The two cases of a RESTART -/

section

variable {s : State} {q : Fin 4}

/-- A queue that is ACTIVE or ABSENT ignores a RESTART, in every engine state (R33). -/
theorem exec_postRestart_of_not_stopped (ha : awake s) (hq : (s.queue q).state ≠ .stopped) :
    exec (.postRestart q) s = .next s := by
  simp only [exec, execPostRestart, taken_eq ha, if_neg hq]

/-- A STOPPED queue becomes ACTIVE and then asks for its next record (R33). -/
theorem exec_postRestart_of_stopped (ha : awake s) (hq : (s.queue q).state = .stopped) :
    exec (.postRestart q) s =
      .next (askIfEligible q (s.setQueue q { s.queue q with state := .active })) := by
  simp only [exec, execPostRestart, taken_eq ha, if_pos hq]

/-- Outside RUNNING a STOPPED queue becomes ACTIVE and nothing else changes (R33, R37). -/
theorem exec_postRestart_of_stopped_of_not_running (ha : awake s) (hq : (s.queue q).state = .stopped)
    (hrun : s.eng.st ≠ .running) :
    exec (.postRestart q) s = .next (s.setQueue q { s.queue q with state := .active }) := by
  have heng : (s.setQueue q { s.queue q with state := .active }).eng.st ≠ .running := by
    rwa [State.setQueue_eng]
  rw [exec_postRestart_of_stopped ha hq, askIfEligible_of_not_running heng]

end

/-- Settles O37, by the queue's state and, for a STOPPED queue, by whether the engine is RUNNING. -/
theorem postRestartRule : Obligations.PostRestartRule := by
  rintro q s r ha rfl
  refine ⟨fun hne => ?ignored, fun hst => ⟨?restarted, fun hrun => ?notRunning⟩⟩
  case ignored => exact exec_postRestart_of_not_stopped ha hne
  case restarted => exact exec_postRestart_of_stopped ha hst
  case notRunning => exact exec_postRestart_of_stopped_of_not_running ha hst hrun

end Sys2Proof.Machine
end

section
/-! SUPPORT. CLEAR_CONTEXT: its decode bound, its three outcomes by the context's state (R126), and the ABORT that meets a
control record in CONTROL_WAIT (R67, R70). -/

namespace Sys2Proof.Machine

open Sys2Proof

/-- The body of a record of kind CLEAR_CONTEXT. -/
theorem decodeBody_clearContext (q : Fin 4) {bytes : List Byte} (hk : num8 bytes 0 = 0x08) :
    decodeBody q bytes = (index? 32 (num8 bytes 0x08)).map (fun c => .control (.clearContext c)) := by
  simp only [decodeBody, hk]

/-! ### What entering EXECUTING leaves unchanged -/

/-- Entering EXECUTING changes no context. -/
@[simp] theorem context_executing (s : State) (q : Fin 4) (pos : Nat) (h : Header) (body : ControlRec) (c : Fin 32) :
    (executing q pos h body s).context c = s.context c := rfl

/-- Entering EXECUTING changes no other queue. -/
theorem executing_queue_ne (s : State) {q t : Fin 4} (pos : Nat) (h : Header) (body : ControlRec) (ht : t ≠ q) :
    (executing q pos h body s).queue t = s.queue t :=
  State.queue_setHead_ne _ _ ht

/-! ### Completions of control heads -/

/-- A control head without count and detail hands over its plain completion (R48). -/
theorem completeControl_of_head {s : State} {t : Fin 4} {pos : Nat} {h : Header} {body : ControlRec} {c : CtlState}
    (hh : (s.queue t).head = .control pos h body c) (st : Status) :
    completeControl t st 0 .none false s = completeHead t (completion s t h st) s := by
  simp only [completeControl, hh]; rfl

/-- `finishControl_of_idle` for a record that completes with a count (R48, R126). -/
theorem finishControl_count_of_idle {s u : State} {q : Fin 4} {pos : Nat} {h : Header} {body : ControlRec} {c : CtlState}
    (hh : (u.queue q).head = .control pos h body c) (hidle : u.cu.work = none)
    (ha : u.portA.fcount = s.portA.fcount) (hb : u.portB.fcount = s.portB.fcount) (st : Status) (count : Nat) :
    finishControl q st count .none false u = completeHead q { completion s q h st with count := count } u := by
  have hcu : { u with cu := { u.cu with work := none } } = u := by rw [← hidle]
  rw [finishControl_eq hh, hcu, ← completion_congr ha hb]
  rfl

/-! ### The three outcomes of a CLEAR_CONTEXT (R126) -/

section

variable {s : State} {q : Fin 4} {pos : Nat} {h : Header} {c : Fin 32}

/-- A HELD context is in use: it is unchanged. -/
theorem execClearContext_of_held (hheld : (s.context c).held = true) :
    execClearContext q c s = finishControl q .inUse 0 .none false s := by
  rw [execClearContext, if_pos hheld]

/-- A bound context becomes UNBOUND, which counts 1. -/
theorem execClearContext_of_bound (hheld : (s.context c).held = false) (hbound : (s.context c).binding ≠ none) :
    execClearContext q c s = finishControl q .ok 1 .none false (s.setContext c Context.unbound) := by
  rw [execClearContext, if_neg (by simp [hheld]), if_pos (Option.isSome_iff_ne_none.mpr hbound)]

/-- An UNBOUND context is unchanged, which counts 0. -/
theorem execClearContext_of_unbound (hheld : (s.context c).held = false) (hfree : (s.context c).binding = none) :
    execClearContext q c s = finishControl q .ok 0 .none false s := by
  rw [execClearContext, if_neg (by simp [hheld]), if_neg (by simp [hfree])]

/-- A selected CLEAR_CONTEXT whose execution leaves the state as it found it hands over its plain completion. -/
theorem exec_clearContext_of_unchanged (hs : Selects s q pos h (.clearContext c)) {st : Status}
    (hclear : execClearContext q c (executing q pos h (.clearContext c) s) =
      finishControl q st 0 .none false (executing q pos h (.clearContext c) s)) :
    exec .controlSelect s =
      .next (completeHead q (completion s q h st) (executing q pos h (.clearContext c) s)) := by
  rw [exec_controlSelect_of_selects hs, executeControl, hclear]
  exact congrArg _ (finishControl_of_idle (executing_head ..) rfl rfl rfl st)

/-- A selected CLEAR_CONTEXT of a bound context leaves it UNBOUND and completes OK with count 1. -/
theorem exec_clearContext_of_bound (hs : Selects s q pos h (.clearContext c))
    (hheld : (s.context c).held = false) (hbound : (s.context c).binding ≠ none) :
    exec .controlSelect s = .next (completeHead q { completion s q h .ok with count := 1 }
      ((executing q pos h (.clearContext c) s).setContext c Context.unbound)) := by
  have hclear : execClearContext q c (executing q pos h (.clearContext c) s) = finishControl q .ok 1 .none false
      ((executing q pos h (.clearContext c) s).setContext c Context.unbound) :=
    execClearContext_of_bound hheld hbound
  have hhead : (((executing q pos h (.clearContext c) s).setContext c Context.unbound).queue q).head =
      .control pos h (.clearContext c) .executing := executing_head ..
  rw [exec_controlSelect_of_selects hs, executeControl, hclear]
  exact congrArg _ (finishControl_count_of_idle hhead rfl rfl rfl .ok 1)

end

/-! ### An ABORT of a control record in CONTROL_WAIT (R67, R70) -/

section

variable {s : State} {q t : Fin 4} {pos tpos : Nat} {h th : Header} {body : ControlRec}

/-- The look meets a record with its tag in CONTROL_WAIT: the target completes ABORTED, then the ABORT itself OK. -/
theorem execAbort_of_controlWait (ht : (s.queue t).head = .control tpos th body .controlWait) :
    execAbort q t th.tag s =
      finishControl q .ok 0 .none false (completeHead t (completion s t th .aborted) s) := by
  have htag : abortTag (s.queue t).head = some th.tag := by rw [ht]; rfl
  rw [execAbort, if_pos htag, ← completeControl_of_head ht]
  simp only [abortTarget, ht]

/-- The two completions of an ABORT that meets a record in CONTROL_WAIT, each with the stamps as the step found them. -/
theorem exec_abort_of_controlWait {tag : Word} (hs : Selects s q pos h (.abort t tag)) (hne : t ≠ q)
    (ht : (s.queue t).head = .control tpos th body .controlWait) (htag : th.tag = tag) :
    exec .controlSelect s = .next (completeHead q (completion s q h .ok)
      (completeHead t (completion s t th .aborted) (executing q pos h (.abort t tag) s))) := by
  subst htag
  have hmeet : ((executing q pos h (.abort t th.tag) s).queue t).head = .control tpos th body .controlWait := by
    rw [executing_queue_ne s pos h _ hne, ht]
  have hstamps : completion (executing q pos h (.abort t th.tag) s) t th .aborted = completion s t th .aborted :=
    completion_congr rfl rfl ..
  rw [exec_controlSelect_of_selects hs, executeControl, execAbort_of_controlWait hmeet, hstamps]
  generalize hu : completeHead t (completion s t th .aborted) (executing q pos h (.abort t th.tag) s) = u
  have hhead : (u.queue q).head = .control pos h (.abort t th.tag) .executing := by
    rw [← hu, completeHead_queue_ne _ _ hne.symm, executing_head]
  have hidle : u.cu.work = none := by rw [← hu, completeHead_cu]; rfl
  have ha : u.portA.fcount = s.portA.fcount := by rw [← hu, completeHead_frame]; rfl
  have hb : u.portB.fcount = s.portB.fcount := by rw [← hu, completeHead_frame]; rfl
  exact congrArg _ (finishControl_of_idle hhead hidle ha hb .ok)

end

/-- Settles O40: the decode bound, the three outcomes by HELD and the binding, and the ABORT in CONTROL_WAIT, which changes
no context since completions change none. -/
theorem clearContextRule : Obligations.ClearContextRule := by
  refine ⟨fun q bytes hk => ?decodeBound, ?outcomes, ?abort⟩
  case decodeBound =>
    rw [decodeBody_clearContext q hk, Option.map_eq_none_iff, index?_eq_none_iff]
    exact Nat.lt_iff_add_one_le
  case outcomes =>
    rintro s q pos h c e hs rfl
    refine ⟨fun hheld => ?held, fun hheld hbound => ?bound, fun hheld hfree => ?unbound⟩
    case held => exact exec_clearContext_of_unchanged hs (execClearContext_of_held hheld)
    case bound => exact exec_clearContext_of_bound hs hheld hbound
    case unbound => exact exec_clearContext_of_unchanged hs (execClearContext_of_unbound hheld hfree)
  case abort =>
    intro s q t pos tpos h th tag c hs hne ht htag
    refine ⟨_, exec_abort_of_controlWait hs hne ht htag, ?contexts, rfl⟩
    rw [completeHead_contexts, completeHead_contexts]
    rfl

end Sys2Proof.Machine
end

section
/-! SUPPORT. Writes of CQHEAD: which are accepted, what they set, and where the entries they return go (R157, R158, R160). -/

namespace Sys2Proof.Machine

open Sys2Proof

/-! ### The SUMMARY that returned entries serve first (R160) -/

/-- FOLDSET is empty exactly when it has no member. -/
theorem foldEmpty_iff (f : FoldSet) : foldEmpty f = true ↔ f = ⟨false, false, false, false⟩ := by
  cases f; simp [foldEmpty, and_assoc]

/-- No SUMMARY is posted while none is owed or no entry is free. -/
theorem postSummary_of_none_owed_or_full {s : State}
    (h : s.cq.foldSet = ⟨false, false, false, false⟩ ∨ freeCount s.cq = 0) : postSummary s = s := by
  rw [postSummary, if_pos (by simpa [foldEmpty_iff] using h)]

/-- A SUMMARY that is owed is posted where an entry is free, and folding begins afresh. -/
theorem postSummary_of_owed {s : State} (howed : s.cq.foldSet ≠ ⟨false, false, false, false⟩)
    (hfree : freeCount s.cq ≠ 0) :
    postSummary s = { s with cq := { cqPost s.cq (summaryRec s) with foldSet := FoldSet.none, foldCnt := 0 } } := by
  rw [postSummary, if_neg (by simp [foldEmpty_iff, howed, hfree])]

/-- Returned entries change nothing more where no SUMMARY is owed and no queue waits for an entry (R158). -/
theorem entriesFreed_of_none_waiting {s : State} (hfold : s.cq.foldSet = ⟨false, false, false, false⟩)
    (hwait : s.waitList = []) : entriesFreed s = s := by
  rw [entriesFreed, postSummary_of_none_owed_or_full (.inl hfold), serveWaitList, hwait, serveEntries]

/-! ### Which writes are accepted (R157) -/

/-- A ring is set up in every engine state but OFF and CONFIGURING. -/
theorem advanceState_iff (s : State) : advanceState s = true ↔ s.eng.st ≠ .off ∧ s.eng.st ≠ .configuring := by
  cases h : s.eng.st <;> simp [advanceState, live, h]

/-- Where a ring is set up, the engine is live unless it is FAULTED. -/
theorem live_iff_of_advanceState {s : State} (h : advanceState s = true) : live s = true ↔ s.eng.st ≠ .faulted := by
  cases hst : s.eng.st <;> simp [advanceState, live, hst] at h ⊢

/-- A write is accepted where a ring is set up, for an index within the posted entries. -/
theorem cqheadOk_iff (s : State) (index : Nat) : cqheadOk s index = true ↔
    advanceState s = true ∧ index < 2 * s.cq.size ∧ headDistance s.cq index ≤ postedCount s.cq := by
  simp [cqheadOk, and_assoc]

/-- HEADX itself lies no distance ahead. -/
theorem headDistance_headx (c : CqWriter) : headDistance c c.headx = 0 := by
  rw [headDistance, Nat.add_sub_cancel_left, Nat.mod_self]

/-! ### The answers to a write -/

section

variable {s : State} {index : BitVec 16}

/-- A write that is not accepted reports an index error of CQHEAD and leaves the ring alone. -/
theorem exec_cqheadWrite_of_refused (ha : awake s) (hok : ¬ cqheadOk s index.toNat = true) :
    exec (.cqheadWrite index) s = .next (refuseCqhead s) := by
  simp only [exec, execCqheadWrite, taken_eq ha, if_neg hok]

/-- An accepted write returns no entries in FAULTED, nor where HEADX does not move: it sets HEADX alone. -/
theorem exec_cqheadWrite_of_none_freed (ha : awake s) (hok : cqheadOk s index.toNat = true)
    (h : s.eng.st = .faulted ∨ headDistance s.cq index.toNat = 0) :
    exec (.cqheadWrite index) s = .next { s with cq := { s.cq with headx := index.toNat } } := by
  have hlive := live_iff_of_advanceState ((cqheadOk_iff s _).mp hok).1
  have hnone : ¬ (live s && decide (headDistance s.cq index.toNat ≠ 0)) = true := by
    rw [Bool.and_eq_true, hlive, decide_eq_true_iff]
    tauto
  simp only [exec, execCqheadWrite, taken_eq ha, if_pos hok, if_neg hnone]

/-- An accepted write outside FAULTED that moves HEADX gives the entries it returns to a SUMMARY and to the wait list. -/
theorem exec_cqheadWrite_of_freed (ha : awake s) (hok : cqheadOk s index.toNat = true)
    (hst : s.eng.st ≠ .faulted) (hmove : headDistance s.cq index.toNat ≠ 0) :
    exec (.cqheadWrite index) s = .next (entriesFreed { s with cq := { s.cq with headx := index.toNat } }) := by
  have hlive := (live_iff_of_advanceState ((cqheadOk_iff s _).mp hok).1).mpr hst
  have hfreed : (live s && decide (headDistance s.cq index.toNat ≠ 0)) = true := by
    rw [hlive, Bool.true_and, decide_eq_true hmove]
  simp only [exec, execCqheadWrite, taken_eq ha, if_pos hok, if_pos hfreed]

/-- A write of HEADX itself changes nothing. -/
theorem exec_cqheadWrite_headx (ha : awake s) (hring : advanceState s = true) (hlt : s.cq.headx < 2 * s.cq.size)
    (hi : index.toNat = s.cq.headx) : exec (.cqheadWrite index) s = .next s := by
  have hdist : headDistance s.cq index.toNat = 0 := by rw [hi, headDistance_headx]
  have hok : cqheadOk s index.toNat = true :=
    (cqheadOk_iff s _).mpr ⟨hring, hi ▸ hlt, hdist ▸ Nat.zero_le _⟩
  rw [exec_cqheadWrite_of_none_freed ha hok (.inr hdist), hi]

end

/-- Settles O26: the read value, the SUMMARY's two cases, and a write by whether it is accepted and returns entries. -/
theorem cqheadWriteRule : Obligations.CqheadWriteRule := by
  refine ⟨fun s => rfl, fun s => ⟨postSummary_of_none_owed_or_full, postSummary_of_owed⟩, fun index s ha => ?_⟩
  refine ⟨fun hlt hi hoff hconf => ?same, fun hbad => ?refused, fun hoff hconf hlt hdist => ?accepted⟩
  case same => exact exec_cqheadWrite_headx ha ((advanceState_iff s).mpr ⟨hoff, hconf⟩) hlt hi
  case refused =>
    refine exec_cqheadWrite_of_refused ha fun hok => ?_
    obtain ⟨hring, hlt, hdist⟩ := (cqheadOk_iff s _).mp hok
    obtain ⟨hoff, hconf⟩ := (advanceState_iff s).mp hring
    rcases hbad with h | h | h | h
    · exact hoff h
    · exact hconf h
    · exact h.not_gt hlt
    · exact h.not_ge hdist
  case accepted =>
    have hok : cqheadOk s index.toNat = true :=
      (cqheadOk_iff s _).mpr ⟨(advanceState_iff s).mpr ⟨hoff, hconf⟩, hlt, hdist⟩
    refine ⟨exec_cqheadWrite_of_none_freed ha hok, fun hst hmove => ?_⟩
    have hfreed := exec_cqheadWrite_of_freed ha hok hst hmove
    exact ⟨hfreed, fun hfold hwait => hfreed.trans (congrArg _ (entriesFreed_of_none_waiting hfold hwait))⟩

end Sys2Proof.Machine
end

section
/-! SUPPORT. IRQMASK through every operation of the block: one lemma for each operation, in the order of the model, that it
leaves the mask alone (R165). -/

namespace Sys2Proof.Machine

open Sys2Proof

/-! ### The completion writer -/

@[simp] theorem raiseEvent_irqMask (s : State) (k : EvKind) (n : Nat) (r : EvReason) :
    (raiseEvent s k n r).irqMask = s.irqMask := by rw [raiseEvent_frame]

@[simp] theorem postSummary_irqMask (s : State) : (postSummary s).irqMask = s.irqMask := by rw [postSummary_frame]

@[simp] theorem reportCompletions_irqMask (s : State) : (reportCompletions s).irqMask = s.irqMask := rfl

@[simp] theorem countWritten_irqMask (s : State) (now : Bool) : (countWritten s now).irqMask = s.irqMask := by
  unfold countWritten; dsimp only; split <;> rfl

@[simp] theorem recordWritten_irqMask (s : State) : (recordWritten s).irqMask = s.irqMask := by
  unfold recordWritten; split
  · rfl
  · rw [countWritten_irqMask]

/-! ### The queue fetcher -/

@[simp] theorem askIfEligible_irqMask (q : Fin 4) (s : State) : (askIfEligible q s).irqMask = s.irqMask := by
  rw [askIfEligible_frame]

@[simp] theorem flushEffect_irqMask (q : Fin 4) (s : State) : (flushEffect q s).irqMask = s.irqMask := rfl

@[simp] theorem flushOwn_irqMask (q : Fin 4) (s : State) : (flushOwn q s).irqMask = s.irqMask := by rw [flushOwn_frame]

@[simp] theorem serveWaitList_irqMask (s : State) : (serveWaitList s).irqMask = s.irqMask := by
  rw [serveWaitList, serveEntries_frame]

@[simp] theorem refusePost_irqMask (q : Fin 4) (s : State) : (refusePost q s).irqMask = s.irqMask := rfl

/-! ### The stream table -/

@[simp] theorem notify_irqMask (s : State) (n : Fin 48) : (notify s n).irqMask = s.irqMask := rfl

@[simp] theorem portAppend_irqMask (n : Fin 48) (f : Word) (x : Sample) (s : State) :
    (portAppend n f x s).irqMask = s.irqMask := by rw [portAppend_frame]

@[simp] theorem portTake_irqMask (n : Fin 48) (f : Word) (s : State) : (portTake n f s).irqMask = s.irqMask := by
  rw [portTake_frame]

@[simp] theorem setClaims_irqMask (b : Bool) (l : List (Fin 48)) (s : State) :
    (setClaims b l s).irqMask = s.irqMask := by rw [setClaims_frame]

@[simp] theorem releaseStreams_irqMask (d : DataRec) (s : State) : (releaseStreams d s).irqMask = s.irqMask := by
  rw [releaseStreams_frame]

@[simp] theorem commitStreams_irqMask (d : DataRec) (s : State) : (commitStreams d s).irqMask = s.irqMask := by
  rw [commitStreams_frame]

@[simp] theorem setMirror_irqMask (n : Fin 48) (dir : Dir) (m : Option BindMirror) (s : State) :
    (setMirror n dir m s).irqMask = s.irqMask := by cases dir <;> rfl

/-! ### The chain cache -/

@[simp] theorem joinRequest_irqMask (a : Word) (q : Fin 4) (s : State) : (joinRequest a q s).irqMask = s.irqMask := rfl

@[simp] theorem placeRequest_irqMask (a : Word) (p : Place) (q : Fin 4) (s : State) :
    (placeRequest a p q s).irqMask = s.irqMask := rfl

@[simp] theorem joinFill_irqMask (q : Fin 4) (s : State) : (joinFill q s).irqMask = s.irqMask := rfl

@[simp] theorem withdrawWaiter_irqMask (q : Fin 4) (s : State) : (withdrawWaiter q s).irqMask = s.irqMask := rfl

@[simp] theorem touchEntry_irqMask (e : Fin 8) (s : State) : (touchEntry e s).irqMask = s.irqMask := rfl

@[simp] theorem lruDrop_irqMask (e : Fin 8) (s : State) : (lruDrop e s).irqMask = s.irqMask := rfl

@[simp] theorem lruJoin_irqMask (e : Fin 8) (s : State) : (lruJoin e s).irqMask = s.irqMask := rfl

@[simp] theorem invalidate_irqMask (e : Fin 8) (s : State) : (invalidate e s).irqMask = s.irqMask := by
  unfold invalidate; split <;> rfl

@[simp] theorem invalidateAll_irqMask (l : List (Fin 8)) (s : State) : (invalidateAll l s).irqMask = s.irqMask := by
  induction l generalizing s with
  | nil => rfl
  | cons e l ih => rw [invalidateAll, ih, invalidate_irqMask]

@[simp] theorem useEndOf_irqMask (j : JobRec) (s : State) : (useEndOf j s).irqMask = s.irqMask := by
  unfold useEndOf; split
  · rw [useEnd_frame, State.setEntry_irqMask]
  · rfl

/-! ### Heads of the scheduler -/

@[simp] theorem setJob_irqMask (q : Fin 4) (j : JobRec) (s : State) : (setJob q j s).irqMask = s.irqMask := by
  unfold setJob; split <;> rfl

@[simp] theorem checkDrain_irqMask (s : State) : (checkDrain s).irqMask = s.irqMask := by rw [checkDrain_frame]

@[simp] theorem completeJob_irqMask (q : Fin 4) (st : Status) (s : State) :
    (completeJob q st s).irqMask = s.irqMask := by
  unfold completeJob; split
  · exact completeHead_irqMask ..
  · rfl

@[simp] theorem completeControl_irqMask (q : Fin 4) (st : Status) (n : Nat) (d : Detail) (hit : Bool) (s : State) :
    (completeControl q st n d hit s).irqMask = s.irqMask := by
  unfold completeControl; split
  · exact completeHead_irqMask ..
  · rfl

@[simp] theorem completeParked_irqMask (q : Fin 4) (st : Status) (d : Detail) (s : State) :
    (completeParked q st d s).irqMask = s.irqMask := by
  unfold completeParked; split
  · exact completeHead_irqMask ..
  · rfl

@[simp] theorem finishControl_irqMask (q : Fin 4) (st : Status) (n : Nat) (d : Detail) (hit : Bool) (s : State) :
    (finishControl q st n d hit s).irqMask = s.irqMask := by rw [finishControl, completeControl_irqMask]

@[simp] theorem parkControl_irqMask (q : Fin 4) (s : State) : (parkControl q s).irqMask = s.irqMask := by
  unfold parkControl; split <;> rfl

@[simp] theorem failStart_irqMask (q : Fin 4) (st : Status) (s : State) : (failStart q st s).irqMask = s.irqMask := by
  unfold failStart; split
  · rw [completeJob_irqMask, useEndOf_irqMask]; split
    · exact releaseStreams_irqMask ..
    · rfl
  · rfl

@[simp] theorem reexamine_irqMask (n : Fin 48) (q : Fin 4) (s : State) : (reexamine n q s).irqMask = s.irqMask := by
  unfold reexamine; split
  · split
    · split
      · exact completeJob_irqMask ..
      · exact setJob_irqMask ..
    · rfl
  · rfl

@[simp] theorem reexamineAll_irqMask (n : Fin 48) (l : List (Fin 4)) (s : State) :
    (reexamineAll n l s).irqMask = s.irqMask := by
  induction l generalizing s with
  | nil => rfl
  | cons q l ih => rw [reexamineAll, ih, reexamine_irqMask]

@[simp] theorem tickQueues_irqMask (s : State) : (tickQueues s).irqMask = s.irqMask := by
  unfold tickQueues; split <;> rfl

/-! ### The datapath -/

@[simp] theorem issueReads_irqMask (l : List ReadChoice) (s : State) : (issueReads l s).irqMask = s.irqMask := by
  unfold issueReads; split
  · split <;> rfl
  · rfl

@[simp] theorem loadDelay_irqMask (s : State) : (loadDelay s).irqMask = s.irqMask := by
  unfold loadDelay; split <;> rfl

@[simp] theorem pushGather_irqMask (j : JobRec) (s : State) : (pushGather j s).irqMask = s.irqMask := by
  unfold pushGather; split <;> rfl

@[simp] theorem endContext_irqMask (j : JobRec) (dp : Datapath) (s : State) :
    (endContext j dp s).irqMask = s.irqMask := by
  unfold endContext; split
  · rfl
  · split <;> rfl

@[simp] theorem endStreams_irqMask (j : JobRec) (dp : Datapath) (s : State) :
    (endStreams j dp s).irqMask = s.irqMask := by
  unfold endStreams; split
  · exact commitStreams_irqMask ..
  · exact releaseStreams_irqMask ..

@[simp] theorem endAbort_irqMask (q : Fin 4) (s : State) : (endAbort q s).irqMask = s.irqMask := by
  unfold endAbort; split
  · split
    · exact finishControl_irqMask ..
    · rfl
  · rfl

@[simp] theorem endOfJob_irqMask (s : State) : (endOfJob s).irqMask = s.irqMask := by
  unfold endOfJob; dsimp only; split
  · simp only [checkDrain_irqMask, endAbort_irqMask, completeHead_irqMask, useEndOf_irqMask, endContext_irqMask,
      endStreams_irqMask]
  · rfl

@[simp] theorem settle_irqMask (s : State) : (settle s).irqMask = s.irqMask := by
  unfold settle; split
  · exact endOfJob_irqMask s
  · rfl

@[simp] theorem handOn_irqMask (j : JobRec) (i : Nat) (y : Sample) (s : State) :
    (handOn j i y s).irqMask = s.irqMask := by
  unfold handOn; split <;> rfl

@[simp] theorem afterSample_irqMask (j : JobRec) (s : State) : (afterSample j s).irqMask = s.irqMask := by
  unfold afterSample; split
  · rfl
  · exact pushGather_irqMask ..

@[simp] theorem computeNext_irqMask (j : JobRec) (s : State) : (computeNext j s).irqMask = s.irqMask := by
  unfold computeNext; split
  · rfl
  · split
    · rfl
    · split
      · rfl
      · rw [afterSample_irqMask, handOn_irqMask]

@[simp] theorem computeStep_irqMask (l : List ReadChoice) (s : State) : (computeStep l s).irqMask = s.irqMask := by
  unfold computeStep; split
  · split
    · rw [settle_irqMask, computeNext_irqMask, pushGather_irqMask, issueReads_irqMask]
    · rfl
  · rfl

@[simp] theorem takeWords_irqMask (r : DpRead) (data : List Byte) (l : List ReadChoice) (s : State) :
    (takeWords r data l s).irqMask = s.irqMask := by
  have hdelay (t : State) : (if s.dp.next = 0 then loadDelay t else t).irqMask = t.irqMask := by
    split
    · exact loadDelay_irqMask t
    · rfl
  unfold takeWords; dsimp only; split
  · rw [issueReads_irqMask, pushGather_irqMask, hdelay]
  · rw [hdelay]

/-! ### The start sequence -/

@[simp] theorem holdContext_irqMask (j : JobRec) (s : State) : (holdContext j s).irqMask = s.irqMask := by
  unfold holdContext; split <;> rfl

@[simp] theorem enterRunning_irqMask (q : Fin 4) (l : List ReadChoice) (s : State) :
    (enterRunning q l s).irqMask = s.irqMask := by
  unfold enterRunning; split
  · rw [issueReads_irqMask, loadDelay_irqMask, setJob_irqMask]; exact holdContext_irqMask ..
  · rfl

@[simp] theorem startWithChain_irqMask (q : Fin 4) (l : List ReadChoice) (s : State) :
    (startWithChain q l s).irqMask = s.irqMask := by
  unfold startWithChain; split
  · split
    · exact failStart_irqMask ..
    · exact enterRunning_irqMask ..
  · rfl

@[simp] theorem holdEntry_irqMask (q : Fin 4) (e : Fin 8) (hit : Bool) (j : JobRec) (s : State) :
    (holdEntry q e hit j s).irqMask = s.irqMask := by rw [holdEntry, setJob_irqMask, State.setEntry_irqMask]

@[simp] theorem chainStep_irqMask (q : Fin 4) (l : List ReadChoice) (s : State) :
    (chainStep q l s).irqMask = s.irqMask := by
  unfold chainStep; split
  · rfl
  · split
    · exact enterRunning_irqMask ..
    · split
      · split <;> simp
      · dsimp only; split
        · simp
        · split <;> simp

@[simp] theorem retryJobPlace_irqMask (s : State) : (retryJobPlace s).irqMask = s.irqMask := by
  unfold retryJobPlace; split
  · split
    · exact chainStep_irqMask ..
    · rfl
  · rfl

@[simp] theorem startSequence_irqMask (q : Fin 4) (l : List ReadChoice) (s : State) :
    (startSequence q l s).irqMask = s.irqMask := by
  unfold startSequence; split
  · rfl
  · split <;> simp

@[simp] theorem arbiterMove_irqMask (q : Fin 4) (s : State) : (arbiterMove q s).irqMask = s.irqMask := by
  unfold arbiterMove; split <;> rfl

@[simp] theorem enterStarting_irqMask (q : Fin 4) (s : State) : (enterStarting q s).irqMask = s.irqMask := by
  unfold enterStarting; split
  · exact setJob_irqMask ..
  · rfl

/-! ### The chain loader -/

@[simp] theorem servePassed_irqMask (e : Fin 8) (stale : Bool) (l : List ReadChoice) (q : Fin 4) (s : State) :
    (servePassed e stale l q s).irqMask = s.irqMask := by
  unfold servePassed; split
  · split
    · rw [startWithChain_irqMask, setJob_irqMask]
    · rfl
  · split <;> exact completeParked_irqMask ..

@[simp] theorem servePassedAll_irqMask (e : Fin 8) (stale : Bool) (l : List ReadChoice) (qs : List (Fin 4)) (s : State) :
    (servePassedAll e stale l qs s).irqMask = s.irqMask := by
  induction qs generalizing s with
  | nil => rfl
  | cons q qs ih => rw [servePassedAll, ih, servePassed_irqMask]

@[simp] theorem serveFailed_irqMask (st : Status) (q : Fin 4) (s : State) :
    (serveFailed st q s).irqMask = s.irqMask := by
  unfold serveFailed; split
  · exact failStart_irqMask ..
  · exact completeParked_irqMask ..

@[simp] theorem serveFailedAll_irqMask (st : Status) (qs : List (Fin 4)) (s : State) :
    (serveFailedAll st qs s).irqMask = s.irqMask := by
  induction qs generalizing s with
  | nil => rfl
  | cons q qs ih => rw [serveFailedAll, ih, serveFailed_irqMask]

@[simp] theorem noFill_irqMask (s : State) : (noFill s).irqMask = s.irqMask := rfl

@[simp] theorem fillPassed_irqMask (f : Fill) (o : List (Fin 4)) (l : List ReadChoice) (s : State) :
    (fillPassed f o l s).irqMask = s.irqMask := by
  unfold fillPassed; dsimp only
  rw [servePassedAll_irqMask]; split <;> rfl

@[simp] theorem fillFailed_irqMask (st : Status) (f : Fill) (o : List (Fin 4)) (s : State) :
    (fillFailed st f o s).irqMask = s.irqMask := by
  rw [fillFailed, serveFailedAll_irqMask, State.setEntry_irqMask, noFill_irqMask]

@[simp] theorem markFilling_irqMask (l : List (Fin 4)) (s : State) : (markFilling l s).irqMask = s.irqMask := by
  induction l generalizing s with
  | nil => rfl
  | cons q l ih =>
    rw [markFilling, ih]; split
    · exact setJob_irqMask ..
    · rfl

@[simp] theorem beginFill_irqMask (r : Request) (rest : List Request) (o : List (Fin 4)) (s : State) :
    (beginFill r rest o s).irqMask = s.irqMask := by
  unfold beginFill; dsimp only; split
  · simp
  · split <;> simp

@[simp] theorem putStages_irqMask (f : Fill) (l : List StageRec) (s : State) :
    (putStages f l s).irqMask = s.irqMask := rfl

@[simp] theorem headerDone_irqMask (f : Fill) (o : List (Fin 4)) (s : State) :
    (headerDone f o s).irqMask = s.irqMask := by
  unfold headerDone; dsimp only; split
  · rfl
  · exact fillFailed_irqMask ..

@[simp] theorem stagesDone_irqMask (f : Fill) (o : List (Fin 4)) (l : List ReadChoice) (s : State) :
    (stagesDone f o l s).irqMask = s.irqMask := by
  unfold stagesDone; split
  · exact fillFailed_irqMask ..
  · split
    · rw [fillPassed_irqMask, putStages_irqMask]
    · split
      · rfl
      · exact fillFailed_irqMask ..

@[simp] theorem coefsDone_irqMask (f : Fill) (o : List (Fin 4)) (l : List ReadChoice) (s : State) :
    (coefsDone f o l s).irqMask = s.irqMask := by rw [coefsDone, fillPassed_irqMask, putStages_irqMask]

@[simp] theorem partDone_irqMask (f : Fill) (o : List (Fin 4)) (l : List ReadChoice) (s : State) :
    (partDone f o l s).irqMask = s.irqMask := by
  unfold partDone; split
  · exact fillFailed_irqMask ..
  · split
    · exact headerDone_irqMask ..
    · exact stagesDone_irqMask ..
    · exact coefsDone_irqMask ..

@[simp] theorem chainLoad_irqMask (q : Fin 4) (pin : Bool) (a : Word) (s : State) :
    (chainLoad q pin a s).irqMask = s.irqMask := by
  unfold chainLoad; split
  · dsimp only; split
    · exact finishControl_irqMask ..
    · split
      · exact finishControl_irqMask ..
      · split <;> simp
  · split
    · exact finishControl_irqMask ..
    · split
      · simp
      · split <;> simp

@[simp] theorem chainUnpin_irqMask (q : Fin 4) (a : Word) (s : State) : (chainUnpin q a s).irqMask = s.irqMask := by
  unfold chainUnpin; split
  · dsimp only; rw [finishControl_irqMask]; split <;> rfl
  · exact finishControl_irqMask ..

@[simp] theorem chainInvalidate_irqMask (q : Fin 4) (a : Word) (s : State) :
    (chainInvalidate q a s).irqMask = s.irqMask := by
  unfold chainInvalidate; split <;> simp

@[simp] theorem chainControl_irqMask (q : Fin 4) (action : ChainAction) (a : Word) (s : State) :
    (chainControl q action a s).irqMask = s.irqMask := by
  cases action with
  | load => exact chainLoad_irqMask ..
  | loadPin => exact chainLoad_irqMask ..
  | unpin => exact chainUnpin_irqMask ..
  | invalidate => exact chainInvalidate_irqMask ..
  | invalidateAll => rw [chainControl, chainInvalidateAll, finishControl_irqMask, invalidateAll_irqMask]

@[simp] theorem retryControlPlace_irqMask (s : State) : (retryControlPlace s).irqMask = s.irqMask := by
  unfold retryControlPlace; split
  · split
    · split
      · exact chainControl_irqMask ..
      · rfl
    · rfl
  · rfl

/-! ### The frame ports -/

@[simp] theorem takeSlot_irqMask (p : PortId) (f : Word) (j : Fin 32) (s : State) :
    (takeSlot p f j s).irqMask = s.irqMask := by
  unfold takeSlot; split <;> simp

@[simp] theorem takeSlots_irqMask (p : PortId) (f : Word) (l : List (Fin 32)) (s : State) :
    (takeSlots p f l s).irqMask = s.irqMask := by
  induction l generalizing s with
  | nil => rfl
  | cons j l ih => rw [takeSlots, ih, takeSlot_irqMask]

@[simp] theorem appendSlot_irqMask (p : PortId) (f : Word) (j : Fin 32) (s : State) :
    (appendSlot p f j s).irqMask = s.irqMask := by
  unfold appendSlot; split
  · exact portAppend_irqMask ..
  · rfl

@[simp] theorem appendSlots_irqMask (p : PortId) (f : Word) (l : List (Fin 32)) (s : State) :
    (appendSlots p f l s).irqMask = s.irqMask := by
  induction l generalizing s with
  | nil => rfl
  | cons j l ih => rw [appendSlots, ih, appendSlot_irqMask]

@[simp] theorem applySlot_irqMask (p : PortId) (j : Fin 32) (s : State) : (applySlot p j s).irqMask = s.irqMask := by
  unfold applySlot; dsimp only; split
  · rfl
  · simp
  · split <;> simp

@[simp] theorem applySlots_irqMask (p : PortId) (l : List (Fin 32)) (s : State) :
    (applySlots p l s).irqMask = s.irqMask := by
  induction l generalizing s with
  | nil => rfl
  | cons j l ih => rw [applySlots, ih, applySlot_irqMask]

@[simp] theorem releaseBind_irqMask (q : Fin 4) (s : State) : (releaseBind q s).irqMask = s.irqMask := by
  unfold releaseBind; split
  · exact completeParked_irqMask ..
  · rfl

@[simp] theorem releaseParked_irqMask (l : List (Fin 4)) (s : State) : (releaseParked l s).irqMask = s.irqMask := by
  induction l generalizing s with
  | nil => rfl
  | cons q l ih => rw [releaseParked, ih, releaseBind_irqMask]

@[simp] theorem frameEvent_irqMask (p : PortId) (mark : Bool) (s : State) :
    (frameEvent p mark s).irqMask = s.irqMask := by simp [frameEvent]

@[simp] theorem lockEvent_irqMask (p : PortId) (s : State) : (lockEvent p s).irqMask = s.irqMask := by simp [lockEvent]

@[simp] theorem lossEvent_irqMask (p : PortId) (r : LossReason) (s : State) :
    (lossEvent p r s).irqMask = s.irqMask := by simp [lossEvent]

@[simp] theorem huntMark_irqMask (p : PortId) (s : State) : (huntMark p s).irqMask = s.irqMask := by simp [huntMark]

@[simp] theorem dropCandidate_irqMask (p : PortId) (s : State) : (dropCandidate p s).irqMask = s.irqMask := by
  simp [dropCandidate]

@[simp] theorem takeDue_irqMask (p : PortId) (s : State) : (takeDue p s).irqMask = s.irqMask := by
  unfold takeDue; split
  · unfold takeLineEvent; split <;> simp
  · rfl

@[simp] theorem bitClock_irqMask (p : PortId) (din sync : Bool) (s : State) :
    (bitClock p din sync s).irqMask = s.irqMask := by simp [bitClock]

@[simp] theorem recordPending_irqMask (p : PortId) (j : Fin 32) (a : BindAction) (q : Fin 4) (s : State) :
    (recordPending p j a q s).irqMask = s.irqMask := by
  unfold recordPending; dsimp only; split
  · simp
  · split <;> simp

@[simp] theorem execBind_irqMask (q : Fin 4) (p : PortId) (j : Fin 32) (a : BindAction) (s : State) :
    (execBind q p j a s).irqMask = s.irqMask := by
  unfold execBind; split
  · split <;> simp [applyNow]
  · exact finishControl_irqMask ..

@[simp] theorem withdrawSlot_irqMask (p : PortId) (j : Fin 32) (s : State) :
    (withdrawSlot p j s).irqMask = s.irqMask := by
  unfold withdrawSlot; dsimp only; split
  · rfl
  · simp
  · split <;> simp

/-! ### The control unit -/

@[simp] theorem execDefine_irqMask (q : Fin 4) (n : Fin 48) (base length hist : Nat) (producer : Producer)
    (consumer : Consumer) (policy : OverrunPolicy) (idle : Sample) (s : State) :
    (execDefine q n base length hist producer consumer policy idle s).irqMask = s.irqMask := by
  unfold execDefine; split
  · exact finishControl_irqMask ..
  · split <;> simp

@[simp] theorem execRetire_irqMask (q : Fin 4) (n : Fin 48) (s : State) : (execRetire q n s).irqMask = s.irqMask := by
  unfold execRetire; split <;> simp

@[simp] theorem execRead_irqMask (q : Fin 4) (n : Fin 48) (a : Word) (rearm : Bool) (s : State) :
    (execRead q n a rearm s).irqMask = s.irqMask := by
  unfold execRead; split
  · rfl
  · exact finishControl_irqMask ..

@[simp] theorem execClearContext_irqMask (q : Fin 4) (c : Fin 32) (s : State) :
    (execClearContext q c s).irqMask = s.irqMask := by
  unfold execClearContext; split
  · exact finishControl_irqMask ..
  · split <;> simp

@[simp] theorem abortStarting_irqMask (t : Fin 4) (s : State) : (abortStarting t s).irqMask = s.irqMask := by
  rw [abortStarting, failStart_irqMask, withdrawWaiter_irqMask]

@[simp] theorem abortParked_irqMask (t : Fin 4) (body : ControlRec) (s : State) :
    (abortParked t body s).irqMask = s.irqMask := by
  unfold abortParked; rw [completeControl_irqMask]; split <;> simp

@[simp] theorem abortTarget_irqMask (q t : Fin 4) (s : State) : (abortTarget q t s).irqMask = s.irqMask := by
  unfold abortTarget; split
  · split <;> simp
  · split <;> simp
  · exact finishControl_irqMask ..

@[simp] theorem execAbort_irqMask (q t : Fin 4) (tag : Word) (s : State) :
    (execAbort q t tag s).irqMask = s.irqMask := by
  unfold execAbort; split
  · exact abortTarget_irqMask ..
  · exact finishControl_irqMask ..

@[simp] theorem executeControl_irqMask (q : Fin 4) (body : ControlRec) (s : State) :
    (executeControl q body s).irqMask = s.irqMask := by
  cases body with
  | defineStream n base length hist producer consumer policy idle => exact execDefine_irqMask ..
  | retireStream n => exact execRetire_irqMask ..
  | readStream n addr rearm => exact execRead_irqMask ..
  | bindSlot p j action => exact execBind_irqMask ..
  | chainControl action addr => exact chainControl_irqMask ..
  | clearContext c => exact execClearContext_irqMask ..
  | abort t tag => exact execAbort_irqMask ..
  | marker => exact finishControl_irqMask ..

@[simp] theorem selectAndExecute_irqMask (q : Fin 4) (s : State) : (selectAndExecute q s).irqMask = s.irqMask := by
  unfold selectAndExecute; split
  · rw [executeControl_irqMask, State.setHead_irqMask]
  · rfl

/-! ### Engine control and answers of the memory port -/

@[simp] theorem acceptCommand_irqMask (st : EngState) (s : State) : (acceptCommand st s).irqMask = s.irqMask := rfl

@[simp] theorem runFromOff_irqMask (s : State) : (runFromOff s).irqMask = s.irqMask := by
  unfold runFromOff; dsimp only; split <;> rfl

@[simp] theorem setupDone_irqMask (b : ReadBuf) (s : State) : (setupDone b s).irqMask = s.irqMask := by
  unfold setupDone; split
  · rfl
  · dsimp only; split <;> rfl

@[simp] theorem discardFetch_irqMask (q : Fin 4) (s : State) : (discardFetch q s).irqMask = s.irqMask := by
  rw [discardFetch, askIfEligible_irqMask, State.setQueue_irqMask]

@[simp] theorem decodeHead_irqMask (q : Fin 4) (pos : Nat) (bytes : List Byte) (s : State) :
    (decodeHead q pos bytes s).irqMask = s.irqMask := by
  unfold decodeHead; dsimp only; split
  · exact completeHead_irqMask ..
  · unfold admitData; split <;> simp
  · rfl

end Sys2Proof.Machine
end

section
/-! SUPPORT. IRQMASK and IRQ_N: what a command leaves of the mask, and the line by the two registers (R165, R181, R182). -/

namespace Sys2Proof.Machine

open Sys2Proof

/-! ### Commands that keep the mask -/

/-- An answer whose next state, if it has one, holds IRQMASK as `s` does. -/
def KeepsMask (s : State) (o : Host.Outcome State Fault Refusal) : Prop := ∀ t, o = .next t → t.irqMask = s.irqMask

theorem keepsMask_next {s t : State} (h : t.irqMask = s.irqMask) : KeepsMask s (.next t) := by
  intro u hu
  obtain rfl := Host.Outcome.next.inj hu
  exact h

theorem keepsMask_refused (s : State) (r : Refusal) : KeepsMask s (.refused r) := by
  intro t ht
  cases ht

/-- Under the guard a command keeps the mask if the state it computes does. -/
theorem keepsMask_taken {s t : State} (h : t.irqMask = s.irqMask) : KeepsMask s (taken s t) := by
  intro u hu
  obtain ⟨-, rfl⟩ | ⟨-, rfl⟩ := taken_cases hu
  · rfl
  · exact h

/-! ### ENGCTL and the register window -/

theorem execRun_keepsMask (s : State) : KeepsMask s (execRun s) := by
  refine keepsMask_taken ?_
  split
  · exact runFromOff_irqMask s
  · simp only [askIfEligible_irqMask, serveWaitList_irqMask, acceptCommand_irqMask]
  · rfl

theorem execHalt_keepsMask (s : State) : KeepsMask s (execHalt s) := by
  refine keepsMask_taken ?_
  split
  · rw [checkDrain_irqMask, acceptCommand_irqMask]
  · rfl

/-- CLEAR keeps the mask, refused or accepted (R181). -/
theorem execClear_keepsMask (s : State) : KeepsMask s (execClear s) := by
  refine keepsMask_taken ?_
  split <;> rfl

theorem execEngctlReservedCode_keepsMask (code : BitVec 4) (s : State) :
    KeepsMask s (execEngctlReservedCode code s) := by
  unfold execEngctlReservedCode; split
  · exact keepsMask_taken rfl
  · exact keepsMask_refused s _

theorem execPostAdvance_keepsMask (q : Fin 4) (index : BitVec 12) (s : State) :
    KeepsMask s (execPostAdvance q index s) := by
  refine keepsMask_taken ?_
  split
  · rw [askIfEligible_irqMask, State.setQueue_irqMask]
  · exact refusePost_irqMask q s

theorem execPostRestart_keepsMask (q : Fin 4) (s : State) : KeepsMask s (execPostRestart q s) := by
  refine keepsMask_taken ?_
  split
  · rw [askIfEligible_irqMask, State.setQueue_irqMask]
  · rfl

theorem execPostFlush_keepsMask (q : Fin 4) (s : State) : KeepsMask s (execPostFlush q s) := by
  refine keepsMask_taken ?_
  dsimp only; split
  · exact refusePost_irqMask q s
  · split
    · rfl
    · split
      · exact State.setQueue_irqMask ..
      · split
        · exact flushEffect_irqMask q s
        · exact flushOwn_irqMask q s

theorem execCqheadWrite_keepsMask (index : BitVec 16) (s : State) : KeepsMask s (execCqheadWrite index s) := by
  refine keepsMask_taken ?_
  split
  · dsimp only; split
    · rw [entriesFreed, serveWaitList_irqMask, postSummary_irqMask]
    · rfl
  · rfl

theorem execSetupadrWrite_keepsMask (v : Word) (s : State) : KeepsMask s (execSetupadrWrite v s) := by
  refine keepsMask_taken ?_
  split <;> rfl

theorem execRegisterWriteIgnored_keepsMask (offset : Nat) (strobes : BitVec 4) (v : Word) (s : State) :
    KeepsMask s (execRegisterWriteIgnored offset strobes v s) := by
  unfold execRegisterWriteIgnored; split
  · exact keepsMask_refused s _
  · exact keepsMask_next rfl

theorem execSetupReadAnswer_keepsMask (off : Nat) (a : Answer) (s : State) :
    KeepsMask s (execSetupReadAnswer off a s) := by
  refine keepsMask_taken ?_
  split
  · rfl
  · split
    · dsimp only; split
      · exact setupDone_irqMask ..
      · rfl
    · rfl

/-! ### Timers, fetches and completion writes -/

theorem execWaitTimerExpiry_keepsMask (q : Fin 4) (s : State) : KeepsMask s (execWaitTimerExpiry q s) := by
  refine keepsMask_taken ?_
  split
  · exact completeJob_irqMask ..
  · rfl

theorem execCoalescingTimerExpiry_keepsMask (s : State) : KeepsMask s (execCoalescingTimerExpiry s) := by
  refine keepsMask_taken ?_
  split
  · split
    · exact reportCompletions_irqMask s
    · rfl
  · rfl

theorem execHeadFetchData_keepsMask (q : Fin 4) (bytes : List Byte) (s : State) :
    KeepsMask s (execHeadFetchData q bytes s) := by
  refine keepsMask_taken ?_
  split
  · split
    · rfl
    · split
      · exact discardFetch_irqMask q s
      · exact decodeHead_irqMask ..
  · rfl

theorem execHeadFetchError_keepsMask (q : Fin 4) (s : State) : KeepsMask s (execHeadFetchError q s) := by
  refine keepsMask_taken ?_
  split
  · split
    · exact discardFetch_irqMask q s
    · rw [completeHead_irqMask, State.setQueue_irqMask]
  · rfl

theorem execBodyWriteAnswer_keepsMask (s : State) : KeepsMask s (execBodyWriteAnswer s) := by
  refine keepsMask_taken ?_
  split <;> rfl

theorem execPhaseWriteAnswer_keepsMask (s : State) : KeepsMask s (execPhaseWriteAnswer s) := by
  refine keepsMask_taken ?_
  split
  · exact recordWritten_irqMask s
  · rfl

theorem execCqWriteError_keepsMask (s : State) : KeepsMask s (execCqWriteError s) := by
  refine keepsMask_taken ?_
  split <;> rfl

/-! ### The control unit, the scheduler and the loader -/

theorem execControlSelect_keepsMask (s : State) : KeepsMask s (execControlSelect s) := by
  refine keepsMask_taken ?_
  split
  · split
    · exact selectAndExecute_irqMask ..
    · rfl
  · rfl

theorem execSnapshotWriteAnswer_keepsMask (ok : Bool) (s : State) : KeepsMask s (execSnapshotWriteAnswer ok s) := by
  refine keepsMask_taken ?_
  split
  · split
    · rw [checkDrain_irqMask, finishControl_irqMask]; split <;> rfl
    · rw [checkDrain_irqMask, finishControl_irqMask]
  · rfl

theorem execChangeNotice_keepsMask (n : Fin 48) (order : List (Fin 4)) (s : State) :
    KeepsMask s (execChangeNotice n order s) := by
  refine keepsMask_taken ?_
  split
  · exact reexamineAll_irqMask ..
  · rfl

theorem execGrant_keepsMask (reads : List ReadChoice) (s : State) : KeepsMask s (execGrant reads s) := by
  refine keepsMask_taken ?_
  split
  · split
    · rw [startSequence_irqMask, enterStarting_irqMask, arbiterMove_irqMask]
    · rfl
  · rfl

theorem execFillBegin_keepsMask (order : List (Fin 4)) (s : State) : KeepsMask s (execFillBegin order s) := by
  refine keepsMask_taken ?_
  split
  · rw [checkDrain_irqMask, retryControlPlace_irqMask, retryJobPlace_irqMask, beginFill_irqMask]
  · rfl

theorem execFillReadAnswer_keepsMask (off : Nat) (a : Answer) (order : List (Fin 4)) (reads : List ReadChoice)
    (s : State) : KeepsMask s (execFillReadAnswer off a order reads s) := by
  refine keepsMask_taken ?_
  split
  · rfl
  · split
    · dsimp only; split
      · rw [checkDrain_irqMask, partDone_irqMask]
      · rfl
    · rfl

/-! ### The datapath -/

theorem execDpReadAnswer_keepsMask (k : Nat) (data : List Byte) (reads : List ReadChoice) (s : State) :
    KeepsMask s (execDpReadAnswer k data reads s) := by
  refine keepsMask_taken ?_
  split
  · rfl
  · split
    · rfl
    · rw [settle_irqMask]; split
      · exact takeWords_irqMask ..
      · rfl

theorem execDpReadError_keepsMask (k : Nat) (s : State) : KeepsMask s (execDpReadError k s) := by
  refine keepsMask_taken ?_
  split
  · rfl
  · exact settle_irqMask _

theorem execDpWriteAnswer_keepsMask (k : Nat) (s : State) : KeepsMask s (execDpWriteAnswer k s) := by
  refine keepsMask_taken ?_
  split
  · rfl
  · exact settle_irqMask _

theorem execDpWriteError_keepsMask (k : Nat) (s : State) : KeepsMask s (execDpWriteError k s) := by
  refine keepsMask_taken ?_
  split
  · rfl
  · exact settle_irqMask _

theorem execStopRequest_keepsMask (s : State) : KeepsMask s (execStopRequest s) := by
  refine keepsMask_taken ?_
  split
  · dsimp only; split
    · split
      · exact settle_irqMask _
      · rfl
    · rfl
  · rfl

/-! ### The frame ports -/

theorem execFrameEvent_keepsMask (p : PortId) (s : State) : KeepsMask s (execFrameEvent p s) := by
  refine keepsMask_taken ?_
  split
  · exact frameEvent_irqMask ..
  · rfl

theorem execHuntSyncMark_keepsMask (p : PortId) (s : State) : KeepsMask s (execHuntSyncMark p s) := by
  refine keepsMask_taken ?_
  split
  · exact huntMark_irqMask p s
  · rfl

theorem execCandidateDrop_keepsMask (p : PortId) (s : State) : KeepsMask s (execCandidateDrop p s) := by
  refine keepsMask_taken ?_
  split
  · exact dropCandidate_irqMask p s
  · rfl

theorem execLockEvent_keepsMask (p : PortId) (s : State) : KeepsMask s (execLockEvent p s) := by
  refine keepsMask_taken ?_
  split
  · exact lockEvent_irqMask p s
  · rfl

theorem execLossEvent_keepsMask (p : PortId) (s : State) : KeepsMask s (execLossEvent p s) := by
  refine keepsMask_taken ?_
  split
  · exact lossEvent_irqMask ..
  · rfl

/-! ### Every command -/

/-- Only a write of IRQMASK and a pin reset change the mask (R165, R182). -/
theorem exec_keepsMask {c : Instr} (s : State) (hreset : c ≠ .pinReset) (hwrite : ∀ v, c ≠ .irqmaskWrite v) :
    KeepsMask s (exec c s) := by
  cases c with
  | run => exact execRun_keepsMask s
  | halt => exact execHalt_keepsMask s
  | clear => exact execClear_keepsMask s
  | engctlNone => exact keepsMask_next rfl
  | postAdvance q index => exact execPostAdvance_keepsMask q index s
  | postRestart q => exact execPostRestart_keepsMask q s
  | postFlush q => exact execPostFlush_keepsMask q s
  | cqheadWrite index => exact execCqheadWrite_keepsMask index s
  | irqpendWrite v => exact keepsMask_taken rfl
  | irqmaskWrite v => exact absurd rfl (hwrite v)
  | setupadrWrite v => exact execSetupadrWrite_keepsMask v s
  | registerWriteIgnored offset strobes v => exact execRegisterWriteIgnored_keepsMask offset strobes v s
  | pinReset => exact absurd rfl hreset
  | resetRelease => exact keepsMask_next rfl
  | tick => exact keepsMask_taken (tickQueues_irqMask s)
  | waitTimerExpiry q => exact execWaitTimerExpiry_keepsMask q s
  | coalescingTimerExpiry => exact execCoalescingTimerExpiry_keepsMask s
  | setupReadAnswer off a => exact execSetupReadAnswer_keepsMask off a s
  | headFetchData q bytes => exact execHeadFetchData_keepsMask q bytes s
  | headFetchError q => exact execHeadFetchError_keepsMask q s
  | controlSelect => exact execControlSelect_keepsMask s
  | snapshotWriteAnswer ok => exact execSnapshotWriteAnswer_keepsMask ok s
  | stopRequest => exact execStopRequest_keepsMask s
  | changeNotice n order => exact execChangeNotice_keepsMask n order s
  | grant reads => exact execGrant_keepsMask reads s
  | fillBegin order => exact execFillBegin_keepsMask order s
  | fillReadAnswer off a order reads => exact execFillReadAnswer_keepsMask off a order reads s
  | computeSample reads => exact keepsMask_taken (computeStep_irqMask reads s)
  | dpReadAnswer k data reads => exact execDpReadAnswer_keepsMask k data reads s
  | dpReadError k => exact execDpReadError_keepsMask k s
  | dpWriteAnswer k => exact execDpWriteAnswer_keepsMask k s
  | dpWriteError k => exact execDpWriteError_keepsMask k s
  | frameEvent p => exact execFrameEvent_keepsMask p s
  | huntSyncMark p => exact execHuntSyncMark_keepsMask p s
  | candidateDrop p => exact execCandidateDrop_keepsMask p s
  | lockEvent p => exact execLockEvent_keepsMask p s
  | lossEvent p => exact execLossEvent_keepsMask p s
  | bodyWriteAnswer => exact execBodyWriteAnswer_keepsMask s
  | phaseWriteAnswer => exact execPhaseWriteAnswer_keepsMask s
  | cqWriteError => exact execCqWriteError_keepsMask s
  | staleAnswerDiscard k bytes => exact keepsMask_next rfl
  | bitClock p din sync => exact keepsMask_taken (bitClock_irqMask p din sync s)
  | engctlReservedCode code => exact execEngctlReservedCode_keepsMask code s
  | postReservedAction q => exact keepsMask_taken (refusePost_irqMask q s)

/-! ### The line and the registers -/

/-- IRQ_N is asserted exactly while a bit is 1 both in IRQPEND and in IRQMASK (R165). -/
theorem irqAsserted_iff (s : State) : irqAsserted s = true ↔
    (s.irqPend.completion = true ∧ s.irqMask.completion = true) ∨ (s.irqPend.engine = true ∧ s.irqMask.engine = true) ∨
      (s.irqPend.indexError = true ∧ s.irqMask.indexError = true) := by
  simp only [irqAsserted, Bool.or_eq_true, Bool.and_eq_true, or_assoc]

/-- With nothing pending the line is released, whatever the mask. -/
theorem irqAsserted_of_none_pending {s : State} (h : s.irqPend = ⟨false, false, false⟩) : irqAsserted s = false := by
  simp [irqAsserted, h]

/-- A bit of a register word is its number. -/
theorem bit_eq_toNat (b : Bool) : bit b = b.toNat := by cases b <;> rfl

/-- A read of IRQMASK (10.1). -/
theorem readRegister_irqMask (s : State) : readRegister s 0x18 =
    BitVec.ofNat 32 (s.irqMask.completion.toNat + 2 * s.irqMask.engine.toNat + 4 * s.irqMask.indexError.toNat) := by
  simp only [← bit_eq_toNat]; rfl

/-- In the states that accept it a CLEAR resets the engine (R181). -/
theorem exec_clear_of_accepted {s : State} (ha : awake s)
    (hst : s.eng.st = .off ∨ s.eng.st = .halted ∨ s.eng.st = .faulted) : exec .clear s = .next (clearEngine s) := by
  simp only [exec, execClear, taken_eq ha, if_pos hst]

/-- Settles O18: the write, the line, the read, the two resets, and every other command by `exec_keepsMask`. -/
theorem irqMaskRule : Obligations.IrqMaskRule := by
  refine ⟨fun v s ha => ?write, irqAsserted_iff, readRegister_irqMask, fun s t ht => ?reset,
    fun s t ha hst ht => ?clear, fun c s t ht hreset hwrite => exec_keepsMask s hreset hwrite t ht⟩
  case write => exact taken_eq ha
  case reset =>
    obtain rfl := Host.Outcome.next.inj ht
    exact ⟨rfl, irqAsserted_of_none_pending rfl⟩
  case clear =>
    rw [exec_clear_of_accepted ha hst] at ht
    obtain rfl := Host.Outcome.next.inj ht
    exact ⟨rfl, irqAsserted_of_none_pending rfl⟩

end Sys2Proof.Machine
end

section
/-! SUPPORT. Engine control's registers through the operations of the other blocks: one lemma for each operation that leaves
all of them as they are, in the order of the model. -/

namespace Sys2Proof.Machine

open Sys2Proof

/-! ### The completion writer and the queue fetcher -/

@[simp] theorem postSummary_eng (s : State) : (postSummary s).eng = s.eng := by rw [postSummary_frame]

@[simp] theorem countWritten_eng (s : State) (now : Bool) : (countWritten s now).eng = s.eng := by
  unfold countWritten; dsimp only; split <;> rfl

@[simp] theorem recordWritten_eng (s : State) : (recordWritten s).eng = s.eng := by
  unfold recordWritten; split <;> simp

@[simp] theorem askIfEligible_eng (q : Fin 4) (s : State) : (askIfEligible q s).eng = s.eng := by
  rw [askIfEligible_frame]

@[simp] theorem flushEffect_eng (q : Fin 4) (s : State) : (flushEffect q s).eng = s.eng := rfl

@[simp] theorem flushOwn_eng (q : Fin 4) (s : State) : (flushOwn q s).eng = s.eng := by rw [flushOwn_frame]

@[simp] theorem serveWaitList_eng (s : State) : (serveWaitList s).eng = s.eng := by
  rw [serveWaitList, serveEntries_frame]

/-! ### The stream table -/

@[simp] theorem notify_eng (s : State) (n : Fin 48) : (notify s n).eng = s.eng := rfl

@[simp] theorem portAppend_eng (n : Fin 48) (f : Word) (x : Sample) (s : State) : (portAppend n f x s).eng = s.eng := by
  rw [portAppend_frame]

@[simp] theorem portTake_eng (n : Fin 48) (f : Word) (s : State) : (portTake n f s).eng = s.eng := by rw [portTake_frame]

@[simp] theorem setClaims_eng (b : Bool) (l : List (Fin 48)) (s : State) : (setClaims b l s).eng = s.eng := by
  rw [setClaims_frame]

@[simp] theorem releaseStreams_eng (d : DataRec) (s : State) : (releaseStreams d s).eng = s.eng := by
  rw [releaseStreams_frame]

@[simp] theorem commitStreams_eng (d : DataRec) (s : State) : (commitStreams d s).eng = s.eng := by
  rw [commitStreams_frame]

@[simp] theorem setMirror_eng (n : Fin 48) (dir : Dir) (m : Option BindMirror) (s : State) :
    (setMirror n dir m s).eng = s.eng := by cases dir <;> rfl

/-! ### The chain cache -/

@[simp] theorem joinRequest_eng (a : Word) (q : Fin 4) (s : State) : (joinRequest a q s).eng = s.eng := rfl

@[simp] theorem placeRequest_eng (a : Word) (p : Place) (q : Fin 4) (s : State) : (placeRequest a p q s).eng = s.eng := rfl

@[simp] theorem joinFill_eng (q : Fin 4) (s : State) : (joinFill q s).eng = s.eng := rfl

@[simp] theorem withdrawWaiter_eng (q : Fin 4) (s : State) : (withdrawWaiter q s).eng = s.eng := rfl

@[simp] theorem touchEntry_eng (e : Fin 8) (s : State) : (touchEntry e s).eng = s.eng := rfl

@[simp] theorem lruDrop_eng (e : Fin 8) (s : State) : (lruDrop e s).eng = s.eng := rfl

@[simp] theorem lruJoin_eng (e : Fin 8) (s : State) : (lruJoin e s).eng = s.eng := rfl

@[simp] theorem invalidate_eng (e : Fin 8) (s : State) : (invalidate e s).eng = s.eng := by
  unfold invalidate; split <;> rfl

@[simp] theorem invalidateAll_eng (l : List (Fin 8)) (s : State) : (invalidateAll l s).eng = s.eng := by
  induction l generalizing s with
  | nil => rfl
  | cons e l ih => rw [invalidateAll, ih, invalidate_eng]

@[simp] theorem useEndOf_eng (j : JobRec) (s : State) : (useEndOf j s).eng = s.eng := by
  unfold useEndOf; split
  · rw [useEnd_frame, State.setEntry_eng]
  · rfl

/-! ### Heads of the scheduler -/

@[simp] theorem setJob_eng (q : Fin 4) (j : JobRec) (s : State) : (setJob q j s).eng = s.eng := by
  unfold setJob; split <;> rfl

@[simp] theorem completeJob_eng (q : Fin 4) (st : Status) (s : State) : (completeJob q st s).eng = s.eng := by
  unfold completeJob; split <;> simp

@[simp] theorem completeControl_eng (q : Fin 4) (st : Status) (n : Nat) (d : Detail) (hit : Bool) (s : State) :
    (completeControl q st n d hit s).eng = s.eng := by
  unfold completeControl; split <;> simp

@[simp] theorem completeParked_eng (q : Fin 4) (st : Status) (d : Detail) (s : State) :
    (completeParked q st d s).eng = s.eng := by
  unfold completeParked; split <;> simp

@[simp] theorem finishControl_eng (q : Fin 4) (st : Status) (n : Nat) (d : Detail) (hit : Bool) (s : State) :
    (finishControl q st n d hit s).eng = s.eng := by rw [finishControl, completeControl_eng]

@[simp] theorem parkControl_eng (q : Fin 4) (s : State) : (parkControl q s).eng = s.eng := by
  unfold parkControl; split <;> rfl

@[simp] theorem failStart_eng (q : Fin 4) (st : Status) (s : State) : (failStart q st s).eng = s.eng := by
  unfold failStart; split
  · simp only [completeJob_eng, useEndOf_eng, apply_ite State.eng, releaseStreams_eng, ite_self]
  · rfl

@[simp] theorem reexamine_eng (n : Fin 48) (q : Fin 4) (s : State) : (reexamine n q s).eng = s.eng := by
  unfold reexamine; split
  · split
    · split <;> simp
    · rfl
  · rfl

@[simp] theorem reexamineAll_eng (n : Fin 48) (l : List (Fin 4)) (s : State) : (reexamineAll n l s).eng = s.eng := by
  induction l generalizing s with
  | nil => rfl
  | cons q l ih => rw [reexamineAll, ih, reexamine_eng]

@[simp] theorem tickQueues_eng (s : State) : (tickQueues s).eng = s.eng := by
  unfold tickQueues; split <;> rfl

/-! ### The datapath -/

@[simp] theorem issueReads_eng (l : List ReadChoice) (s : State) : (issueReads l s).eng = s.eng := by
  unfold issueReads; split
  · split <;> rfl
  · rfl

@[simp] theorem loadDelay_eng (s : State) : (loadDelay s).eng = s.eng := by
  unfold loadDelay; split <;> rfl

@[simp] theorem pushGather_eng (j : JobRec) (s : State) : (pushGather j s).eng = s.eng := by
  unfold pushGather; split <;> rfl

@[simp] theorem endContext_eng (j : JobRec) (dp : Datapath) (s : State) : (endContext j dp s).eng = s.eng := by
  unfold endContext; split
  · rfl
  · split <;> rfl

@[simp] theorem endStreams_eng (j : JobRec) (dp : Datapath) (s : State) : (endStreams j dp s).eng = s.eng := by
  unfold endStreams; split <;> simp

@[simp] theorem endAbort_eng (q : Fin 4) (s : State) : (endAbort q s).eng = s.eng := by
  unfold endAbort; split
  · split <;> simp
  · rfl

@[simp] theorem handOn_eng (j : JobRec) (i : Nat) (y : Sample) (s : State) : (handOn j i y s).eng = s.eng := by
  unfold handOn; split <;> rfl

@[simp] theorem afterSample_eng (j : JobRec) (s : State) : (afterSample j s).eng = s.eng := by
  unfold afterSample; split <;> simp

@[simp] theorem computeNext_eng (j : JobRec) (s : State) : (computeNext j s).eng = s.eng := by
  unfold computeNext; split
  · rfl
  · split
    · rfl
    · split
      · rfl
      · rw [afterSample_eng, handOn_eng]

@[simp] theorem takeWords_eng (r : DpRead) (data : List Byte) (l : List ReadChoice) (s : State) :
    (takeWords r data l s).eng = s.eng := by
  unfold takeWords; dsimp only; split <;>
    simp only [issueReads_eng, pushGather_eng, apply_ite State.eng, loadDelay_eng, ite_self]

/-! ### The start sequence -/

@[simp] theorem holdContext_eng (j : JobRec) (s : State) : (holdContext j s).eng = s.eng := by
  unfold holdContext; split <;> rfl

@[simp] theorem enterRunning_eng (q : Fin 4) (l : List ReadChoice) (s : State) : (enterRunning q l s).eng = s.eng := by
  unfold enterRunning; split <;> simp

@[simp] theorem startWithChain_eng (q : Fin 4) (l : List ReadChoice) (s : State) :
    (startWithChain q l s).eng = s.eng := by
  unfold startWithChain; split
  · split <;> simp
  · rfl

@[simp] theorem holdEntry_eng (q : Fin 4) (e : Fin 8) (hit : Bool) (j : JobRec) (s : State) :
    (holdEntry q e hit j s).eng = s.eng := by rw [holdEntry, setJob_eng, State.setEntry_eng]

@[simp] theorem chainStep_eng (q : Fin 4) (l : List ReadChoice) (s : State) : (chainStep q l s).eng = s.eng := by
  unfold chainStep; split
  · rfl
  · split
    · exact enterRunning_eng ..
    · split <;> simp [apply_ite State.eng]

@[simp] theorem retryJobPlace_eng (s : State) : (retryJobPlace s).eng = s.eng := by
  unfold retryJobPlace; split
  · split <;> simp
  · rfl

@[simp] theorem startSequence_eng (q : Fin 4) (l : List ReadChoice) (s : State) : (startSequence q l s).eng = s.eng := by
  unfold startSequence; split
  · rfl
  · split <;> simp

@[simp] theorem arbiterMove_eng (q : Fin 4) (s : State) : (arbiterMove q s).eng = s.eng := by
  unfold arbiterMove; split <;> rfl

@[simp] theorem enterStarting_eng (q : Fin 4) (s : State) : (enterStarting q s).eng = s.eng := by
  unfold enterStarting; split <;> simp

/-! ### The chain loader -/

@[simp] theorem servePassed_eng (e : Fin 8) (stale : Bool) (l : List ReadChoice) (q : Fin 4) (s : State) :
    (servePassed e stale l q s).eng = s.eng := by
  unfold servePassed; split <;> split <;> simp

@[simp] theorem servePassedAll_eng (e : Fin 8) (stale : Bool) (l : List ReadChoice) (qs : List (Fin 4)) (s : State) :
    (servePassedAll e stale l qs s).eng = s.eng := by
  induction qs generalizing s with
  | nil => rfl
  | cons q qs ih => rw [servePassedAll, ih, servePassed_eng]

@[simp] theorem serveFailed_eng (st : Status) (q : Fin 4) (s : State) : (serveFailed st q s).eng = s.eng := by
  unfold serveFailed; split <;> simp

@[simp] theorem serveFailedAll_eng (st : Status) (qs : List (Fin 4)) (s : State) :
    (serveFailedAll st qs s).eng = s.eng := by
  induction qs generalizing s with
  | nil => rfl
  | cons q qs ih => rw [serveFailedAll, ih, serveFailed_eng]

@[simp] theorem noFill_eng (s : State) : (noFill s).eng = s.eng := rfl

@[simp] theorem fillPassed_eng (f : Fill) (o : List (Fin 4)) (l : List ReadChoice) (s : State) :
    (fillPassed f o l s).eng = s.eng := by simp [fillPassed, apply_ite State.eng]

@[simp] theorem fillFailed_eng (st : Status) (f : Fill) (o : List (Fin 4)) (s : State) :
    (fillFailed st f o s).eng = s.eng := by simp [fillFailed]

@[simp] theorem markFilling_eng (l : List (Fin 4)) (s : State) : (markFilling l s).eng = s.eng := by
  induction l generalizing s with
  | nil => rfl
  | cons q l ih => rw [markFilling, ih]; split <;> simp

@[simp] theorem beginFill_eng (r : Request) (rest : List Request) (o : List (Fin 4)) (s : State) :
    (beginFill r rest o s).eng = s.eng := by
  unfold beginFill; dsimp only; split
  · simp
  · split <;> simp

@[simp] theorem nextPart_eng (f : Fill) (part : FillPart) (n : Nat) (s : State) : (nextPart f part n s).eng = s.eng := rfl

@[simp] theorem putStages_eng (f : Fill) (l : List StageRec) (s : State) : (putStages f l s).eng = s.eng := rfl

@[simp] theorem headerDone_eng (f : Fill) (o : List (Fin 4)) (s : State) : (headerDone f o s).eng = s.eng := by
  simp [headerDone, apply_ite State.eng]

@[simp] theorem stagesDone_eng (f : Fill) (o : List (Fin 4)) (l : List ReadChoice) (s : State) :
    (stagesDone f o l s).eng = s.eng := by
  unfold stagesDone; split
  · simp
  · split <;> simp [apply_ite State.eng]

@[simp] theorem coefsDone_eng (f : Fill) (o : List (Fin 4)) (l : List ReadChoice) (s : State) :
    (coefsDone f o l s).eng = s.eng := by simp [coefsDone]

@[simp] theorem partDone_eng (f : Fill) (o : List (Fin 4)) (l : List ReadChoice) (s : State) :
    (partDone f o l s).eng = s.eng := by
  unfold partDone; split
  · simp
  · split <;> simp

@[simp] theorem chainLoad_eng (q : Fin 4) (pin : Bool) (a : Word) (s : State) : (chainLoad q pin a s).eng = s.eng := by
  unfold chainLoad; split <;> simp [apply_ite State.eng]

@[simp] theorem chainUnpin_eng (q : Fin 4) (a : Word) (s : State) : (chainUnpin q a s).eng = s.eng := by
  unfold chainUnpin; split <;> simp [apply_ite State.eng]

@[simp] theorem chainInvalidate_eng (q : Fin 4) (a : Word) (s : State) : (chainInvalidate q a s).eng = s.eng := by
  unfold chainInvalidate; split <;> simp

@[simp] theorem chainControl_eng (q : Fin 4) (action : ChainAction) (a : Word) (s : State) :
    (chainControl q action a s).eng = s.eng := by
  cases action with
  | load => exact chainLoad_eng ..
  | loadPin => exact chainLoad_eng ..
  | unpin => exact chainUnpin_eng ..
  | invalidate => exact chainInvalidate_eng ..
  | invalidateAll => simp [chainControl, chainInvalidateAll]

@[simp] theorem retryControlPlace_eng (s : State) : (retryControlPlace s).eng = s.eng := by
  unfold retryControlPlace; split
  · split
    · split <;> simp
    · rfl
  · rfl

/-! ### The frame ports -/

@[simp] theorem takeSlot_eng (p : PortId) (f : Word) (j : Fin 32) (s : State) : (takeSlot p f j s).eng = s.eng := by
  unfold takeSlot; split <;> simp

@[simp] theorem takeSlots_eng (p : PortId) (f : Word) (l : List (Fin 32)) (s : State) :
    (takeSlots p f l s).eng = s.eng := by
  induction l generalizing s with
  | nil => rfl
  | cons j l ih => rw [takeSlots, ih, takeSlot_eng]

@[simp] theorem appendSlot_eng (p : PortId) (f : Word) (j : Fin 32) (s : State) : (appendSlot p f j s).eng = s.eng := by
  unfold appendSlot; split <;> simp

@[simp] theorem appendSlots_eng (p : PortId) (f : Word) (l : List (Fin 32)) (s : State) :
    (appendSlots p f l s).eng = s.eng := by
  induction l generalizing s with
  | nil => rfl
  | cons j l ih => rw [appendSlots, ih, appendSlot_eng]

@[simp] theorem applySlot_eng (p : PortId) (j : Fin 32) (s : State) : (applySlot p j s).eng = s.eng := by
  unfold applySlot; dsimp only; split
  · rfl
  · simp
  · split <;> simp

@[simp] theorem applySlots_eng (p : PortId) (l : List (Fin 32)) (s : State) : (applySlots p l s).eng = s.eng := by
  induction l generalizing s with
  | nil => rfl
  | cons j l ih => rw [applySlots, ih, applySlot_eng]

@[simp] theorem releaseBind_eng (q : Fin 4) (s : State) : (releaseBind q s).eng = s.eng := by
  unfold releaseBind; split <;> simp

@[simp] theorem releaseParked_eng (l : List (Fin 4)) (s : State) : (releaseParked l s).eng = s.eng := by
  induction l generalizing s with
  | nil => rfl
  | cons q l ih => rw [releaseParked, ih, releaseBind_eng]

@[simp] theorem frameEvent_eng (p : PortId) (mark : Bool) (s : State) : (frameEvent p mark s).eng = s.eng := by
  simp [frameEvent]

@[simp] theorem lockEvent_eng (p : PortId) (s : State) : (lockEvent p s).eng = s.eng := by simp [lockEvent]

@[simp] theorem lossEvent_eng (p : PortId) (r : LossReason) (s : State) : (lossEvent p r s).eng = s.eng := by
  simp [lossEvent]

@[simp] theorem huntMark_eng (p : PortId) (s : State) : (huntMark p s).eng = s.eng := State.setPort_eng ..

@[simp] theorem dropCandidate_eng (p : PortId) (s : State) : (dropCandidate p s).eng = s.eng := State.setPort_eng ..

@[simp] theorem takeDue_eng (p : PortId) (s : State) : (takeDue p s).eng = s.eng := by
  unfold takeDue; split
  · unfold takeLineEvent; split <;> simp
  · rfl

@[simp] theorem bitClock_eng (p : PortId) (din sync : Bool) (s : State) : (bitClock p din sync s).eng = s.eng := by
  simp [bitClock]

@[simp] theorem recordPending_eng (p : PortId) (j : Fin 32) (a : BindAction) (q : Fin 4) (s : State) :
    (recordPending p j a q s).eng = s.eng := by
  unfold recordPending; dsimp only; split
  · simp
  · split <;> simp

@[simp] theorem execBind_eng (q : Fin 4) (p : PortId) (j : Fin 32) (a : BindAction) (s : State) :
    (execBind q p j a s).eng = s.eng := by
  unfold execBind; split
  · split <;> simp [applyNow]
  · simp

@[simp] theorem withdrawSlot_eng (p : PortId) (j : Fin 32) (s : State) : (withdrawSlot p j s).eng = s.eng := by
  unfold withdrawSlot; dsimp only; split
  · rfl
  · simp
  · split <;> simp

/-! ### The control unit and decode -/

@[simp] theorem execDefine_eng (q : Fin 4) (n : Fin 48) (base length hist : Nat) (producer : Producer)
    (consumer : Consumer) (policy : OverrunPolicy) (idle : Sample) (s : State) :
    (execDefine q n base length hist producer consumer policy idle s).eng = s.eng := by
  simp [execDefine, apply_ite State.eng]

@[simp] theorem execRetire_eng (q : Fin 4) (n : Fin 48) (s : State) : (execRetire q n s).eng = s.eng := by
  unfold execRetire; split <;> simp

@[simp] theorem execRead_eng (q : Fin 4) (n : Fin 48) (a : Word) (rearm : Bool) (s : State) :
    (execRead q n a rearm s).eng = s.eng := by
  unfold execRead; split <;> simp

@[simp] theorem execClearContext_eng (q : Fin 4) (c : Fin 32) (s : State) : (execClearContext q c s).eng = s.eng := by
  simp [execClearContext, apply_ite State.eng]

@[simp] theorem abortStarting_eng (t : Fin 4) (s : State) : (abortStarting t s).eng = s.eng := by simp [abortStarting]

@[simp] theorem abortParked_eng (t : Fin 4) (body : ControlRec) (s : State) : (abortParked t body s).eng = s.eng := by
  unfold abortParked; rw [completeControl_eng]; split <;> simp

@[simp] theorem abortTarget_eng (q t : Fin 4) (s : State) : (abortTarget q t s).eng = s.eng := by
  unfold abortTarget; split
  · split <;> simp
  · split <;> simp
  · simp

@[simp] theorem execAbort_eng (q t : Fin 4) (tag : Word) (s : State) : (execAbort q t tag s).eng = s.eng := by
  unfold execAbort; split <;> simp

@[simp] theorem executeControl_eng (q : Fin 4) (body : ControlRec) (s : State) :
    (executeControl q body s).eng = s.eng := by
  cases body with
  | defineStream n base length hist producer consumer policy idle => exact execDefine_eng ..
  | retireStream n => exact execRetire_eng ..
  | readStream n addr rearm => exact execRead_eng ..
  | bindSlot p j action => exact execBind_eng ..
  | chainControl action addr => exact chainControl_eng ..
  | clearContext c => exact execClearContext_eng ..
  | abort t tag => exact execAbort_eng ..
  | marker => exact finishControl_eng ..

@[simp] theorem selectAndExecute_eng (q : Fin 4) (s : State) : (selectAndExecute q s).eng = s.eng := by
  unfold selectAndExecute; split <;> simp

@[simp] theorem discardFetch_eng (q : Fin 4) (s : State) : (discardFetch q s).eng = s.eng := by simp [discardFetch]

@[simp] theorem decodeHead_eng (q : Fin 4) (pos : Nat) (bytes : List Byte) (s : State) :
    (decodeHead q pos bytes s).eng = s.eng := by
  unfold decodeHead; dsimp only; split
  · simp
  · unfold admitData; split <;> simp
  · rfl

end Sys2Proof.Machine
end

section
/-! SUPPORT. SETUPADR: what engine control's own operations and then every command leave of it, and its write (R171). -/

namespace Sys2Proof.Machine

open Sys2Proof

/-! ### Operations that change other registers of engine control -/

/-- An engine that comes to rest changes its state alone (R177). -/
@[simp] theorem checkDrain_setupAdr (s : State) : (checkDrain s).eng.setupAdr = s.eng.setupAdr := by rw [checkDrain_frame]

@[simp] theorem refusePost_setupAdr (q : Fin 4) (s : State) : (refusePost q s).eng.setupAdr = s.eng.setupAdr := rfl

@[simp] theorem refuseCqhead_setupAdr (s : State) : (refuseCqhead s).eng.setupAdr = s.eng.setupAdr := rfl

@[simp] theorem refuseCommand_setupAdr (s : State) : (refuseCommand s).eng.setupAdr = s.eng.setupAdr := rfl

@[simp] theorem acceptCommand_setupAdr (st : EngState) (s : State) :
    (acceptCommand st s).eng.setupAdr = s.eng.setupAdr := rfl

@[simp] theorem setupFail_setupAdr (code : FaultCode) (idx : Nat) (s : State) :
    (setupFail code idx s).eng.setupAdr = s.eng.setupAdr := rfl

@[simp] theorem setupAccept_setupAdr (r : SetupRec) (s : State) : (setupAccept r s).eng.setupAdr = s.eng.setupAdr := rfl

/-- RUN reads the address and keeps it, whether setup can begin or not (R172). -/
@[simp] theorem runFromOff_setupAdr (s : State) : (runFromOff s).eng.setupAdr = s.eng.setupAdr := by
  unfold runFromOff; dsimp only; split <;> rfl

@[simp] theorem setupDone_setupAdr (b : ReadBuf) (s : State) : (setupDone b s).eng.setupAdr = s.eng.setupAdr := by
  unfold setupDone; split
  · simp
  · dsimp only; split <;> simp

@[simp] theorem enterFaulted_setupAdr (s : State) : (enterFaulted s).eng.setupAdr = s.eng.setupAdr := rfl

/-- CLEAR keeps the address (R181). -/
@[simp] theorem clearEngine_setupAdr (s : State) : (clearEngine s).eng.setupAdr = s.eng.setupAdr := rfl

/-- The end of a job reaches engine control only by the datapath's report that it is idle (R177). -/
@[simp] theorem endOfJob_setupAdr (s : State) : (endOfJob s).eng.setupAdr = s.eng.setupAdr := by
  unfold endOfJob; dsimp only; split <;> simp

@[simp] theorem settle_setupAdr (s : State) : (settle s).eng.setupAdr = s.eng.setupAdr := by
  unfold settle; split <;> simp

@[simp] theorem computeStep_setupAdr (reads : List ReadChoice) (s : State) :
    (computeStep reads s).eng.setupAdr = s.eng.setupAdr := by
  unfold computeStep; split
  · split <;> simp
  · rfl

/-! ### Commands that keep the address -/

/-- An answer whose next state, if it has one, holds SETUPADR as `s` does. -/
def KeepsSetupAdr (s : State) (o : Host.Outcome State Fault Refusal) : Prop :=
  ∀ t, o = .next t → t.eng.setupAdr = s.eng.setupAdr

theorem keepsSetupAdr_next {s t : State} (h : t.eng.setupAdr = s.eng.setupAdr) : KeepsSetupAdr s (.next t) := by
  intro u hu
  obtain rfl := Host.Outcome.next.inj hu
  exact h

theorem keepsSetupAdr_refused (s : State) (r : Refusal) : KeepsSetupAdr s (.refused r) := by
  intro t ht
  cases ht

/-- Under the guard a command keeps the address if the state it computes does. -/
theorem keepsSetupAdr_taken {s t : State} (h : t.eng.setupAdr = s.eng.setupAdr) : KeepsSetupAdr s (taken s t) := by
  intro u hu
  obtain ⟨-, rfl⟩ | ⟨-, rfl⟩ := taken_cases hu
  · rfl
  · exact h

/-! ### Commands with more than one case split: ENGCTL and the register window -/

theorem execEngctlReservedCode_keepsSetupAdr (code : BitVec 4) (s : State) :
    KeepsSetupAdr s (execEngctlReservedCode code s) := by
  unfold execEngctlReservedCode; split
  · exact keepsSetupAdr_taken (refuseCommand_setupAdr s)
  · exact keepsSetupAdr_refused s _

/-- Of a FLUSH only the refusal reaches engine control (R34). -/
theorem execPostFlush_keepsSetupAdr (q : Fin 4) (s : State) : KeepsSetupAdr s (execPostFlush q s) := by
  refine keepsSetupAdr_taken ?_
  dsimp only; split
  · exact refusePost_setupAdr q s
  · simp [apply_ite State.eng]

theorem execCqheadWrite_keepsSetupAdr (index : BitVec 16) (s : State) : KeepsSetupAdr s (execCqheadWrite index s) := by
  refine keepsSetupAdr_taken ?_
  split
  · simp [entriesFreed, apply_ite State.eng]
  · exact refuseCqhead_setupAdr s

theorem execRegisterWriteIgnored_keepsSetupAdr (offset : Nat) (strobes : BitVec 4) (v : Word) (s : State) :
    KeepsSetupAdr s (execRegisterWriteIgnored offset strobes v s) := by
  unfold execRegisterWriteIgnored; split
  · exact keepsSetupAdr_refused s _
  · exact keepsSetupAdr_next rfl

theorem execSetupReadAnswer_keepsSetupAdr (off : Nat) (a : Answer) (s : State) :
    KeepsSetupAdr s (execSetupReadAnswer off a s) := by
  refine keepsSetupAdr_taken ?_
  split
  · rfl
  · split
    · dsimp only; split <;> simp
    · rfl

/-! ### Timers, fetches and completion writes -/

theorem execCoalescingTimerExpiry_keepsSetupAdr (s : State) : KeepsSetupAdr s (execCoalescingTimerExpiry s) := by
  refine keepsSetupAdr_taken ?_
  split
  · split <;> rfl
  · rfl

theorem execHeadFetchData_keepsSetupAdr (q : Fin 4) (bytes : List Byte) (s : State) :
    KeepsSetupAdr s (execHeadFetchData q bytes s) := by
  refine keepsSetupAdr_taken ?_
  split
  · simp [apply_ite State.eng]
  · rfl

theorem execHeadFetchError_keepsSetupAdr (q : Fin 4) (s : State) : KeepsSetupAdr s (execHeadFetchError q s) := by
  refine keepsSetupAdr_taken ?_
  split
  · split <;> simp
  · rfl

/-! ### The control unit, the scheduler and the loader -/

theorem execControlSelect_keepsSetupAdr (s : State) : KeepsSetupAdr s (execControlSelect s) := by
  refine keepsSetupAdr_taken ?_
  split
  · split <;> simp
  · rfl

theorem execSnapshotWriteAnswer_keepsSetupAdr (ok : Bool) (s : State) :
    KeepsSetupAdr s (execSnapshotWriteAnswer ok s) := by
  refine keepsSetupAdr_taken ?_
  split
  · split <;> simp [apply_ite State.eng]
  · rfl

theorem execGrant_keepsSetupAdr (reads : List ReadChoice) (s : State) : KeepsSetupAdr s (execGrant reads s) := by
  refine keepsSetupAdr_taken ?_
  split
  · split <;> simp
  · rfl

theorem execFillReadAnswer_keepsSetupAdr (off : Nat) (a : Answer) (order : List (Fin 4)) (reads : List ReadChoice)
    (s : State) : KeepsSetupAdr s (execFillReadAnswer off a order reads s) := by
  refine keepsSetupAdr_taken ?_
  split
  · rfl
  · split
    · dsimp only; split <;> simp
    · rfl

/-! ### The datapath -/

theorem execDpReadAnswer_keepsSetupAdr (k : Nat) (data : List Byte) (reads : List ReadChoice) (s : State) :
    KeepsSetupAdr s (execDpReadAnswer k data reads s) := by
  refine keepsSetupAdr_taken ?_
  split
  · rfl
  · split <;> simp [apply_ite State.eng]

theorem execStopRequest_keepsSetupAdr (s : State) : KeepsSetupAdr s (execStopRequest s) := by
  refine keepsSetupAdr_taken ?_
  split
  · dsimp only; split
    · split <;> simp
    · rfl
  · rfl

/-! ### Every command -/

/-- Only a write of SETUPADR and a pin reset change the address (R171, R182). A command without a lemma of its own splits once,
on whether it has an occasion. -/
theorem exec_keepsSetupAdr {c : Instr} (s : State) (hreset : c ≠ .pinReset) (hwrite : ∀ v, c ≠ .setupadrWrite v) :
    KeepsSetupAdr s (exec c s) := by
  cases c with
  | run => exact keepsSetupAdr_taken (by split <;> simp)
  | halt => exact keepsSetupAdr_taken (by split <;> simp)
  | clear => exact keepsSetupAdr_taken (by split <;> simp)
  | engctlNone => exact keepsSetupAdr_next rfl
  | engctlReservedCode code => exact execEngctlReservedCode_keepsSetupAdr code s
  | postAdvance q index => exact keepsSetupAdr_taken (by split <;> simp)
  | postRestart q => exact keepsSetupAdr_taken (by split <;> simp)
  | postFlush q => exact execPostFlush_keepsSetupAdr q s
  | postReservedAction q => exact keepsSetupAdr_taken (refusePost_setupAdr q s)
  | cqheadWrite index => exact execCqheadWrite_keepsSetupAdr index s
  | irqpendWrite v => exact keepsSetupAdr_taken rfl
  | irqmaskWrite v => exact keepsSetupAdr_taken rfl
  | setupadrWrite v => exact absurd rfl (hwrite v)
  | registerWriteIgnored offset strobes v => exact execRegisterWriteIgnored_keepsSetupAdr offset strobes v s
  | pinReset => exact absurd rfl hreset
  | resetRelease => exact keepsSetupAdr_next rfl
  | setupReadAnswer off a => exact execSetupReadAnswer_keepsSetupAdr off a s
  | tick => exact keepsSetupAdr_taken (congrArg Engine.setupAdr (tickQueues_eng s))
  | waitTimerExpiry q => exact keepsSetupAdr_taken (by split <;> simp)
  | coalescingTimerExpiry => exact execCoalescingTimerExpiry_keepsSetupAdr s
  | headFetchData q bytes => exact execHeadFetchData_keepsSetupAdr q bytes s
  | headFetchError q => exact execHeadFetchError_keepsSetupAdr q s
  | bodyWriteAnswer => exact keepsSetupAdr_taken (by split <;> rfl)
  | phaseWriteAnswer => exact keepsSetupAdr_taken (by split <;> simp)
  | cqWriteError => exact keepsSetupAdr_taken (by split <;> simp)
  | controlSelect => exact execControlSelect_keepsSetupAdr s
  | snapshotWriteAnswer ok => exact execSnapshotWriteAnswer_keepsSetupAdr ok s
  | changeNotice n order => exact keepsSetupAdr_taken (by split <;> simp)
  | grant reads => exact execGrant_keepsSetupAdr reads s
  | fillBegin order => exact keepsSetupAdr_taken (by split <;> simp)
  | fillReadAnswer off a order reads => exact execFillReadAnswer_keepsSetupAdr off a order reads s
  | computeSample reads => exact keepsSetupAdr_taken (computeStep_setupAdr reads s)
  | dpReadAnswer k data reads => exact execDpReadAnswer_keepsSetupAdr k data reads s
  | dpReadError k => exact keepsSetupAdr_taken (by split <;> simp)
  | dpWriteAnswer k => exact keepsSetupAdr_taken (by split <;> simp)
  | dpWriteError k => exact keepsSetupAdr_taken (by split <;> simp)
  | stopRequest => exact execStopRequest_keepsSetupAdr s
  | bitClock p din sync => exact keepsSetupAdr_taken (congrArg Engine.setupAdr (bitClock_eng p din sync s))
  | frameEvent p => exact keepsSetupAdr_taken (by split <;> simp)
  | huntSyncMark p => exact keepsSetupAdr_taken (by split <;> simp)
  | candidateDrop p => exact keepsSetupAdr_taken (by split <;> simp)
  | lockEvent p => exact keepsSetupAdr_taken (by split <;> simp)
  | lossEvent p => exact keepsSetupAdr_taken (by split <;> simp)
  | staleAnswerDiscard k bytes => exact keepsSetupAdr_next rfl

/-! ### The write (R171) -/

section

variable {s : State} (v : Word)

/-- In OFF a write sets the address and nothing else. -/
theorem exec_setupadrWrite_of_off (ha : awake s) (hoff : s.eng.st = .off) :
    exec (.setupadrWrite v) s = .next { s with eng := { s.eng with setupAdr := v } } := by
  simp only [exec, execSetupadrWrite, taken_eq ha, if_pos hoff]

/-- In any other state a write is ignored. -/
theorem exec_setupadrWrite_of_not_off (ha : awake s) (hoff : s.eng.st ≠ .off) :
    exec (.setupadrWrite v) s = .next s := by
  simp only [exec, execSetupadrWrite, taken_eq ha, if_neg hoff]

end

/-- Settles O17: the write by the engine's state, the read, the pin reset, and every other command by
`exec_keepsSetupAdr`. -/
theorem setupAddressRule : Obligations.SetupAddressRule := by
  refine ⟨fun v s => exec_setupadrWrite_of_off v, fun v s => exec_setupadrWrite_of_not_off v, fun s => rfl,
    fun s t ht => ?reset, fun c s t ht hreset hwrite => exec_keepsSetupAdr s hreset hwrite t ht⟩
  case reset =>
    obtain rfl := Host.Outcome.next.inj ht
    rfl

end Sys2Proof.Machine
end

section
/-! SUPPORT. Which parts of the state an operation may change: one statement for each operation, in the order of the model, and
one for every command. An invariant of some parts is kept by every command that changes none of them. -/

namespace Sys2Proof.Machine

open Sys2Proof

/-! ### Parts of the state -/

/-- The parts of the block's state. -/
inductive Part where
  | pending | eng | irqPend | irqMask | queues | waits | arbiter | notices | cu | cache | contexts | dp | stopReq | streams
  | store | ports | cq | stale
  deriving DecidableEq

/-- Two states hold the same in a part. -/
def Agree (s t : State) : Part → Prop
  | .pending => t.pending = s.pending
  | .eng => t.eng = s.eng
  | .irqPend => t.irqPend = s.irqPend
  | .irqMask => t.irqMask = s.irqMask
  | .queues => t.queues = s.queues
  | .waits => t.waitList = s.waitList
  | .arbiter => t.turn = s.turn ∧ t.credit = s.credit
  | .notices => t.notices = s.notices
  | .cu => t.cu = s.cu
  | .cache => t.cache = s.cache
  | .contexts => t.contexts = s.contexts
  | .dp => t.dp = s.dp
  | .stopReq => t.stopReq = s.stopReq
  | .streams => t.streams = s.streams
  | .store => t.store = s.store
  | .ports => t.portA = s.portA ∧ t.portB = s.portB
  | .cq => t.cq = s.cq
  | .stale => t.stale = s.stale

/-- A part is one of some parts. -/
def Part.isIn (p : Part) (F : List Part) : Bool := F.any (fun x => decide (x = p))

/-- The parts `F` are among `G`. -/
def within (F G : List Part) : Bool := F.all (fun p => p.isIn G)

/-- From `s` to `t` no part outside `F` changes. -/
structure Changes (F : List Part) (s t : State) : Prop where
  agree : ∀ p, p.isIn F = false → Agree s t p

theorem Part.isIn_iff {p : Part} {F : List Part} : p.isIn F = true ↔ p ∈ F := by simp [Part.isIn]

theorem isIn_of_within {F G : List Part} (h : within F G = true) {p : Part} (hp : p.isIn G = false) : p.isIn F = false := by
  rw [within, List.all_eq_true] at h
  refine Bool.eq_false_iff.mpr fun hF => ?_
  rw [h p (Part.isIn_iff.mp hF)] at hp
  cases hp

theorem within_append {F G H : List Part} (hF : within F H = true) (hG : within G H = true) : within (F ++ G) H = true := by
  rw [within, List.all_append, ← within, hF]; exact hG

theorem Agree.refl (s : State) (p : Part) : Agree s s p := by cases p <;> simp [Agree]

theorem Agree.trans {s t u : State} {p : Part} (h : Agree s t p) (h' : Agree t u p) : Agree s u p := by
  cases p <;> simp_all [Agree]

theorem Changes.refl (F : List Part) (s : State) : Changes F s s := ⟨fun p _ => Agree.refl s p⟩

theorem Changes.mono {F G : List Part} {s t : State} (h : Changes F s t) (hs : within F G = true) : Changes G s t :=
  ⟨fun p hp => h.agree p (isIn_of_within hs hp)⟩

/-- One change after another. -/
theorem Changes.trans {F G : List Part} {s t u : State} (h : Changes F s t) (h' : Changes G t u) :
    Changes (F ++ G) s u := by
  constructor; intro p hp
  simp only [Part.isIn, List.any_append, Bool.or_eq_false_iff] at hp
  exact (h.agree p hp.1).trans (h'.agree p hp.2)

section

variable {F : List Part} {s t : State}

theorem Changes.pending (h : Changes F s t) (hp : Part.pending.isIn F = false) : t.pending = s.pending := h.agree _ hp
theorem Changes.eng (h : Changes F s t) (hp : Part.eng.isIn F = false) : t.eng = s.eng := h.agree _ hp
theorem Changes.waitList (h : Changes F s t) (hp : Part.waits.isIn F = false) : t.waitList = s.waitList := h.agree _ hp
theorem Changes.cu (h : Changes F s t) (hp : Part.cu.isIn F = false) : t.cu = s.cu := h.agree _ hp
theorem Changes.cache (h : Changes F s t) (hp : Part.cache.isIn F = false) : t.cache = s.cache := h.agree _ hp
theorem Changes.dp (h : Changes F s t) (hp : Part.dp.isIn F = false) : t.dp = s.dp := h.agree _ hp
theorem Changes.store (h : Changes F s t) (hp : Part.store.isIn F = false) : t.store = s.store := h.agree _ hp
theorem Changes.cq (h : Changes F s t) (hp : Part.cq.isIn F = false) : t.cq = s.cq := h.agree _ hp
theorem Changes.queues (h : Changes F s t) (hp : Part.queues.isIn F = false) : t.queues = s.queues := h.agree _ hp
theorem Changes.streams (h : Changes F s t) (hp : Part.streams.isIn F = false) : t.streams = s.streams := h.agree _ hp
theorem Changes.contexts (h : Changes F s t) (hp : Part.contexts.isIn F = false) : t.contexts = s.contexts := h.agree _ hp
theorem Changes.portA (h : Changes F s t) (hp : Part.ports.isIn F = false) : t.portA = s.portA := (h.agree _ hp).1
theorem Changes.portB (h : Changes F s t) (hp : Part.ports.isIn F = false) : t.portB = s.portB := (h.agree _ hp).2

theorem Changes.queue (h : Changes F s t) (hp : Part.queues.isIn F = false) (q : Fin 4) : t.queue q = s.queue q := by
  rw [State.queue, State.queue, h.queues hp]

theorem Changes.stream (h : Changes F s t) (hp : Part.streams.isIn F = false) (n : Fin 48) :
    t.stream n = s.stream n := by rw [State.stream, State.stream, h.streams hp]

theorem Changes.context (h : Changes F s t) (hp : Part.contexts.isIn F = false) (c : Fin 32) :
    t.context c = s.context c := by rw [State.context, State.context, h.contexts hp]

theorem Changes.entry (h : Changes F s t) (hp : Part.cache.isIn F = false) (e : Fin 8) : t.entry e = s.entry e := by
  rw [State.entry, State.entry, h.cache hp]

theorem Changes.port (h : Changes F s t) (hp : Part.ports.isIn F = false) (p : PortId) : t.port p = s.port p := by
  cases p
  · exact h.portA hp
  · exact h.portB hp

end

/-! ### Replacing one part -/

section

variable (s : State)

theorem changes_eng (e : Engine) : Changes [.eng] s { s with eng := e } :=
  ⟨fun p hp => by
    have hsame := Agree.refl s p
    cases p with
    | eng => exact absurd hp Bool.noConfusion
    | _ => exact hsame⟩

theorem changes_irqPend (b : IrqBits) : Changes [.irqPend] s { s with irqPend := b } :=
  ⟨fun p hp => by
    have hsame := Agree.refl s p
    cases p with
    | irqPend => exact absurd hp Bool.noConfusion
    | _ => exact hsame⟩

theorem changes_irqMask (b : IrqBits) : Changes [.irqMask] s { s with irqMask := b } :=
  ⟨fun p hp => by
    have hsame := Agree.refl s p
    cases p with
    | irqMask => exact absurd hp Bool.noConfusion
    | _ => exact hsame⟩

theorem changes_queues (v : Vector QueueRec 4) : Changes [.queues] s { s with queues := v } :=
  ⟨fun p hp => by
    have hsame := Agree.refl s p
    cases p with
    | queues => exact absurd hp Bool.noConfusion
    | _ => exact hsame⟩

theorem changes_waits (l : List (Fin 4 × Purpose)) : Changes [.waits] s { s with waitList := l } :=
  ⟨fun p hp => by
    have hsame := Agree.refl s p
    cases p with
    | waits => exact absurd hp Bool.noConfusion
    | _ => exact hsame⟩

theorem changes_arbiter (q : Fin 4) (n : Nat) : Changes [.arbiter] s { s with turn := q, credit := n } :=
  ⟨fun p hp => by
    have hsame := Agree.refl s p
    cases p with
    | arbiter => exact absurd hp Bool.noConfusion
    | _ => exact hsame⟩

theorem changes_notices (l : List (Fin 48)) : Changes [.notices] s { s with notices := l } :=
  ⟨fun p hp => by
    have hsame := Agree.refl s p
    cases p with
    | notices => exact absurd hp Bool.noConfusion
    | _ => exact hsame⟩

theorem changes_cu (c : ControlUnit) : Changes [.cu] s { s with cu := c } :=
  ⟨fun p hp => by
    have hsame := Agree.refl s p
    cases p with
    | cu => exact absurd hp Bool.noConfusion
    | _ => exact hsame⟩

theorem changes_cache (c : Cache) : Changes [.cache] s { s with cache := c } :=
  ⟨fun p hp => by
    have hsame := Agree.refl s p
    cases p with
    | cache => exact absurd hp Bool.noConfusion
    | _ => exact hsame⟩

theorem changes_contexts (v : Vector Context 32) : Changes [.contexts] s { s with contexts := v } :=
  ⟨fun p hp => by
    have hsame := Agree.refl s p
    cases p with
    | contexts => exact absurd hp Bool.noConfusion
    | _ => exact hsame⟩

theorem changes_dp (d : Datapath) : Changes [.dp] s { s with dp := d } :=
  ⟨fun p hp => by
    have hsame := Agree.refl s p
    cases p with
    | dp => exact absurd hp Bool.noConfusion
    | _ => exact hsame⟩

theorem changes_stopReq (b : Bool) : Changes [.stopReq] s { s with stopReq := b } :=
  ⟨fun p hp => by
    have hsame := Agree.refl s p
    cases p with
    | stopReq => exact absurd hp Bool.noConfusion
    | _ => exact hsame⟩

theorem changes_streams (v : Vector StreamRec 48) : Changes [.streams] s { s with streams := v } :=
  ⟨fun p hp => by
    have hsame := Agree.refl s p
    cases p with
    | streams => exact absurd hp Bool.noConfusion
    | _ => exact hsame⟩

theorem changes_store (m : Store) : Changes [.store] s { s with store := m } :=
  ⟨fun p hp => by
    have hsame := Agree.refl s p
    cases p with
    | store => exact absurd hp Bool.noConfusion
    | _ => exact hsame⟩

theorem changes_ports (a b : PortRec) : Changes [.ports] s { s with portA := a, portB := b } :=
  ⟨fun p hp => by
    have hsame := Agree.refl s p
    cases p with
    | ports => exact absurd hp Bool.noConfusion
    | _ => exact hsame⟩

theorem changes_cq (c : CqWriter) : Changes [.cq] s { s with cq := c } :=
  ⟨fun p hp => by
    have hsame := Agree.refl s p
    cases p with
    | cq => exact absurd hp Bool.noConfusion
    | _ => exact hsame⟩

theorem changes_stale (l : List Access) : Changes [.stale] s { s with stale := l } :=
  ⟨fun p hp => by
    have hsame := Agree.refl s p
    cases p with
    | stale => exact absurd hp Bool.noConfusion
    | _ => exact hsame⟩

theorem changes_setQueue (q : Fin 4) (r : QueueRec) : Changes [.queues] s (s.setQueue q r) := changes_queues ..
theorem changes_setHead (q : Fin 4) (h : Head) : Changes [.queues] s (s.setHead q h) := changes_queues ..
theorem changes_setStream (n : Fin 48) (r : StreamRec) : Changes [.streams] s (s.setStream n r) := changes_streams ..
theorem changes_setContext (c : Fin 32) (x : Context) : Changes [.contexts] s (s.setContext c x) := changes_contexts ..
theorem changes_setEntry (e : Fin 8) (x : Entry) : Changes [.cache] s (s.setEntry e x) := changes_cache ..
theorem changes_setPort (p : PortId) (r : PortRec) : Changes [.ports] s (s.setPort p r) := by
  cases p <;> exact changes_ports ..

end

/-! ### The completion writer and the queue fetcher -/

theorem raiseEvent_changes (s : State) (k : EvKind) (n : Nat) (r : EvReason) : Changes [.cq] s (raiseEvent s k n r) := by
  rw [raiseEvent_frame]; exact changes_cq ..

theorem postSummary_changes (s : State) : Changes [.cq] s (postSummary s) := by rw [postSummary_frame]; exact changes_cq ..

theorem reportCompletions_changes (s : State) : Changes [.cq, .irqPend] s (reportCompletions s) :=
  Changes.mono ((changes_cq ..).trans (changes_irqPend ..)) rfl

theorem countWritten_changes (s : State) (now : Bool) : Changes [.cq, .irqPend] s (countWritten s now) := by
  unfold countWritten; dsimp only; split
  · exact reportCompletions_changes s
  · exact (changes_cq ..).mono rfl

theorem recordWritten_changes (s : State) : Changes [.cq, .irqPend] s (recordWritten s) := by
  unfold recordWritten; split
  · exact Changes.refl ..
  · exact Changes.mono ((changes_cq ..).trans (countWritten_changes ..)) rfl

/-- The parts a queue's fetch, flush or completion may change. -/
abbrev fetchParts : List Part := [.queues, .waits, .cq]

theorem changes_fetch {s t : State}
    (h : t = { s with queues := t.queues, waitList := t.waitList, cq := t.cq }) : Changes fetchParts s t := by
  rw [h]
  refine ⟨fun p hp => ?_⟩
  have hsame := Agree.refl s p
  cases p with
  | queues => exact absurd hp Bool.noConfusion
  | waits => exact absurd hp Bool.noConfusion
  | cq => exact absurd hp Bool.noConfusion
  | _ => exact hsame

theorem askIfEligible_changes (q : Fin 4) (s : State) : Changes fetchParts s (askIfEligible q s) :=
  changes_fetch (askIfEligible_frame q s)

theorem flushEffect_changes (q : Fin 4) (s : State) : Changes fetchParts s (flushEffect q s) :=
  Changes.mono ((changes_cq ..).trans (changes_setQueue ..)) rfl

theorem flushOwn_changes (q : Fin 4) (s : State) : Changes fetchParts s (flushOwn q s) := changes_fetch (flushOwn_frame q s)

theorem serveEntries_changes (l : List (Fin 4 × Purpose)) (s : State) : Changes fetchParts s (serveEntries l s) :=
  changes_fetch (serveEntries_frame l s)

theorem serveWaitList_changes (s : State) : Changes fetchParts s (serveWaitList s) := serveEntries_changes ..

theorem completeHead_changes (q : Fin 4) (r : CqRec) (s : State) : Changes fetchParts s (completeHead q r s) :=
  changes_fetch (completeHead_frame q r s)

theorem refusePost_changes (q : Fin 4) (s : State) : Changes [.eng, .irqPend] s (refusePost q s) :=
  Changes.mono ((changes_eng ..).trans (changes_irqPend ..)) rfl

/-! ### The stream table -/

theorem notify_changes (s : State) (n : Fin 48) : Changes [.notices] s (notify s n) := changes_notices ..

theorem portAppend_changes (n : Fin 48) (f : Word) (x : Sample) (s : State) :
    Changes [.streams, .store, .cq, .notices] s (portAppend n f x s) := by
  rw [portAppend_frame]
  refine ⟨fun p hp => ?_⟩
  have hsame := Agree.refl s p
  cases p with
  | streams => exact absurd hp Bool.noConfusion
  | store => exact absurd hp Bool.noConfusion
  | cq => exact absurd hp Bool.noConfusion
  | notices => exact absurd hp Bool.noConfusion
  | _ => exact hsame

theorem portTake_changes (n : Fin 48) (f : Word) (s : State) : Changes [.streams, .cq, .notices] s (portTake n f s) := by
  rw [portTake_frame]
  refine ⟨fun p hp => ?_⟩
  have hsame := Agree.refl s p
  cases p with
  | streams => exact absurd hp Bool.noConfusion
  | cq => exact absurd hp Bool.noConfusion
  | notices => exact absurd hp Bool.noConfusion
  | _ => exact hsame

theorem setClaims_changes (b : Bool) (l : List (Fin 48)) (s : State) : Changes [.streams] s (setClaims b l s) := by
  rw [setClaims_frame]; exact changes_streams ..

theorem releaseStreams_changes (d : DataRec) (s : State) : Changes [.streams, .notices] s (releaseStreams d s) := by
  rw [releaseStreams_frame]
  refine ⟨fun p hp => ?_⟩
  have hsame := Agree.refl s p
  cases p with
  | streams => exact absurd hp Bool.noConfusion
  | notices => exact absurd hp Bool.noConfusion
  | _ => exact hsame

theorem commitStreams_changes (d : DataRec) (s : State) : Changes [.streams, .notices] s (commitStreams d s) := by
  rw [commitStreams_frame]
  refine ⟨fun p hp => ?_⟩
  have hsame := Agree.refl s p
  cases p with
  | streams => exact absurd hp Bool.noConfusion
  | notices => exact absurd hp Bool.noConfusion
  | _ => exact hsame

theorem setMirror_changes (n : Fin 48) (dir : Dir) (m : Option BindMirror) (s : State) :
    Changes [.streams] s (setMirror n dir m s) := by
  cases dir <;> exact changes_setStream ..

/-! ### The chain cache -/

theorem joinRequest_changes (a : Word) (q : Fin 4) (s : State) : Changes [.cache] s (joinRequest a q s) := changes_cache ..
theorem placeRequest_changes (a : Word) (p : Place) (q : Fin 4) (s : State) :
    Changes [.cache] s (placeRequest a p q s) := changes_cache ..
theorem joinFill_changes (q : Fin 4) (s : State) : Changes [.cache] s (joinFill q s) := changes_cache ..
theorem withdrawWaiter_changes (q : Fin 4) (s : State) : Changes [.cache] s (withdrawWaiter q s) := changes_cache ..
theorem touchEntry_changes (e : Fin 8) (s : State) : Changes [.cache] s (touchEntry e s) := changes_cache ..
theorem lruDrop_changes (e : Fin 8) (s : State) : Changes [.cache] s (lruDrop e s) := changes_cache ..
theorem lruJoin_changes (e : Fin 8) (s : State) : Changes [.cache] s (lruJoin e s) := changes_cache ..
theorem noFill_changes (s : State) : Changes [.cache] s (noFill s) := changes_cache ..

theorem invalidate_changes (e : Fin 8) (s : State) : Changes [.cache] s (invalidate e s) := by
  unfold invalidate; split
  · exact Changes.mono ((changes_setEntry ..).trans (lruDrop_changes ..)) rfl
  · exact changes_setEntry ..

theorem invalidateAll_changes (l : List (Fin 8)) (s : State) : Changes [.cache] s (invalidateAll l s) := by
  induction l generalizing s with
  | nil => exact Changes.refl ..
  | cons e l ih => exact Changes.mono ((invalidate_changes e s).trans (ih _)) rfl

theorem useEndOf_changes (j : JobRec) (s : State) : Changes [.cache] s (useEndOf j s) := by
  unfold useEndOf; split
  · rw [useEnd_frame]; exact changes_setEntry ..
  · exact Changes.refl ..

/-! ### Heads of the scheduler -/

theorem setJob_changes (q : Fin 4) (j : JobRec) (s : State) : Changes [.queues] s (setJob q j s) := by
  unfold setJob; split
  · exact changes_setHead ..
  · exact Changes.refl ..

theorem checkDrain_changes (s : State) : Changes [.eng, .irqPend] s (checkDrain s) := by
  rw [checkDrain_frame]
  refine ⟨fun p hp => ?_⟩
  have hsame := Agree.refl s p
  cases p with
  | eng => exact absurd hp Bool.noConfusion
  | irqPend => exact absurd hp Bool.noConfusion
  | _ => exact hsame

theorem completeJob_changes (q : Fin 4) (st : Status) (s : State) : Changes fetchParts s (completeJob q st s) := by
  unfold completeJob; split
  · exact completeHead_changes ..
  · exact Changes.refl ..

theorem completeControl_changes (q : Fin 4) (st : Status) (n : Nat) (d : Detail) (hit : Bool) (s : State) :
    Changes fetchParts s (completeControl q st n d hit s) := by
  unfold completeControl; split
  · exact completeHead_changes ..
  · exact Changes.refl ..

theorem completeParked_changes (q : Fin 4) (st : Status) (d : Detail) (s : State) :
    Changes fetchParts s (completeParked q st d s) := by
  unfold completeParked; split
  · exact completeHead_changes ..
  · exact Changes.refl ..

/-- The parts the end of a control record's execution may change. -/
abbrev finishParts : List Part := [.queues, .waits, .cq, .cu]

theorem finishControl_changes (q : Fin 4) (st : Status) (n : Nat) (d : Detail) (hit : Bool) (s : State) :
    Changes finishParts s (finishControl q st n d hit s) :=
  Changes.mono ((changes_cu ..).trans (completeControl_changes ..)) rfl

theorem parkControl_changes (q : Fin 4) (s : State) : Changes finishParts s (parkControl q s) := by
  unfold parkControl; split
  · exact Changes.mono ((changes_cu ..).trans (changes_setHead ..)) rfl
  · exact Changes.refl ..

/-- The parts a start that fails may change. -/
abbrev failParts : List Part := [.queues, .waits, .cq, .streams, .notices, .cache]

theorem failStart_changes (q : Fin 4) (st : Status) (s : State) : Changes failParts s (failStart q st s) := by
  unfold failStart; split
  · dsimp only; split
    · exact Changes.mono (((releaseStreams_changes ..).trans (useEndOf_changes ..)).trans
        (completeJob_changes ..)) rfl
    · exact Changes.mono ((useEndOf_changes ..).trans (completeJob_changes ..)) rfl
  · exact Changes.refl ..

theorem reexamine_changes (n : Fin 48) (q : Fin 4) (s : State) : Changes fetchParts s (reexamine n q s) := by
  unfold reexamine; split
  · split
    · split
      · exact completeJob_changes ..
      · exact (setJob_changes ..).mono rfl
    · exact Changes.refl ..
  · exact Changes.refl ..

theorem reexamineAll_changes (n : Fin 48) (l : List (Fin 4)) (s : State) : Changes fetchParts s (reexamineAll n l s) := by
  induction l generalizing s with
  | nil => exact Changes.refl ..
  | cons q l ih => exact Changes.mono ((reexamine_changes n q s).trans (ih _)) rfl

theorem tickQueues_changes (s : State) : Changes [.queues] s (tickQueues s) := by
  unfold tickQueues; split
  · exact Changes.refl ..
  · exact changes_queues ..

/-! ### The datapath -/

theorem issueReads_changes (l : List ReadChoice) (s : State) : Changes [.dp] s (issueReads l s) := by
  unfold issueReads; split
  · split
    · exact changes_dp ..
    · exact Changes.refl ..
  · exact Changes.refl ..

theorem loadDelay_changes (s : State) : Changes [.dp] s (loadDelay s) := by
  unfold loadDelay; split
  · exact changes_dp ..
  · exact Changes.refl ..

theorem pushGather_changes (j : JobRec) (s : State) : Changes [.dp] s (pushGather j s) := by
  unfold pushGather; split
  · exact changes_dp ..
  · exact Changes.refl ..

theorem endContext_changes (j : JobRec) (dp : Datapath) (s : State) : Changes [.contexts] s (endContext j dp s) := by
  unfold endContext; split
  · exact Changes.refl ..
  · split <;> exact changes_setContext ..

theorem endStreams_changes (j : JobRec) (dp : Datapath) (s : State) :
    Changes [.streams, .notices] s (endStreams j dp s) := by
  unfold endStreams; split
  · exact commitStreams_changes ..
  · exact releaseStreams_changes ..

theorem endAbort_changes (q : Fin 4) (s : State) : Changes finishParts s (endAbort q s) := by
  unfold endAbort; split
  · split
    · exact finishControl_changes ..
    · exact Changes.refl ..
  · exact Changes.refl ..

/-- The parts the end of a job may change. -/
abbrev endParts : List Part :=
  [.queues, .waits, .cq, .cu, .eng, .irqPend, .notices, .cache, .contexts, .dp, .stopReq, .streams]

theorem endOfJob_changes (s : State) : Changes endParts s (endOfJob s) := by
  have hidle : Changes [.dp, .stopReq] s { s with dp := Datapath.idle, stopReq := false } := by
    refine ⟨fun p hp => ?_⟩
    have hsame := Agree.refl s p
    cases p with
    | dp => exact absurd hp Bool.noConfusion
    | stopReq => exact absurd hp Bool.noConfusion
    | _ => exact hsame
  unfold endOfJob; dsimp only; split
  · refine Changes.mono (Changes.trans (F := endParts) ?_ (checkDrain_changes _)) rfl
    refine Changes.mono (Changes.trans (F := endParts) ?_ (endAbort_changes ..)) rfl
    refine Changes.mono (Changes.trans (F := endParts) ?_ (completeHead_changes ..)) rfl
    refine Changes.mono (Changes.trans (F := endParts) ?_ (useEndOf_changes ..)) rfl
    refine Changes.mono (Changes.trans (F := endParts) ?_ (endContext_changes ..)) rfl
    exact Changes.mono (hidle.trans (endStreams_changes ..)) rfl
  · exact hidle.mono rfl

theorem settle_changes (s : State) : Changes endParts s (settle s) := by
  unfold settle; split
  · exact endOfJob_changes s
  · exact Changes.refl ..

theorem handOn_changes (j : JobRec) (i : Nat) (y : Sample) (s : State) : Changes [.dp, .store] s (handOn j i y s) := by
  unfold handOn; split
  · refine ⟨fun p hp => ?_⟩
    have hsame := Agree.refl s p
    cases p with
    | dp => exact absurd hp Bool.noConfusion
    | store => exact absurd hp Bool.noConfusion
    | _ => exact hsame
  · exact (changes_dp ..).mono rfl

theorem afterSample_changes (j : JobRec) (s : State) : Changes [.dp] s (afterSample j s) := by
  unfold afterSample; split
  · exact changes_dp ..
  · exact pushGather_changes ..

theorem computeNext_changes (j : JobRec) (s : State) : Changes [.dp, .store] s (computeNext j s) := by
  unfold computeNext; split
  · exact Changes.refl ..
  · split
    · exact Changes.refl ..
    · split
      · exact (changes_dp ..).mono rfl
      · exact Changes.mono (((changes_dp ..).trans (handOn_changes ..)).trans (afterSample_changes ..)) rfl

theorem computeStep_changes (l : List ReadChoice) (s : State) : Changes (.store :: endParts) s (computeStep l s) := by
  unfold computeStep; split
  · split
    · exact Changes.mono ((((issueReads_changes ..).trans (pushGather_changes ..)).trans (computeNext_changes ..)).trans (settle_changes _)) rfl
    · exact Changes.refl ..
  · exact Changes.refl ..

theorem takeWords_changes (r : DpRead) (data : List Byte) (l : List ReadChoice) (s : State) :
    Changes [.dp] s (takeWords r data l s) := by
  have hload : Changes [.dp] s (if s.dp.next = 0
      then loadDelay { s with dp := { s.dp with inputs := addWords s.dp.inputs r data } }
      else { s with dp := { s.dp with inputs := addWords s.dp.inputs r data } }) := by
    split
    · exact Changes.mono ((changes_dp ..).trans (loadDelay_changes _)) rfl
    · exact changes_dp ..
  unfold takeWords; dsimp only; split
  · exact Changes.mono ((hload.trans (pushGather_changes ..)).trans (issueReads_changes ..)) rfl
  · exact hload

/-! ### The start sequence -/

theorem holdContext_changes (j : JobRec) (s : State) : Changes [.contexts] s (holdContext j s) := by
  unfold holdContext; split
  · exact changes_setContext ..
  · exact Changes.refl ..

/-- The parts a starting job may change. -/
abbrev startParts : List Part := [.queues, .waits, .cq, .streams, .notices, .cache, .contexts, .dp]

theorem enterRunning_changes (q : Fin 4) (l : List ReadChoice) (s : State) :
    Changes [.queues, .contexts, .dp] s (enterRunning q l s) := by
  unfold enterRunning; split
  · exact Changes.mono (((((holdContext_changes ..).trans (changes_dp ..)).trans (setJob_changes ..)).trans (loadDelay_changes _)).trans
        (issueReads_changes ..)) rfl
  · exact Changes.refl ..

theorem startWithChain_changes (q : Fin 4) (l : List ReadChoice) (s : State) :
    Changes startParts s (startWithChain q l s) := by
  unfold startWithChain; split
  · split
    · exact (failStart_changes ..).mono rfl
    · exact (enterRunning_changes ..).mono rfl
  · exact Changes.refl ..

theorem holdEntry_changes (q : Fin 4) (e : Fin 8) (hit : Bool) (j : JobRec) (s : State) :
    Changes [.queues, .cache] s (holdEntry q e hit j s) :=
  Changes.mono ((changes_setEntry ..).trans (setJob_changes ..)) rfl

theorem chainStep_changes (q : Fin 4) (l : List ReadChoice) (s : State) : Changes startParts s (chainStep q l s) := by
  unfold chainStep; split
  · exact Changes.refl ..
  · split
    · exact (enterRunning_changes ..).mono rfl
    · split
      · split
        · exact Changes.mono (((holdEntry_changes ..).trans (touchEntry_changes ..)).trans
            (startWithChain_changes ..)) rfl
        · exact Changes.mono ((setJob_changes ..).trans (joinFill_changes ..)) rfl
      · dsimp only; split
        · exact Changes.mono ((setJob_changes ..).trans (joinRequest_changes ..)) rfl
        · split
          · exact Changes.mono ((setJob_changes ..).trans (placeRequest_changes ..)) rfl
          · exact (setJob_changes ..).mono rfl

theorem retryJobPlace_changes (s : State) : Changes startParts s (retryJobPlace s) := by
  unfold retryJobPlace; split
  · split
    · exact chainStep_changes ..
    · exact Changes.refl ..
  · exact Changes.refl ..

theorem startSequence_changes (q : Fin 4) (l : List ReadChoice) (s : State) :
    Changes startParts s (startSequence q l s) := by
  unfold startSequence; split
  · exact Changes.refl ..
  · split
    · exact (completeJob_changes ..).mono rfl
    · exact (setJob_changes ..).mono rfl
    · exact Changes.mono (((setClaims_changes ..).trans (setJob_changes ..)).trans (chainStep_changes ..)) rfl

theorem arbiterMove_changes (q : Fin 4) (s : State) : Changes [.arbiter] s (arbiterMove q s) := by
  unfold arbiterMove; split <;> exact changes_arbiter ..

theorem enterStarting_changes (q : Fin 4) (s : State) : Changes [.queues] s (enterStarting q s) := by
  unfold enterStarting; split
  · exact setJob_changes ..
  · exact Changes.refl ..

/-! ### The chain loader -/

theorem servePassed_changes (e : Fin 8) (stale : Bool) (l : List ReadChoice) (q : Fin 4) (s : State) :
    Changes startParts s (servePassed e stale l q s) := by
  unfold servePassed; split
  · split
    · exact Changes.mono ((setJob_changes ..).trans (startWithChain_changes ..)) rfl
    · exact Changes.refl ..
  · split <;> exact (completeParked_changes ..).mono rfl

theorem servePassedAll_changes (e : Fin 8) (stale : Bool) (l : List ReadChoice) (qs : List (Fin 4)) (s : State) :
    Changes startParts s (servePassedAll e stale l qs s) := by
  induction qs generalizing s with
  | nil => exact Changes.refl ..
  | cons q qs ih => exact Changes.mono ((servePassed_changes e stale l q s).trans (ih _)) rfl

theorem serveFailed_changes (st : Status) (q : Fin 4) (s : State) : Changes failParts s (serveFailed st q s) := by
  unfold serveFailed; split
  · exact failStart_changes ..
  · exact (completeParked_changes ..).mono rfl

theorem serveFailedAll_changes (st : Status) (qs : List (Fin 4)) (s : State) :
    Changes failParts s (serveFailedAll st qs s) := by
  induction qs generalizing s with
  | nil => exact Changes.refl ..
  | cons q qs ih => exact Changes.mono ((serveFailed_changes st q s).trans (ih _)) rfl

theorem fillPassed_changes (f : Fill) (o : List (Fin 4)) (l : List ReadChoice) (s : State) :
    Changes startParts s (fillPassed f o l s) := by
  unfold fillPassed; dsimp only
  refine Changes.mono (Changes.trans (F := [.cache]) ?_ (servePassedAll_changes ..)) rfl
  split
  · exact Changes.mono ((noFill_changes _).trans (changes_setEntry ..)) rfl
  · exact Changes.mono (((noFill_changes _).trans (changes_setEntry ..)).trans (lruJoin_changes ..)) rfl

theorem fillFailed_changes (st : Status) (f : Fill) (o : List (Fin 4)) (s : State) :
    Changes failParts s (fillFailed st f o s) :=
  Changes.mono (((noFill_changes _).trans (changes_setEntry ..)).trans (serveFailedAll_changes ..)) rfl

theorem markFilling_changes (l : List (Fin 4)) (s : State) : Changes [.queues] s (markFilling l s) := by
  induction l generalizing s with
  | nil => exact Changes.refl ..
  | cons q l ih =>
    unfold markFilling; split
    · exact Changes.mono ((setJob_changes ..).trans (ih _)) rfl
    · exact ih _

theorem beginFill_changes (r : Request) (rest : List Request) (o : List (Fin 4)) (s : State) :
    Changes failParts s (beginFill r rest o s) := by
  have hmark : Changes [.queues, .cache] s (markFilling r.waiters { s with cache := { s.cache with reqs := rest } }) :=
    Changes.mono ((changes_cache ..).trans (markFilling_changes ..)) rfl
  unfold beginFill; dsimp only; split
  · exact Changes.mono (hmark.trans (serveFailedAll_changes ..)) rfl
  · split
    · exact Changes.mono (hmark.trans (serveFailedAll_changes ..)) rfl
    · exact Changes.mono (((hmark.trans (lruDrop_changes ..)).trans (changes_setEntry ..)).trans (changes_cache ..)) rfl

theorem nextPart_changes (f : Fill) (part : FillPart) (n : Nat) (s : State) : Changes [.cache] s (nextPart f part n s) :=
  changes_cache ..

theorem putStages_changes (f : Fill) (l : List StageRec) (s : State) : Changes [.cache] s (putStages f l s) :=
  changes_setEntry ..

theorem partDone_changes (f : Fill) (o : List (Fin 4)) (l : List ReadChoice) (s : State) :
    Changes startParts s (partDone f o l s) := by
  have hfail : ∀ st, Changes startParts s (fillFailed st f o s) := fun st => (fillFailed_changes st f o s).mono rfl
  have hpass : ∀ stages, Changes startParts s (fillPassed f o l (putStages f stages s)) := fun stages =>
    Changes.mono ((putStages_changes ..).trans (fillPassed_changes ..)) rfl
  unfold partDone; split
  · exact hfail _
  · split
    · unfold headerDone; dsimp only; split
      · exact (nextPart_changes ..).mono rfl
      · exact hfail _
    · unfold stagesDone; split
      · exact hfail _
      · split
        · exact hpass _
        · split
          · exact Changes.mono ((putStages_changes ..).trans (nextPart_changes ..)) rfl
          · exact hfail _
    · exact hpass _

/-- The parts a CHAIN_CONTROL record may change. -/
abbrev chainParts : List Part := [.queues, .waits, .cq, .cu, .cache]

theorem finishControl_chain {F : List Part} {s t : State} (h : Changes F s t) (q : Fin 4) (st : Status) (n : Nat) (d : Detail)
    (hit : Bool) (hF : within F chainParts = true) : Changes chainParts s (finishControl q st n d hit t) :=
  (h.trans (finishControl_changes ..)).mono (within_append hF rfl)

theorem chainLoad_changes (q : Fin 4) (pin : Bool) (a : Word) (s : State) :
    Changes chainParts s (chainLoad q pin a s) := by
  have hfin : ∀ st n d hit, Changes chainParts s (finishControl q st n d hit s) := fun st n d hit =>
    finishControl_chain (Changes.refl [] s) q st n d hit rfl
  unfold chainLoad; split
  · dsimp only; split
    · exact hfin ..
    · split
      · exact hfin ..
      · split
        · exact finishControl_chain ((changes_setEntry ..).trans (touchEntry_changes ..)) _ _ _ _ _ rfl
        · exact Changes.mono ((joinFill_changes ..).trans (parkControl_changes ..)) rfl
  · split
    · exact hfin ..
    · split
      · exact Changes.mono ((joinRequest_changes ..).trans (parkControl_changes ..)) rfl
      · split
        · exact Changes.mono ((placeRequest_changes ..).trans (parkControl_changes ..)) rfl
        · exact (changes_cu ..).mono rfl

theorem chainControl_changes (q : Fin 4) (action : ChainAction) (a : Word) (s : State) :
    Changes chainParts s (chainControl q action a s) := by
  have hfin : ∀ st n d hit, Changes chainParts s (finishControl q st n d hit s) := fun st n d hit =>
    finishControl_chain (Changes.refl [] s) q st n d hit rfl
  cases action with
  | load => exact chainLoad_changes ..
  | loadPin => exact chainLoad_changes ..
  | unpin =>
    change Changes chainParts s (chainUnpin q a s)
    unfold chainUnpin; split
    · dsimp only; split
      · exact finishControl_chain (changes_setEntry ..) _ _ _ _ _ rfl
      · exact hfin ..
    · exact hfin ..
  | invalidate =>
    change Changes chainParts s (chainInvalidate q a s)
    unfold chainInvalidate; split
    · exact finishControl_chain (invalidate_changes ..) _ _ _ _ _ rfl
    · exact hfin ..
  | invalidateAll =>
    change Changes chainParts s (chainInvalidateAll q s)
    exact finishControl_chain (invalidateAll_changes entryIds s) _ _ _ _ _ rfl

theorem retryControlPlace_changes (s : State) : Changes chainParts s (retryControlPlace s) := by
  unfold retryControlPlace; split
  · split
    · split
      · exact chainControl_changes ..
      · exact Changes.refl ..
    · exact Changes.refl ..
  · exact Changes.refl ..

/-! ### The frame ports -/

theorem takeSlot_changes (p : PortId) (f : Word) (j : Fin 32) (s : State) :
    Changes [.streams, .cq, .notices, .ports] s (takeSlot p f j s) := by
  unfold takeSlot; split
  · exact Changes.mono ((portTake_changes ..).trans (changes_setPort ..)) rfl
  · exact (changes_setPort ..).mono rfl

theorem takeSlots_changes (p : PortId) (f : Word) (l : List (Fin 32)) (s : State) :
    Changes [.streams, .cq, .notices, .ports] s (takeSlots p f l s) := by
  induction l generalizing s with
  | nil => exact Changes.refl ..
  | cons j l ih => exact Changes.mono ((takeSlot_changes p f j s).trans (ih _)) rfl

theorem appendSlot_changes (p : PortId) (f : Word) (j : Fin 32) (s : State) :
    Changes [.streams, .store, .cq, .notices] s (appendSlot p f j s) := by
  unfold appendSlot; split
  · exact portAppend_changes ..
  · exact Changes.refl ..

theorem appendSlots_changes (p : PortId) (f : Word) (l : List (Fin 32)) (s : State) :
    Changes [.streams, .store, .cq, .notices] s (appendSlots p f l s) := by
  induction l generalizing s with
  | nil => exact Changes.refl ..
  | cons j l ih => exact Changes.mono ((appendSlot_changes p f j s).trans (ih _)) rfl

theorem applySlot_changes (p : PortId) (j : Fin 32) (s : State) : Changes [.streams, .ports] s (applySlot p j s) := by
  unfold applySlot; dsimp only; split
  · exact Changes.refl ..
  · exact Changes.mono ((changes_setPort ..).trans (setMirror_changes ..)) rfl
  · split
    · exact Changes.mono ((changes_setPort ..).trans (setMirror_changes ..)) rfl
    · exact (changes_setPort ..).mono rfl

theorem applySlots_changes (p : PortId) (l : List (Fin 32)) (s : State) : Changes [.streams, .ports] s (applySlots p l s) := by
  induction l generalizing s with
  | nil => exact Changes.refl ..
  | cons j l ih => exact Changes.mono ((applySlot_changes p j s).trans (ih _)) rfl

theorem releaseBind_changes (q : Fin 4) (s : State) : Changes fetchParts s (releaseBind q s) := by
  unfold releaseBind; split
  · exact completeParked_changes ..
  · exact Changes.refl ..

theorem releaseParked_changes (l : List (Fin 4)) (s : State) : Changes fetchParts s (releaseParked l s) := by
  induction l generalizing s with
  | nil => exact Changes.refl ..
  | cons q l ih => exact Changes.mono ((releaseBind_changes q s).trans (ih _)) rfl

/-- The parts a line event may change. -/
abbrev lineParts : List Part := [.queues, .waits, .cq, .streams, .store, .notices, .ports]

theorem frameEvent_changes (p : PortId) (mark : Bool) (s : State) : Changes lineParts s (frameEvent p mark s) :=
  Changes.mono (((((takeSlots_changes ..).trans (appendSlots_changes ..)).trans (applySlots_changes ..)).trans (changes_setPort ..)).trans (releaseParked_changes ..)) rfl

theorem lockEvent_changes (p : PortId) (s : State) : Changes lineParts s (lockEvent p s) :=
  Changes.mono ((((changes_setPort ..).trans (takeSlots_changes ..)).trans (changes_setPort ..)).trans
    (raiseEvent_changes ..)) rfl

theorem lossEvent_changes (p : PortId) (r : LossReason) (s : State) : Changes lineParts s (lossEvent p r s) :=
  Changes.mono ((((changes_setPort ..).trans (raiseEvent_changes ..)).trans (applySlots_changes ..)).trans (releaseParked_changes ..)) rfl

theorem huntMark_changes (p : PortId) (s : State) : Changes [.ports] s (huntMark p s) := changes_setPort ..
theorem dropCandidate_changes (p : PortId) (s : State) : Changes [.ports] s (dropCandidate p s) := changes_setPort ..

theorem takeDue_changes (p : PortId) (s : State) : Changes lineParts s (takeDue p s) := by
  unfold takeDue; split
  · unfold takeLineEvent; split
    · exact frameEvent_changes ..
    · exact (huntMark_changes ..).mono rfl
    · exact (dropCandidate_changes ..).mono rfl
    · exact lockEvent_changes ..
    · exact lossEvent_changes ..
  · exact Changes.refl ..

theorem bitClock_changes (p : PortId) (din sync : Bool) (s : State) : Changes lineParts s (bitClock p din sync s) :=
  Changes.mono ((takeDue_changes ..).trans (changes_setPort ..)) rfl

theorem recordPending_changes (p : PortId) (j : Fin 32) (a : BindAction) (q : Fin 4) (s : State) :
    Changes [.streams, .ports] s (recordPending p j a q s) := by
  unfold recordPending; dsimp only; split
  · exact Changes.mono ((changes_setPort ..).trans (setMirror_changes ..)) rfl
  · split
    · exact Changes.mono ((changes_setPort ..).trans (setMirror_changes ..)) rfl
    · exact (changes_setPort ..).mono rfl

theorem withdrawSlot_changes (p : PortId) (j : Fin 32) (s : State) : Changes [.streams, .ports] s (withdrawSlot p j s) := by
  unfold withdrawSlot; dsimp only; split
  · exact Changes.refl ..
  · exact Changes.mono ((changes_setPort ..).trans (setMirror_changes ..)) rfl
  · split
    · exact Changes.mono ((changes_setPort ..).trans (setMirror_changes ..)) rfl
    · exact (changes_setPort ..).mono rfl

/-- The parts a BIND_SLOT record may change. -/
abbrev bindParts : List Part := [.queues, .waits, .cq, .cu, .streams, .ports]

theorem execBind_changes (q : Fin 4) (p : PortId) (j : Fin 32) (a : BindAction) (s : State) :
    Changes bindParts s (execBind q p j a s) := by
  unfold execBind; split
  · split
    · exact Changes.mono ((recordPending_changes ..).trans (parkControl_changes ..)) rfl
    · exact Changes.mono (((recordPending_changes ..).trans (applySlot_changes ..)).trans
        (finishControl_changes ..)) rfl
  · exact (finishControl_changes ..).mono rfl

/-! ### The control unit -/

/-- The parts a record that defines, retires or reads a stream may change. -/
abbrev streamParts : List Part := [.queues, .waits, .cq, .cu, .streams, .store, .notices]

theorem execDefine_changes (q : Fin 4) (n : Fin 48) (base length hist : Nat) (producer : Producer)
    (consumer : Consumer) (policy : OverrunPolicy) (idle : Sample) (s : State) :
    Changes streamParts s (execDefine q n base length hist producer consumer policy idle s) := by
  unfold execDefine; split
  · exact (finishControl_changes ..).mono rfl
  · split
    · exact (finishControl_changes ..).mono rfl
    · exact Changes.mono ((((changes_store ..).trans (changes_setStream ..)).trans (notify_changes ..)).trans (finishControl_changes ..)) rfl

/-- A retire sets its stream FREE and sends a notice. -/
theorem execRetire_changes (q : Fin 4) (n : Fin 48) (s : State) :
    Changes (.streams :: .notices :: finishParts) s (execRetire q n s) := by
  unfold execRetire; split
  · exact Changes.mono (((changes_setStream ..).trans (notify_changes ..)).trans (finishControl_changes ..)) rfl
  · exact (finishControl_changes ..).mono rfl

theorem execRead_changes (q : Fin 4) (n : Fin 48) (a : Word) (rearm : Bool) (s : State) :
    Changes finishParts s (execRead q n a rearm s) := by
  unfold execRead; split
  · exact (changes_cu ..).mono rfl
  · exact finishControl_changes ..

theorem execClearContext_changes (q : Fin 4) (c : Fin 32) (s : State) :
    Changes (.contexts :: finishParts) s (execClearContext q c s) := by
  unfold execClearContext; split
  · exact (finishControl_changes ..).mono rfl
  · split
    · exact Changes.mono ((changes_setContext ..).trans (finishControl_changes ..)) rfl
    · exact (finishControl_changes ..).mono rfl

/-- The parts an ABORT may change. -/
abbrev abortParts : List Part :=
  [.queues, .waits, .cq, .cu, .streams, .notices, .cache, .contexts, .dp, .stopReq, .ports]

theorem abortParked_changes (t : Fin 4) (body : ControlRec) (s : State) : Changes abortParts s (abortParked t body s) := by
  unfold abortParked
  refine Changes.mono (Changes.trans (F := abortParts) ?_ (completeControl_changes ..)) rfl
  split
  · exact (withdrawSlot_changes ..).mono rfl
  · exact Changes.mono ((withdrawWaiter_changes ..).trans (retryJobPlace_changes _)) rfl
  · exact Changes.refl ..

theorem abortTarget_changes (q t : Fin 4) (s : State) : Changes abortParts s (abortTarget q t s) := by
  unfold abortTarget; split
  · split
    · exact Changes.mono ((completeJob_changes ..).trans (finishControl_changes ..)) rfl
    · exact Changes.mono ((completeJob_changes ..).trans (finishControl_changes ..)) rfl
    · exact Changes.mono (((withdrawWaiter_changes ..).trans (failStart_changes ..)).trans (finishControl_changes ..)) rfl
    · refine ⟨fun p hp => ?_⟩
      have hsame := Agree.refl s p
      cases p with
      | stopReq => exact absurd hp Bool.noConfusion
      | cu => exact absurd hp Bool.noConfusion
      | _ => exact hsame
  · split
    · exact Changes.mono ((completeControl_changes ..).trans (finishControl_changes ..)) rfl
    · exact Changes.mono ((abortParked_changes ..).trans (finishControl_changes ..)) rfl
    · exact (finishControl_changes ..).mono rfl
  · exact (finishControl_changes ..).mono rfl

theorem execAbort_changes (q t : Fin 4) (tag : Word) (s : State) : Changes abortParts s (execAbort q t tag s) := by
  unfold execAbort; split
  · exact abortTarget_changes ..
  · exact (finishControl_changes ..).mono rfl

/-- The parts the execution of a control record may change. -/
abbrev controlParts : List Part :=
  [.queues, .waits, .cq, .cu, .streams, .store, .notices, .cache, .contexts, .dp, .stopReq, .ports]

theorem executeControl_changes (q : Fin 4) (body : ControlRec) (s : State) :
    Changes controlParts s (executeControl q body s) := by
  cases body with
  | defineStream n base length hist producer consumer policy idle => exact (execDefine_changes ..).mono rfl
  | retireStream n => exact (execRetire_changes ..).mono rfl
  | readStream n addr rearm => exact (execRead_changes ..).mono rfl
  | bindSlot p j action => exact (execBind_changes ..).mono rfl
  | chainControl action addr => exact (chainControl_changes ..).mono rfl
  | clearContext c => exact (execClearContext_changes ..).mono rfl
  | abort t tag => exact (execAbort_changes ..).mono rfl
  | marker => exact (finishControl_changes ..).mono rfl

theorem selectAndExecute_changes (q : Fin 4) (s : State) : Changes controlParts s (selectAndExecute q s) := by
  unfold selectAndExecute; split
  · exact Changes.mono (((changes_cu ..).trans (changes_setHead ..)).trans (executeControl_changes ..)) rfl
  · exact Changes.refl ..

/-! ### Engine control and decode -/

theorem setupFail_changes (code : FaultCode) (idx : Nat) (s : State) : Changes [.eng, .irqPend] s (setupFail code idx s) :=
  Changes.mono ((changes_eng ..).trans (changes_irqPend ..)) rfl

theorem runFromOff_changes (s : State) : Changes [.eng, .irqPend] s (runFromOff s) := by
  unfold runFromOff; dsimp only; split
  · exact (changes_eng ..).mono rfl
  · exact Changes.mono ((changes_eng ..).trans (setupFail_changes ..)) rfl

/-- The parts the acceptance of a setup record may change. -/
abbrev setupParts : List Part := [.eng, .irqPend, .queues, .waits, .arbiter, .cu, .cq, .ports]

theorem setupAccept_changes (r : SetupRec) (s : State) : Changes setupParts s (setupAccept r s) := by
  refine ⟨fun p hp => ?_⟩
  have hsame := Agree.refl s p
  cases p with
  | eng => exact absurd hp Bool.noConfusion
  | irqPend => exact absurd hp Bool.noConfusion
  | queues => exact absurd hp Bool.noConfusion
  | waits => exact absurd hp Bool.noConfusion
  | arbiter => exact absurd hp Bool.noConfusion
  | cu => exact absurd hp Bool.noConfusion
  | cq => exact absurd hp Bool.noConfusion
  | ports => exact absurd hp Bool.noConfusion
  | _ => exact hsame

theorem setupDone_changes (b : ReadBuf) (s : State) : Changes setupParts s (setupDone b s) := by
  unfold setupDone; split
  · exact (setupFail_changes ..).mono rfl
  · dsimp only; split
    · exact (setupFail_changes ..).mono rfl
    · exact setupAccept_changes ..

/-- CLEAR keeps the waiting commands, IRQMASK and the sample store; every other part it may change (R181). -/
abbrev clearParts : List Part :=
  [.eng, .irqPend, .queues, .waits, .arbiter, .notices, .cu, .cache, .contexts, .dp, .stopReq, .streams, .ports, .cq, .stale]

theorem clearEngine_changes (s : State) : Changes clearParts s (clearEngine s) := by
  refine ⟨fun p hp => ?_⟩
  cases p with
  | pending => exact rfl
  | irqMask => exact rfl
  | store => exact rfl
  | _ => exact absurd hp Bool.noConfusion

/-- A pin reset keeps the waiting commands alone (R182). -/
abbrev resetParts : List Part := .irqMask :: .store :: clearParts

theorem assertReset_changes (s : State) : Changes resetParts s (assertReset s) := by
  refine ⟨fun p hp => ?_⟩
  cases p with
  | pending => exact rfl
  | _ => exact absurd hp Bool.noConfusion

theorem discardFetch_changes (q : Fin 4) (s : State) : Changes fetchParts s (discardFetch q s) :=
  Changes.mono ((changes_setQueue ..).trans (askIfEligible_changes ..)) rfl

theorem decodeHead_changes (q : Fin 4) (pos : Nat) (bytes : List Byte) (s : State) :
    Changes fetchParts s (decodeHead q pos bytes s) := by
  unfold decodeHead; dsimp only; split
  · exact completeHead_changes ..
  · unfold admitData; split
    · exact completeHead_changes ..
    · exact (changes_setHead ..).mono rfl
  · exact (changes_setHead ..).mono rfl

theorem enterFaulted_changes (s : State) : Changes [.eng, .irqPend, .cq] s (enterFaulted s) := by
  refine ⟨fun p hp => ?_⟩
  have hsame := Agree.refl s p
  cases p with
  | eng => exact absurd hp Bool.noConfusion
  | irqPend => exact absurd hp Bool.noConfusion
  | cq => exact absurd hp Bool.noConfusion
  | _ => exact hsame

end Sys2Proof.Machine
end

section
/-! SUPPORT. What every command answers: the parts its next state may change, as one table over the commands, and the rule by
which a property of states passes through a step. -/

namespace Sys2Proof.Machine

open Sys2Proof

/-! ### Properties of a command's next state -/

/-- The next state an outcome gives, if it gives one, has a property. -/
def Answers (P : State → Prop) (o : Host.Outcome State Fault Refusal) : Prop := ∀ t, o = .next t → P t

theorem answers_next {P : State → Prop} {t : State} (h : P t) : Answers P (.next t) := by
  intro u hu
  obtain rfl := Host.Outcome.next.inj hu
  exact h

theorem answers_refused {P : State → Prop} (r : Refusal) : Answers P (.refused r) := by
  intro t ht
  cases ht

/-- Under the guard a command answers `s` itself, or the state it computed. -/
theorem answers_taken {P : State → Prop} {s t : State} (hs : P s) (ht : P t) : Answers P (taken s t) := by
  intro u hu
  obtain ⟨-, rfl⟩ | ⟨-, rfl⟩ := taken_cases hu
  · exact hs
  · exact ht

theorem Answers.imp {P Q : State → Prop} {o : Host.Outcome State Fault Refusal} (h : Answers P o) (hPQ : ∀ t, P t → Q t) :
    Answers Q o := fun t ht => hPQ t (h t ht)

/-- A property that does not read the queue of commands, and that every command keeps, is kept by every step. -/
theorem step_keeps {P : State → Prop} {s t : State} (hP : P s) (hrest : ∀ l, P s → P { s with pending := l })
    (hexec : ∀ c u, P u → Answers P (exec c u)) (hstep : step s = .next t) : P t := by
  unfold step at hstep
  split at hstep
  · exact hexec _ _ (hrest _ hP) t hstep
  · obtain rfl := Host.Outcome.next.inj hstep
    exact hP

/-! ### The parts a command may change -/

/-- The parts a command may change. -/
def commandParts : Instr → List Part
  | .run => [.eng, .irqPend, .queues, .waits, .cq]
  | .halt => [.eng, .irqPend]
  | .clear => clearParts
  | .engctlNone => []
  | .postAdvance _ _ => [.eng, .irqPend, .queues, .waits, .cq]
  | .postRestart _ => fetchParts
  | .postFlush _ => [.eng, .irqPend, .queues, .waits, .cq]
  | .cqheadWrite _ => [.eng, .irqPend, .queues, .waits, .cq]
  | .irqpendWrite _ => [.irqPend]
  | .irqmaskWrite _ => [.irqMask]
  | .setupadrWrite _ => [.eng]
  | .registerWriteIgnored _ _ _ => []
  | .pinReset => resetParts
  | .resetRelease => [.eng]
  | .tick => [.queues, .cq]
  | .waitTimerExpiry _ => fetchParts
  | .coalescingTimerExpiry => [.cq, .irqPend]
  | .setupReadAnswer _ _ => setupParts
  | .headFetchData _ _ => fetchParts
  | .headFetchError _ => fetchParts
  | .controlSelect => controlParts
  | .snapshotWriteAnswer _ => [.eng, .irqPend, .queues, .waits, .cq, .cu, .streams]
  | .stopRequest => endParts
  | .changeNotice _ _ => [.queues, .waits, .cq, .notices]
  | .grant _ => .arbiter :: startParts
  | .fillBegin _ => .eng :: .irqPend :: .cu :: startParts
  | .fillReadAnswer _ _ _ _ => .eng :: .irqPend :: startParts
  | .computeSample _ => .store :: endParts
  | .dpReadAnswer _ _ _ => endParts
  | .dpReadError _ => endParts
  | .dpWriteAnswer _ => endParts
  | .dpWriteError _ => endParts
  | .frameEvent _ => lineParts
  | .huntSyncMark _ => [.ports]
  | .candidateDrop _ => [.ports]
  | .lockEvent _ => lineParts
  | .lossEvent _ => lineParts
  | .bodyWriteAnswer => [.cq]
  | .phaseWriteAnswer => [.cq, .irqPend]
  | .cqWriteError => [.eng, .irqPend, .cq]
  | .staleAnswerDiscard _ _ => [.stale]
  | .bitClock _ _ _ => lineParts
  | .engctlReservedCode _ => [.eng]
  | .postReservedAction _ => [.eng, .irqPend]

theorem taken_changes {F : List Part} {s t : State} (h : Changes F s t) : Answers (Changes F s) (taken s t) :=
  answers_taken (Changes.refl F s) h

/-! ### ENGCTL and the register window -/

theorem execRun_changes (s : State) : Answers (Changes (commandParts .run) s) (execRun s) := by
  refine taken_changes ?_
  split
  · exact (runFromOff_changes s).mono rfl
  · refine Changes.mono ((((((changes_eng s _).trans (serveWaitList_changes _)).trans (askIfEligible_changes 0 _)).trans
      (askIfEligible_changes 1 _)).trans (askIfEligible_changes 2 _)).trans (askIfEligible_changes 3 _)) rfl
  · exact (changes_eng ..).mono rfl

theorem execHalt_changes (s : State) : Answers (Changes (commandParts .halt) s) (execHalt s) := by
  refine taken_changes ?_
  split
  · exact Changes.mono ((changes_eng s _).trans (checkDrain_changes _)) rfl
  · exact (changes_eng ..).mono rfl

theorem execClear_changes (s : State) : Answers (Changes (commandParts .clear) s) (execClear s) := by
  refine taken_changes ?_
  split
  · exact clearEngine_changes s
  · exact (changes_eng ..).mono rfl

theorem execEngctlReservedCode_changes (code : BitVec 4) (s : State) :
    Answers (Changes (commandParts (.engctlReservedCode code)) s) (execEngctlReservedCode code s) := by
  unfold execEngctlReservedCode; split
  · exact taken_changes (changes_eng ..)
  · exact answers_refused _

theorem execPostAdvance_changes (q : Fin 4) (index : BitVec 12) (s : State) :
    Answers (Changes (commandParts (.postAdvance q index)) s) (execPostAdvance q index s) := by
  refine taken_changes ?_
  split
  · exact Changes.mono ((changes_setQueue ..).trans (askIfEligible_changes ..)) rfl
  · exact (refusePost_changes ..).mono rfl

theorem execPostRestart_changes (q : Fin 4) (s : State) :
    Answers (Changes (commandParts (.postRestart q)) s) (execPostRestart q s) := by
  refine taken_changes ?_
  split
  · exact Changes.mono ((changes_setQueue ..).trans (askIfEligible_changes ..)) rfl
  · exact Changes.refl ..

theorem execPostFlush_changes (q : Fin 4) (s : State) :
    Answers (Changes (commandParts (.postFlush q)) s) (execPostFlush q s) := by
  refine taken_changes ?_
  dsimp only; split
  · exact (refusePost_changes ..).mono rfl
  · split
    · exact Changes.refl ..
    · split
      · exact (changes_setQueue ..).mono rfl
      · split
        · exact (flushEffect_changes ..).mono rfl
        · exact (flushOwn_changes ..).mono rfl

theorem execCqheadWrite_changes (index : BitVec 16) (s : State) :
    Answers (Changes (commandParts (.cqheadWrite index)) s) (execCqheadWrite index s) := by
  refine taken_changes ?_
  split
  · dsimp only; split
    · exact Changes.mono (((changes_cq s _).trans (postSummary_changes _)).trans (serveWaitList_changes _)) rfl
    · exact (changes_cq ..).mono rfl
  · exact Changes.mono ((changes_eng s _).trans (changes_irqPend ..)) rfl

theorem execSetupadrWrite_changes (v : Word) (s : State) :
    Answers (Changes (commandParts (.setupadrWrite v)) s) (execSetupadrWrite v s) := by
  refine taken_changes ?_
  split
  · exact changes_eng ..
  · exact Changes.refl ..

theorem execRegisterWriteIgnored_changes (offset : Nat) (strobes : BitVec 4) (v : Word) (s : State) :
    Answers (Changes (commandParts (.registerWriteIgnored offset strobes v)) s)
      (execRegisterWriteIgnored offset strobes v s) := by
  unfold execRegisterWriteIgnored; split
  · exact answers_refused _
  · exact answers_next (Changes.refl ..)

theorem execSetupReadAnswer_changes (off : Nat) (a : Answer) (s : State) :
    Answers (Changes (commandParts (.setupReadAnswer off a)) s) (execSetupReadAnswer off a s) := by
  refine taken_changes ?_
  split
  · exact Changes.refl ..
  · split
    · dsimp only; split
      · exact setupDone_changes ..
      · exact (changes_eng ..).mono rfl
    · exact Changes.refl ..

/-! ### Timers, fetches and completion writes -/

theorem execWaitTimerExpiry_changes (q : Fin 4) (s : State) :
    Answers (Changes (commandParts (.waitTimerExpiry q)) s) (execWaitTimerExpiry q s) := by
  refine taken_changes ?_
  split
  · exact completeJob_changes ..
  · exact Changes.refl ..

theorem execCoalescingTimerExpiry_changes (s : State) :
    Answers (Changes (commandParts .coalescingTimerExpiry) s) (execCoalescingTimerExpiry s) := by
  refine taken_changes ?_
  split
  · split
    · exact reportCompletions_changes s
    · exact (changes_cq ..).mono rfl
  · exact Changes.refl ..

theorem execHeadFetchData_changes (q : Fin 4) (bytes : List Byte) (s : State) :
    Answers (Changes (commandParts (.headFetchData q bytes)) s) (execHeadFetchData q bytes s) := by
  refine taken_changes ?_
  split
  · split
    · exact Changes.refl ..
    · split
      · exact discardFetch_changes ..
      · exact decodeHead_changes ..
  · exact Changes.refl ..

theorem execHeadFetchError_changes (q : Fin 4) (s : State) :
    Answers (Changes (commandParts (.headFetchError q)) s) (execHeadFetchError q s) := by
  refine taken_changes ?_
  split
  · split
    · exact discardFetch_changes ..
    · exact Changes.mono ((changes_setQueue ..).trans (completeHead_changes ..)) rfl
  · exact Changes.refl ..

theorem execBodyWriteAnswer_changes (s : State) :
    Answers (Changes (commandParts .bodyWriteAnswer) s) (execBodyWriteAnswer s) := by
  refine taken_changes ?_
  split
  · exact changes_cq ..
  · exact Changes.refl ..

theorem execPhaseWriteAnswer_changes (s : State) :
    Answers (Changes (commandParts .phaseWriteAnswer) s) (execPhaseWriteAnswer s) := by
  refine taken_changes ?_
  split
  · exact recordWritten_changes s
  · exact Changes.refl ..

theorem execCqWriteError_changes (s : State) : Answers (Changes (commandParts .cqWriteError) s) (execCqWriteError s) := by
  refine taken_changes ?_
  split
  · exact Changes.refl ..
  · exact enterFaulted_changes s

/-! ### The control unit, the scheduler and the loader -/

theorem execControlSelect_changes (s : State) : Answers (Changes (commandParts .controlSelect) s) (execControlSelect s) := by
  refine taken_changes ?_
  split
  · split
    · exact selectAndExecute_changes ..
    · exact Changes.refl ..
  · exact Changes.refl ..

theorem execSnapshotWriteAnswer_changes (ok : Bool) (s : State) :
    Answers (Changes (commandParts (.snapshotWriteAnswer ok)) s) (execSnapshotWriteAnswer ok s) := by
  have hdone : ∀ {t : State} (q : Fin 4) (st : Status), Changes [.streams] s t →
      Changes (commandParts (.snapshotWriteAnswer ok)) s (checkDrain (finishControl q st 0 .none false t)) :=
    fun q st h => Changes.mono ((h.trans (finishControl_changes ..)).trans (checkDrain_changes _)) rfl
  refine taken_changes ?_
  split
  · split
    · refine hdone _ _ ?_
      split
      · exact changes_setStream ..
      · exact Changes.refl ..
    · exact hdone _ _ (Changes.refl ..)
  · exact Changes.refl ..

theorem execChangeNotice_changes (n : Fin 48) (order : List (Fin 4)) (s : State) :
    Answers (Changes (commandParts (.changeNotice n order)) s) (execChangeNotice n order s) := by
  refine taken_changes ?_
  split
  · exact Changes.mono ((changes_notices s _).trans (reexamineAll_changes ..)) rfl
  · exact Changes.refl ..

theorem execGrant_changes (reads : List ReadChoice) (s : State) :
    Answers (Changes (commandParts (.grant reads)) s) (execGrant reads s) := by
  refine taken_changes ?_
  split
  · split
    · exact Changes.mono (((arbiterMove_changes ..).trans (enterStarting_changes ..)).trans (startSequence_changes ..)) rfl
    · exact Changes.refl ..
  · exact Changes.refl ..

theorem execFillBegin_changes (order : List (Fin 4)) (s : State) :
    Answers (Changes (commandParts (.fillBegin order)) s) (execFillBegin order s) := by
  refine taken_changes ?_
  split
  · exact Changes.mono ((((beginFill_changes ..).trans (retryJobPlace_changes _)).trans (retryControlPlace_changes _)).trans
      (checkDrain_changes _)) rfl
  · exact Changes.refl ..

theorem execFillReadAnswer_changes (off : Nat) (a : Answer) (order : List (Fin 4)) (reads : List ReadChoice) (s : State) :
    Answers (Changes (commandParts (.fillReadAnswer off a order reads)) s) (execFillReadAnswer off a order reads s) := by
  refine taken_changes ?_
  split
  · exact Changes.refl ..
  · split
    · dsimp only; split
      · exact Changes.mono ((partDone_changes ..).trans (checkDrain_changes _)) rfl
      · exact (changes_cache ..).mono rfl
    · exact Changes.refl ..

/-! ### The datapath -/

theorem settle_dp_changes (s : State) (dp : Datapath) : Changes endParts s (settle { s with dp := dp }) :=
  Changes.mono ((changes_dp s dp).trans (settle_changes _)) rfl

theorem execDpReadAnswer_changes (k : Nat) (data : List Byte) (reads : List ReadChoice) (s : State) :
    Answers (Changes (commandParts (.dpReadAnswer k data reads)) s) (execDpReadAnswer k data reads s) := by
  refine taken_changes ?_
  split
  · exact Changes.refl ..
  · split
    · exact Changes.refl ..
    · dsimp only; split
      · exact Changes.mono (((changes_dp s _).trans (takeWords_changes ..)).trans (settle_changes _)) rfl
      · exact settle_dp_changes ..

theorem execDpReadError_changes (k : Nat) (s : State) :
    Answers (Changes (commandParts (.dpReadError k)) s) (execDpReadError k s) := by
  refine taken_changes ?_
  split
  · exact Changes.refl ..
  · exact settle_dp_changes ..

theorem execDpWriteAnswer_changes (k : Nat) (s : State) :
    Answers (Changes (commandParts (.dpWriteAnswer k)) s) (execDpWriteAnswer k s) := by
  refine taken_changes ?_
  split
  · exact Changes.refl ..
  · exact settle_dp_changes ..

theorem execDpWriteError_changes (k : Nat) (s : State) :
    Answers (Changes (commandParts (.dpWriteError k)) s) (execDpWriteError k s) := by
  refine taken_changes ?_
  split
  · exact Changes.refl ..
  · exact settle_dp_changes ..

theorem execStopRequest_changes (s : State) : Answers (Changes (commandParts .stopRequest) s) (execStopRequest s) := by
  refine taken_changes ?_
  split
  · dsimp only; split
    · split
      · exact Changes.mono (((changes_stopReq s false).trans (changes_dp ..)).trans (settle_changes _)) rfl
      · exact (changes_stopReq ..).mono rfl
    · exact (changes_stopReq ..).mono rfl
  · exact Changes.refl ..

/-! ### The frame ports -/

theorem execFrameEvent_changes (p : PortId) (s : State) :
    Answers (Changes (commandParts (.frameEvent p)) s) (execFrameEvent p s) := by
  refine taken_changes ?_
  split
  · exact frameEvent_changes ..
  · exact Changes.refl ..

theorem execHuntSyncMark_changes (p : PortId) (s : State) :
    Answers (Changes (commandParts (.huntSyncMark p)) s) (execHuntSyncMark p s) := by
  refine taken_changes ?_
  split
  · exact huntMark_changes ..
  · exact Changes.refl ..

theorem execCandidateDrop_changes (p : PortId) (s : State) :
    Answers (Changes (commandParts (.candidateDrop p)) s) (execCandidateDrop p s) := by
  refine taken_changes ?_
  split
  · exact dropCandidate_changes ..
  · exact Changes.refl ..

theorem execLockEvent_changes (p : PortId) (s : State) :
    Answers (Changes (commandParts (.lockEvent p)) s) (execLockEvent p s) := by
  refine taken_changes ?_
  split
  · exact lockEvent_changes ..
  · exact Changes.refl ..

theorem execLossEvent_changes (p : PortId) (s : State) :
    Answers (Changes (commandParts (.lossEvent p)) s) (execLossEvent p s) := by
  refine taken_changes ?_
  split
  · exact lossEvent_changes ..
  · exact Changes.refl ..

/-! ### Every command -/

/-- A command changes no part outside those of its row. -/
theorem exec_changes (c : Instr) (s : State) : Answers (Changes (commandParts c) s) (exec c s) := by
  cases c with
  | run => exact execRun_changes s
  | halt => exact execHalt_changes s
  | clear => exact execClear_changes s
  | engctlNone => exact answers_next (Changes.refl ..)
  | postAdvance q index => exact execPostAdvance_changes q index s
  | postRestart q => exact execPostRestart_changes q s
  | postFlush q => exact execPostFlush_changes q s
  | cqheadWrite index => exact execCqheadWrite_changes index s
  | irqpendWrite v => exact taken_changes (changes_irqPend ..)
  | irqmaskWrite v => exact taken_changes (changes_irqMask ..)
  | setupadrWrite v => exact execSetupadrWrite_changes v s
  | registerWriteIgnored offset strobes v => exact execRegisterWriteIgnored_changes offset strobes v s
  | pinReset => exact answers_next (assertReset_changes s)
  | resetRelease => exact answers_next (changes_eng ..)
  | tick => exact taken_changes (Changes.mono ((tickQueues_changes s).trans (changes_cq ..)) rfl)
  | waitTimerExpiry q => exact execWaitTimerExpiry_changes q s
  | coalescingTimerExpiry => exact execCoalescingTimerExpiry_changes s
  | setupReadAnswer off a => exact execSetupReadAnswer_changes off a s
  | headFetchData q bytes => exact execHeadFetchData_changes q bytes s
  | headFetchError q => exact execHeadFetchError_changes q s
  | controlSelect => exact execControlSelect_changes s
  | snapshotWriteAnswer ok => exact execSnapshotWriteAnswer_changes ok s
  | stopRequest => exact execStopRequest_changes s
  | changeNotice n order => exact execChangeNotice_changes n order s
  | grant reads => exact execGrant_changes reads s
  | fillBegin order => exact execFillBegin_changes order s
  | fillReadAnswer off a order reads => exact execFillReadAnswer_changes off a order reads s
  | computeSample reads => exact taken_changes (computeStep_changes reads s)
  | dpReadAnswer k data reads => exact execDpReadAnswer_changes k data reads s
  | dpReadError k => exact execDpReadError_changes k s
  | dpWriteAnswer k => exact execDpWriteAnswer_changes k s
  | dpWriteError k => exact execDpWriteError_changes k s
  | frameEvent p => exact execFrameEvent_changes p s
  | huntSyncMark p => exact execHuntSyncMark_changes p s
  | candidateDrop p => exact execCandidateDrop_changes p s
  | lockEvent p => exact execLockEvent_changes p s
  | lossEvent p => exact execLossEvent_changes p s
  | bodyWriteAnswer => exact execBodyWriteAnswer_changes s
  | phaseWriteAnswer => exact execPhaseWriteAnswer_changes s
  | cqWriteError => exact execCqWriteError_changes s
  | staleAnswerDiscard k bytes => exact answers_next (changes_stale ..)
  | bitClock p din sync => exact taken_changes (bitClock_changes p din sync s)
  | engctlReservedCode code => exact execEngctlReservedCode_changes code s
  | postReservedAction q => exact taken_changes (refusePost_changes q s)

/-- A property that reads none of the parts a command may change is kept by it. -/
theorem exec_keeps_of_parts {P : State → Prop} {c : Instr} {s : State}
    (h : ∀ t, Changes (commandParts c) s t → P t) : Answers P (exec c s) := (exec_changes c s).imp h

end Sys2Proof.Machine
end

section
/-! SUPPORT. The sample store keeps its canonical form: the four places that write it, and every step (R1). -/

namespace Sys2Proof.Machine

open Sys2Proof

/-! ### The operations that write the store -/

theorem storeSound_of_changes {F : List Part} {s t : State} (hs : StoreSound s) (h : Changes F s t)
    (hF : Part.store.isIn F = false) : StoreSound t := by
  unfold StoreSound
  rwa [h.store hF]

theorem portAppend_storeSound (n : Fin 48) (frame : Word) (x : Sample) {s : State} (hs : StoreSound s) :
    StoreSound (portAppend n frame x s) := by
  have hw := storeWf_storeWrite x hs (ringWord_lt (s.stream n) (s.stream n).wrpos)
  unfold portAppend
  dsimp only
  split
  · exact hw
  · split
    · rw [StoreSound, raiseEvent_store]
      split
      · exact hw
      · exact hs
    · split
      · exact hw
      · exact hs

theorem appendSlots_storeSound (p : PortId) (frame : Word) (l : List (Fin 32)) {s : State} (hs : StoreSound s) :
    StoreSound (appendSlots p frame l s) := by
  induction l generalizing s with
  | nil => exact hs
  | cons j rest ih =>
    refine ih ?_
    unfold appendSlot
    split
    · exact portAppend_storeSound _ _ _ hs
    · exact hs

theorem takeLineEvent_storeSound (p : PortId) (d : LineDue) {s : State} (hs : StoreSound s) :
    StoreSound (takeLineEvent p d s) := by
  cases d with
  | frame mark =>
    have htaken := storeSound_of_changes hs (takeSlots_changes p (s.port p).fcount slotIds s) rfl
    have happended := appendSlots_storeSound p (s.port p).fcount slotIds htaken
    exact storeSound_of_changes happended
      (((applySlots_changes ..).trans (changes_setPort ..)).trans (releaseParked_changes ..)) rfl
  | huntMark => exact storeSound_of_changes hs (changes_setPort ..) rfl
  | drop => exact storeSound_of_changes hs (changes_setPort ..) rfl
  | lock =>
    rw [StoreSound, takeLineEvent, lockEvent, raiseEvent_store]
    exact storeSound_of_changes hs (((changes_setPort ..).trans (takeSlots_changes ..)).trans (changes_setPort ..)) rfl
  | loss reason =>
    exact storeSound_of_changes hs ((((changes_setPort ..).trans (raiseEvent_changes ..)).trans
      (applySlots_changes ..)).trans (releaseParked_changes ..)) rfl

theorem takeDue_storeSound (p : PortId) {s : State} (hs : StoreSound s) : StoreSound (takeDue p s) := by
  unfold takeDue
  split
  · exact takeLineEvent_storeSound p _ hs
  · exact hs

theorem handOn_storeSound (j : JobRec) (i : Nat) (y : Sample) {s : State} (hs : StoreSound s) :
    StoreSound (handOn j i y s) := by
  unfold handOn
  split
  · exact storeWf_storeWrite _ hs (ringWord_lt ..)
  · exact hs

theorem computeNext_storeSound (j : JobRec) {s : State} (hs : StoreSound s) : StoreSound (computeNext j s) := by
  unfold computeNext
  split
  · exact hs
  · split
    · exact hs
    · next xs _ =>
      split
      · exact hs
      · next y bq clips _ =>
        have hadvanced : StoreSound { s with dp := advanceDp s j xs bq clips } := hs
        exact storeSound_of_changes (handOn_storeSound j s.dp.next y hadvanced) (afterSample_changes ..) rfl

theorem computeStep_storeSound (reads : List ReadChoice) {s : State} (hs : StoreSound s) :
    StoreSound (computeStep reads s) := by
  unfold computeStep
  split
  · next j _ =>
    split
    · have hissued := storeSound_of_changes hs ((issueReads_changes reads s).trans (pushGather_changes j _)) rfl
      exact storeSound_of_changes (computeNext_storeSound j hissued) (settle_changes _) rfl
    · exact hs
  · exact hs

theorem executeControl_storeSound (q : Fin 4) (body : ControlRec) {s : State} (hs : StoreSound s) :
    StoreSound (executeControl q body s) := by
  cases body with
  | defineStream n base length hist producer consumer policy idle =>
    have hzero := storeWf_storeWriteAll _ hs (historyZeroes_lt base length hist)
    simp only [executeControl, execDefine]
    split
    · exact storeSound_of_changes hs (finishControl_changes ..) rfl
    · split
      · exact storeSound_of_changes hs (finishControl_changes ..) rfl
      · exact storeSound_of_changes (by exact hzero) (finishControl_changes ..) rfl
  | retireStream n => exact storeSound_of_changes hs (execRetire_changes q n s) rfl
  | readStream n addr rearm => exact storeSound_of_changes hs (execRead_changes q n addr rearm s) rfl
  | bindSlot p j action => exact storeSound_of_changes hs (execBind_changes q p j action s) rfl
  | chainControl action addr => exact storeSound_of_changes hs (chainControl_changes q action addr s) rfl
  | clearContext c => exact storeSound_of_changes hs (execClearContext_changes q c s) rfl
  | abort t tag => exact storeSound_of_changes hs (execAbort_changes q t tag s) rfl
  | marker => exact storeSound_of_changes hs (finishControl_changes ..) rfl

theorem selectAndExecute_storeSound (q : Fin 4) {s : State} (hs : StoreSound s) : StoreSound (selectAndExecute q s) := by
  unfold selectAndExecute
  split
  · exact executeControl_storeSound q _ hs
  · exact hs

/-! ### Every command -/

/-- The commands that write no word of the store. -/
theorem exec_storeSound_of_row {c : Instr} {s : State} (hs : StoreSound s)
    (hc : Part.store.isIn (commandParts c) = false) : Answers StoreSound (exec c s) :=
  exec_keeps_of_parts (fun _ h => storeSound_of_changes hs h hc)

theorem execControlSelect_storeSound {s : State} (hs : StoreSound s) : Answers StoreSound (execControlSelect s) := by
  refine answers_taken hs ?_
  split
  · split
    · exact selectAndExecute_storeSound _ hs
    · exact hs
  · exact hs

theorem exec_storeSound (c : Instr) {s : State} (hs : StoreSound s) : Answers StoreSound (exec c s) := by
  cases c with
  | controlSelect => exact execControlSelect_storeSound hs
  | computeSample reads => exact answers_taken hs (computeStep_storeSound reads hs)
  | pinReset => exact answers_next (show storeWf [] = true from rfl)
  | frameEvent p =>
    refine answers_taken hs ?_
    split
    · next mark _ => exact takeLineEvent_storeSound p (.frame mark) hs
    · exact hs
  | lockEvent p =>
    refine answers_taken hs ?_
    split
    · exact takeLineEvent_storeSound p .lock hs
    · exact hs
  | lossEvent p =>
    refine answers_taken hs ?_
    split
    · next reason _ => exact takeLineEvent_storeSound p (.loss reason) hs
    · exact hs
  | bitClock p din sync =>
    exact answers_taken hs (storeSound_of_changes (takeDue_storeSound p hs) (changes_setPort ..) rfl)
  | _ => exact exec_storeSound_of_row hs rfl

/-- Settles O7: the store is written by a port append, a computed sample, a definition and a pin reset alone, and each of
them writes words inside the store. -/
theorem storeStaysSound : Obligations.StoreStaysSound :=
  fun _ _ hs hstep => step_keeps hs (fun _ h => h) (fun c _ h => exec_storeSound c h) hstep

end Sys2Proof.Machine
end

section
/-! SUPPORT. The statements about the machine as a whole: a step and the command at its front, which commands run, what
they leave alone, and the command a write of the register window spells (R167, R182, R184). -/

namespace Sys2Proof.Machine

open Sys2Proof

/-! ### A step -/

/-- Settles O1: both arms of `step`, by the queue of commands. -/
theorem stepRunsFrontCommand : Obligations.StepRunsFrontCommand := by
  refine ⟨fun c rest s hp => ?front, fun s hp => ?idle⟩
  case front => simp only [step, hp]
  case idle => simp only [step, hp]

/-! ### Which commands run (R167, R184) -/

theorem taken_next (s t : State) : ∃ u, taken s t = .next u := by
  unfold taken
  split
  · exact ⟨s, rfl⟩
  · exact ⟨t, rfl⟩

/-- The terms that another row's write spells: a reserved ENGCTL code below 4, an ignored write that a register takes. -/
def misSpelt : Instr → Bool
  | .engctlReservedCode code => decide (code.toNat < 4)
  | .registerWriteIgnored offset strobes _ => writeTaken offset strobes
  | _ => false

theorem writeTaken_iff (offset : Nat) (strobes : BitVec 4) :
    writeTaken offset strobes = true ↔ strobes = 15#4 ∧ offset ∈ [0x00, 0x08, 0x0C, 0x10, 0x14, 0x18] := by
  simp [writeTaken]

/-- A command that is not mis-spelt answers a next state. -/
theorem exec_next_of_not_misSpelt {c : Instr} (hc : misSpelt c = false) (s : State) : ∃ t, exec c s = .next t := by
  cases c with
  | engctlReservedCode code =>
    have hcode : 4 ≤ code.toNat := by simpa [misSpelt] using hc
    simp only [exec, execEngctlReservedCode, if_pos hcode]
    exact taken_next ..
  | registerWriteIgnored offset strobes v =>
    have hw : writeTaken offset strobes = false := hc
    exact ⟨s, by simp [exec, execRegisterWriteIgnored, hw]⟩
  | engctlNone => exact ⟨s, rfl⟩
  | pinReset => exact ⟨_, rfl⟩
  | resetRelease => exact ⟨_, rfl⟩
  | staleAnswerDiscard k bytes => exact ⟨_, rfl⟩
  | _ => exact taken_next ..

theorem misSpelt_of_wellFormed {c : Instr} (hc : wellFormed c = true) : misSpelt c = false := by
  cases c with
  | engctlReservedCode code =>
    have hcode : 4 ≤ code.toNat := by simpa [wellFormed] using hc
    simpa [misSpelt] using hcode
  | registerWriteIgnored offset strobes v => simpa [misSpelt, wellFormed] using hc
  | _ => rfl

/-- Settles O2: a command that is not mis-spelt answers through `taken` or at once, the two mis-spelt terms refuse. -/
theorem commandsRun : Obligations.CommandsRun := by
  refine ⟨fun c s hc => ?wellFormed, fun c s hcode hwrite => ?spelt, fun code s hcode => ?reserved,
    fun offset strobes v s hw => ?ignored⟩
  case wellFormed => exact exec_next_of_not_misSpelt (misSpelt_of_wellFormed hc) s
  case spelt =>
    refine exec_next_of_not_misSpelt ?_ s
    cases c with
    | engctlReservedCode code => simpa [misSpelt] using hcode code rfl
    | registerWriteIgnored offset strobes v =>
      have hnot := hwrite offset strobes v rfl
      simp only [misSpelt, Bool.eq_false_iff, ne_eq, writeTaken_iff]
      tauto
    | _ => rfl
  case reserved => simp only [exec, execEngctlReservedCode, if_neg (Nat.not_le.mpr hcode)]
  case ignored => simp only [exec, execRegisterWriteIgnored, if_pos hw]

/-! ### What every command leaves alone (R182) -/

/-- No command's row names the queue of commands. -/
theorem pending_not_in_commandParts (c : Instr) : Part.pending.isIn (commandParts c) = false := by
  cases c <;> rfl

/-- While RESET_N is asserted every command but the three of the reset itself leaves the block as it is. -/
theorem exec_of_inReset {c : Instr} {s t : State} (hr : s.eng.inReset = true) (ht : exec c s = .next t)
    (hpin : c ≠ .pinReset) (hrelease : c ≠ .resetRelease) (hstale : ∀ k n, c ≠ .staleAnswerDiscard k n) : t = s := by
  have held : ∀ u, taken s u = .next t → t = s := by
    intro u hu
    rw [taken_inReset hr] at hu
    exact (Host.Outcome.next.inj hu).symm
  cases c with
  | pinReset => exact absurd rfl hpin
  | resetRelease => exact absurd rfl hrelease
  | staleAnswerDiscard k n => exact absurd rfl (hstale k n)
  | engctlNone => exact (Host.Outcome.next.inj ht).symm
  | engctlReservedCode code =>
    simp only [exec, execEngctlReservedCode] at ht
    split at ht
    · exact held _ ht
    · cases ht
  | registerWriteIgnored offset strobes v =>
    simp only [exec, execRegisterWriteIgnored] at ht
    split at ht
    · cases ht
    · exact (Host.Outcome.next.inj ht).symm
  | _ => exact held _ ht

/-- Settles O3: no command's row holds the queue of commands, and the guard of every other command keeps the block. -/
theorem queueAndResetHold : Obligations.QueueAndResetHold :=
  ⟨fun c s _ ht => (exec_changes c s _ ht).pending (pending_not_in_commandParts c),
   fun _ _ _ hr ht hpin hrelease hstale => exec_of_inReset hr ht hpin hrelease hstale⟩

/-! ### The command a write spells (R167, R184) -/

theorem decodeWrite_of_not_taken {offset : Nat} {strobes : BitVec 4} (h : writeTaken offset strobes = false)
    (value : Word) : decodeWrite offset strobes value = .registerWriteIgnored offset strobes value := by
  have hnot : ¬(strobes = 15#4 ∧ offset ∈ [0x00, 0x08, 0x0C, 0x10, 0x14, 0x18]) := by
    rw [← writeTaken_iff, h]
    exact Bool.false_ne_true
  unfold decodeWrite
  split
  · rfl
  · next hs =>
    have hoff : offset ∉ [0x00, 0x08, 0x0C, 0x10, 0x14, 0x18] := fun hm => hnot ⟨not_not.mp hs, hm⟩
    simp only [List.mem_cons, List.not_mem_nil, or_false, not_or] at hoff
    obtain ⟨h0, h1, h2, h3, h4, h5⟩ := hoff
    simp only [h0, h1, h2, h3, h4, h5, if_false]

theorem decodeEngctl_eq (value : Word) : decodeEngctl value =
    (match value.toNat % 16 with
      | 0 => .engctlNone
      | 1 => .run
      | 2 => .halt
      | 3 => .clear
      | n => .engctlReservedCode (BitVec.ofNat 4 n)) := by
  have hcmd : value.extractLsb' 0 4 = BitVec.ofNat 4 (value.toNat % 16) := by
    apply BitVec.eq_of_toNat_eq
    simp
  have hlt : value.toNat % 16 < 16 := Nat.mod_lt _ (by omega)
  unfold decodeEngctl
  rw [hcmd]
  generalize value.toNat % 16 = n at hlt ⊢
  interval_cases n <;> rfl

theorem decodePost_eq (value : Word) : decodePost value =
    (match value.toNat / 16 % 4 with
      | 0 => .postAdvance (Fin.ofNat 4 value.toNat) (BitVec.ofNat 12 (value.toNat / 65536))
      | 1 => .postRestart (Fin.ofNat 4 value.toNat)
      | 2 => .postFlush (Fin.ofNat 4 value.toNat)
      | _ => .postReservedAction (Fin.ofNat 4 value.toNat)) := by
  have haction : value.extractLsb' 4 2 = BitVec.ofNat 2 (value.toNat / 16 % 4) := by
    apply BitVec.eq_of_toNat_eq
    simp [Nat.shiftRight_eq_div_pow]
  have hqueue : (value.extractLsb' 0 2).toFin = Fin.ofNat 4 value.toNat := by
    apply Fin.ext
    simp
  have hindex : value.extractLsb' 16 12 = BitVec.ofNat 12 (value.toNat / 65536) := by
    apply BitVec.eq_of_toNat_eq
    simp [Nat.shiftRight_eq_div_pow]
  have hlt : value.toNat / 16 % 4 < 4 := Nat.mod_lt _ (by omega)
  unfold decodePost
  rw [haction, hqueue, hindex]
  generalize value.toNat / 16 % 4 = n at hlt ⊢
  interval_cases n <;> rfl

/-- A code that `decodeEngctl` reserves is none of the four commands. -/
theorem wellFormed_decodeEngctl (value : Word) : wellFormed (decodeEngctl value) = true := by
  have hlt : value.toNat % 16 < 16 := Nat.mod_lt _ (by omega)
  rw [decodeEngctl_eq]
  generalize value.toNat % 16 = n at hlt ⊢
  interval_cases n <;> rfl

theorem wellFormed_decodePost (value : Word) : wellFormed (decodePost value) = true := by
  unfold decodePost
  dsimp only
  split_ifs <;> rfl

theorem wellFormed_decodeWrite (offset : Nat) (strobes : BitVec 4) (value : Word) :
    wellFormed (decodeWrite offset strobes value) = true := by
  cases hw : writeTaken offset strobes with
  | false => rw [decodeWrite_of_not_taken hw, wellFormed, hw, Bool.not_false]
  | true =>
    obtain ⟨rfl, hoff⟩ := (writeTaken_iff ..).mp hw
    simp only [List.mem_cons, List.not_mem_nil, or_false] at hoff
    obtain rfl | rfl | rfl | rfl | rfl | rfl := hoff
    · exact wellFormed_decodeEngctl value
    · rfl
    · exact wellFormed_decodePost value
    · rfl
    · rfl
    · rfl

/-- Settles O4: by offset, and for ENGCTL and POST by the numbers in the fields CMD, QUEUE, ACTION and INDEX. -/
theorem writesDecode : Obligations.WritesDecode := by
  refine ⟨writeTaken_iff, wellFormed_decodeWrite, fun offset strobes value hs => ?strobes,
    fun offset value hw => decodeWrite_of_not_taken hw value, decodeEngctl_eq, fun value => rfl, decodePost_eq,
    fun value => ?cqhead, fun value => rfl, fun value => rfl⟩
  case strobes => exact if_pos hs
  case cqhead =>
    refine congrArg Instr.cqheadWrite (BitVec.eq_of_toNat_eq ?_)
    simp

end Sys2Proof.Machine
end

section
/-! SUPPORT. The block after a pin reset: its values and its laws; CLEAR, the accesses it leaves outstanding, and the
answers that are thrown away (R181, R182). -/

namespace Sys2Proof.Machine

open Sys2Proof

/-! ### The tables after a pin reset -/

@[simp] theorem queue_reset (q : Fin 4) : State.reset.queue q = QueueRec.reset := by
  simp [State.queue, State.reset]

@[simp] theorem stream_reset (n : Fin 48) : State.reset.stream n = StreamRec.free := by
  simp [State.stream, State.reset]

@[simp] theorem entry_reset (e : Fin 8) : State.reset.entry e = Entry.free := by
  simp [State.entry, State.reset, Cache.reset]

@[simp] theorem context_reset (c : Fin 32) : State.reset.context c = Context.unbound := by
  simp [State.context, State.reset]

@[simp] theorem port_reset (p : PortId) : State.reset.port p = PortRec.reset := by
  cases p <;> rfl

@[simp] theorem slot_reset (j : Fin 32) : PortRec.reset.slot j = Slot.free := by
  simp [PortRec.slot, PortRec.reset]

@[simp] theorem txhold_reset (j : Fin 32) : PortRec.reset.txhold[j.val] = none := by
  simp [PortRec.reset]

/-- Settles O5: each table by its own lemma, every other value as `State.reset` writes it. -/
theorem resetValues : Obligations.ResetValues :=
  ⟨rfl, rfl, rfl, rfl, rfl, fun _ => rfl, rfl, queue_reset, rfl, rfl, rfl, rfl, rfl, rfl, rfl, stream_reset, rfl,
    entry_reset, rfl, rfl, rfl, rfl, context_reset, rfl, rfl, fun p => by rw [port_reset]; exact ⟨rfl, rfl⟩, rfl, rfl,
    rfl, rfl, rfl, rfl⟩

/-! ### The laws after a pin reset -/

theorem headsSound_reset : HeadsSound State.reset where
  wait := ⟨List.nodup_nil, fun e he => absurd he (List.not_mem_nil)⟩
  discard := fun q h => by rw [queue_reset] at h; cases h
  oneJob := fun q r h => by rw [queue_reset] at h; cases h
  running := fun q => by
    rw [queue_reset]
    exact ⟨fun h => (by cases h), fun h => absurd rfl h.1⟩
  executing := fun q => by
    rw [queue_reset]
    exact ⟨fun h => (by cases h), fun h => by cases h⟩
  abort := trivial
  rest := fun _ => ⟨rfl, fun q => by rw [queue_reset]; rfl⟩
  ring := ⟨⟨rfl, rfl⟩, rfl, Nat.le_refl 0⟩

theorem engineSound_reset : EngineSound State.reset where
  setup := ⟨fun h => (by cases h), fun h => by cases h⟩
  faulted := fun h => by cases h
  rest := fun _ => rfl
  writing := ⟨fun _ => rfl, fun _ => rfl⟩
  timer := fun h => by cases h
  faultIdx := Nat.zero_le 4

theorem ringsSound_reset : RingsSound State.reset where
  fits := fun n h => by rw [stream_reset] at h; cases h
  apart := fun n m _ h => by rw [stream_reset] at h; cases h
  held := fun q => by rw [queue_reset]; trivial

theorem portSound_reset : PortSound PortRec.reset where
  off := ⟨fun _ => rfl, fun _ => rfl⟩
  master := fun h => by cases h
  slots := Or.inl rfl
  bitpos := fun h => by cases h
  silent := fun _ j => ⟨txhold_reset j, by rw [slot_reset]; rfl⟩
  unused := fun j _ => ⟨slot_reset j, txhold_reset j⟩
  candidate := fun c h => by cases h
  opening := fun h => by cases h
  due := trivial

theorem cacheSound_reset : CacheSound State.reset where
  distinct := fun e f he => by rw [entry_reset] at he; exact absurd rfl he
  requests := ⟨List.nodup_nil, List.nodup_nil, fun r hr => absurd hr (List.not_mem_nil)⟩
  filling := fun e => by
    rw [entry_reset]
    exact ⟨fun h => (by cases h), fun h => by cases h⟩
  fillAddr := fun f h => by cases h
  lru := ⟨List.nodup_nil, fun e => by
    rw [entry_reset]
    exact ⟨fun h => absurd h (List.not_mem_nil), fun h => by cases h.1⟩⟩
  empty := fun e _ => entry_reset e
  pinned := fun e h => by rw [entry_reset] at h; cases h
  held := fun e => by
    rw [entry_reset]
    exact ⟨fun h => (by cases h), fun ⟨q, hq, _⟩ => by rw [queue_reset] at hq; cases hq⟩
  holder := fun q e h => by rw [queue_reset] at h; cases h
  stale := fun e h => by rw [entry_reset] at h; cases h
  waitersOnce := List.nodup_nil
  waitFill := fun f h => by cases h
  waitReq := fun r hr => absurd hr (List.not_mem_nil)
  pins := by
    have hcount : pinCount State.reset = 0 := rfl
    rw [hcount]
    exact Nat.zero_le _

theorem dataSound_reset : DataSound State.reset := fun q => by rw [queue_reset]; trivial

theorem contextsSound_reset : ContextsSound State.reset where
  held := fun c => by
    rw [context_reset]
    exact ⟨fun h => (by cases h), fun ⟨q, hq, _⟩ => by rw [queue_reset] at hq; cases hq⟩
  unbound := fun c _ => by rw [context_reset]; rfl
  chained := fun q h => by rw [queue_reset] at h; cases h

theorem bindingsSound_reset : BindingsSound State.reset where
  slots := fun p j => by rw [port_reset, slot_reset]; trivial
  mirrored := fun p j dir n ph => by
    rw [port_reset, slot_reset, stream_reset]
    cases dir <;> exact ⟨fun h => (by cases h), fun h => by cases h⟩
  kinds := fun n dir h => by rw [stream_reset] at h; cases dir <;> cases h
  rest := fun _ => ⟨rfl, rfl⟩

theorem streamsSound_reset : StreamsSound State.reset where
  account := fun n h => by rw [stream_reset] at h; cases h
  free := fun n _ => stream_reset n
  claimed := fun n => by
    rw [stream_reset]
    exact ⟨fun h => (by cases h), fun ⟨q, hq, _⟩ => by rw [queue_reset] at hq; cases hq⟩
  stands := fun q => by rw [queue_reset]; trivial
  snapshot := trivial

/-- Settles O6: each law holds of the reset values of its block. -/
theorem resetSound : Obligations.ResetSound :=
  ⟨rfl, headsSound_reset, engineSound_reset, ringsSound_reset, ⟨portSound_reset, portSound_reset⟩, cacheSound_reset,
    dataSound_reset, contextsSound_reset, rfl, bindingsSound_reset, streamsSound_reset⟩

/-! ### The accesses outstanding (R181) -/

theorem bufOpen_eq (b : ReadBuf) : bufOpen b = (b.cells.filter (fun c => decide (c = none))).length := by
  unfold bufOpen
  congr 1
  refine List.filter_congr fun c _ => ?_
  cases c <;> simp

theorem mem_setupAccesses_iff (s : State) (a : Access) : a ∈ setupAccesses s ↔
    ∃ b n, s.eng.setup = some b ∧ n = (b.cells.filter (fun c => decide (c = none))).length ∧ n ≠ 0 ∧
      a = ⟨.setup, s.eng.setupAdr.toNat, n⟩ := by
  unfold setupAccesses
  cases hs : s.eng.setup with
  | none => simp
  | some b =>
    by_cases hb : bufOpen b = 0
    · simp [hb, ← bufOpen_eq]
    · simp [hb, ← bufOpen_eq]

theorem mem_fetchAccesses_iff (s : State) (a : Access) : a ∈ queueIds.filterMap (fetchAccess s) ↔
    ∃ q pos, (s.queue q).head = .fetching pos ∧ a = ⟨.headFetch q, (s.queue q).base.toNat + 64 * pos, 64⟩ := by
  have hall : ∀ q : Fin 4, q ∈ queueIds := fun q => by fin_cases q <;> simp [queueIds]
  simp only [List.mem_filterMap, hall, true_and]
  refine exists_congr fun q => ?_
  unfold fetchAccess
  cases (s.queue q).head <;> simp [recordAddr, eq_comm]

theorem mem_fillAccesses_iff (s : State) (a : Access) : a ∈ fillAccesses s ↔
    ∃ f n, s.cache.fill = some f ∧ n = (f.buf.cells.filter (fun c => decide (c = none))).length ∧ n ≠ 0 ∧
      a = ⟨.fill, fillPartAddr f, n⟩ := by
  unfold fillAccesses
  cases hs : s.cache.fill with
  | none => simp
  | some f =>
    by_cases hb : bufOpen f.buf = 0
    · simp [hb, ← bufOpen_eq]
    · simp [hb, ← bufOpen_eq]

theorem mem_snapshotAccesses_iff (s : State) (a : Access) : a ∈ snapshotAccesses s ↔
    ∃ q n addr rearm bytes, s.cu.work = some (.snapshot q n addr rearm bytes) ∧
      a = ⟨.snapshot, addr.toNat, bytes.length⟩ := by
  unfold snapshotAccesses
  split
  · next q n addr rearm bytes hw => simp [hw]
  · next hw =>
    simp only [List.not_mem_nil, false_iff]
    rintro ⟨q, n, addr, rearm, bytes, hw', -⟩
    exact hw _ _ _ _ _ hw'

theorem mem_cqAccesses_iff (s : State) (a : Access) : a ∈ cqAccesses s ↔
    ∃ r rest entry, s.cq.wrlist = r :: rest ∧ entry = s.cq.base.toNat + 32 * (r.idx % s.cq.size) ∧
      (s.cq.wr = .body ∧ a = ⟨.cqWrite, entry, 31⟩ ∨ s.cq.wr = .phase ∧ a = ⟨.cqWrite, entry + 31, 1⟩) := by
  unfold cqAccesses
  cases hl : s.cq.wrlist with
  | nil => cases s.cq.wr <;> simp
  | cons r rest => cases s.cq.wr <;> simp [cqAddr, and_assoc]

theorem mem_outstandingAccesses_iff (s : State) (a : Access) : a ∈ outstandingAccesses s ↔
    a ∈ setupAccesses s ∨ a ∈ queueIds.filterMap (fetchAccess s) ∨ a ∈ fillAccesses s ∨
    (∃ r ∈ s.dp.reads, a = ⟨.dpRead, r.addr, 2 * r.words⟩) ∨
    (∃ w ∈ s.dp.writes, a = ⟨.dpWrite, w.addr, 2 * w.data.length⟩) ∨ a ∈ snapshotAccesses s ∨ a ∈ cqAccesses s := by
  simp only [outstandingAccesses, List.mem_append, List.mem_map, or_assoc, eq_comm (a := a)]

/-! ### CLEAR, the pin reset and stale answers -/

/-- Settles O33: the outstanding accesses block by block, and the accepted CLEAR. -/
theorem clearResets : Obligations.ClearResets := by
  refine ⟨fun s a => ?accesses, fun s ha hst => ?clear⟩
  case accesses =>
    rw [mem_outstandingAccesses_iff, mem_setupAccesses_iff, mem_fetchAccesses_iff, mem_fillAccesses_iff,
      mem_snapshotAccesses_iff, mem_cqAccesses_iff]
    exact Iff.rfl
  case clear => exact exec_clear_of_accepted ha hst

theorem staleAfter_of_answered {l : List Access} {k n : Nat} {a : Access} (hk : l[k]? = some a) (hn : a.bytes ≤ n) :
    staleAfter l k n = l.eraseIdx k := by
  induction l generalizing k with
  | nil => cases hk
  | cons x rest ih =>
    cases k with
    | zero =>
      obtain rfl : x = a := Option.some.inj hk
      simp [staleAfter, hn]
    | succ k => simp [staleAfter, ih (by simpa using hk)]

theorem staleAfter_of_partial {l : List Access} {k n : Nat} {a : Access} (hk : l[k]? = some a) (hn : n < a.bytes) :
    staleAfter l k n = l.set k { a with bytes := a.bytes - n } := by
  induction l generalizing k with
  | nil => cases hk
  | cons x rest ih =>
    cases k with
    | zero =>
      obtain rfl : x = a := Option.some.inj hk
      simp [staleAfter, Nat.not_le.mpr hn]
    | succ k => simp [staleAfter, ih (by simpa using hk)]

/-- Settles O34: the reset and its release as the model writes them, the stale answers by induction on their list. -/
theorem pinResetAndRelease : Obligations.PinResetAndRelease := by
  refine ⟨fun s => rfl, fun s => rfl, fun s k n a hk hn => ?answered, fun s k n a hk hn => ?shortened⟩
  case answered => simp only [exec, execStaleAnswerDiscard, staleAfter_of_answered hk hn]
  case shortened => simp only [exec, execStaleAnswerDiscard, staleAfter_of_partial hk hn]

end Sys2Proof.Machine
end

section
/-! SUPPORT. Asking for a record, handing a completion over, events, the wait list, and the writes of completion records
(R37 to R39, R45, R154 to R163). -/

namespace Sys2Proof.Machine

open Sys2Proof

/-! ### Asking for a record (R37, R38) -/

theorem eligible_iff (s : State) (q : Fin 4) : eligible s q = true ↔ s.eng.st = .running ∧ (s.queue q).state = .active ∧
    (s.queue q).prod ≠ (s.queue q).cons ∧ (s.queue q).head = .empty ∧ (s.queue q).flushPend = false := by
  simp [eligible, and_assoc]

theorem listed_iff (s : State) (q : Fin 4) : listed s q = true ↔ ∃ e ∈ s.waitList, e.1 = q := by
  simp [listed]

theorem listed_eq_false_iff (s : State) (q : Fin 4) : listed s q = false ↔ ∀ e ∈ s.waitList, e.1 ≠ q := by
  rw [Bool.eq_false_iff, ne_eq, listed_iff]
  exact ⟨fun h e he heq => h ⟨e, he, heq⟩, fun h ⟨e, he, heq⟩ => h e he heq⟩

theorem askIfEligible_of_listed {s : State} {q : Fin 4} (hl : listed s q = true) : askIfEligible q s = s := by
  simp [askIfEligible, hl]

theorem askIfEligible_of_eligible {s : State} {q : Fin 4} (he : eligible s q = true) (hl : listed s q = false) :
    askIfEligible q s = askFetch q s := by
  simp [askIfEligible, he, hl]

theorem askFetch_of_free {s : State} (q : Fin 4) (hf : freeCount s.cq ≠ 0) : askFetch q s = issueFetch q s := if_neg hf

theorem askFetch_of_full {s : State} (q : Fin 4) (hf : freeCount s.cq = 0) :
    askFetch q s = { s with waitList := s.waitList ++ [(q, .fetch)] } := if_pos hf

/-- Settles O22: eligibility term by term, then both outcomes of asking. -/
theorem eligibleQueueAsks : Obligations.EligibleQueueAsks := by
  refine ⟨eligible_iff, ?_⟩
  rintro q s r rfl
  refine ⟨fun hnot => ?silent, fun hrun hact hne hhead hflush hlist => ?asks⟩
  case silent =>
    by_cases hl : listed s q = true
    · exact askIfEligible_of_listed hl
    · refine askIfEligible_of_not_eligible (Bool.eq_false_iff.mpr fun he => ?_)
      rw [eligible_iff] at he
      rw [listed_iff] at hl
      obtain ⟨hrun, hact, hne, hhead, hflush⟩ := he
      simp [hrun, hact, hne, hhead, hflush] at hnot
      obtain ⟨p, hp⟩ := hnot
      exact hl ⟨(q, p), hp, rfl⟩
  case asks =>
    have he := (eligible_iff s q).mpr ⟨hrun, hact, hne, hhead, hflush⟩
    have hask := askIfEligible_of_eligible he ((listed_eq_false_iff s q).mpr hlist)
    refine ⟨fun hf => ?_, fun hf => ?_⟩
    · rw [hask, askFetch_of_free q hf]
      rfl
    · rw [hask, askFetch_of_full q hf]

/-! ### A flush against a reservation of its own (R35, R36) -/

/-- Without a record that counts, a flush posts the queue's count and leaves the head as it is (R35). -/
theorem flushEffect_of_no_record {s : State} {q : Fin 4}
    (h : (s.queue q).head = .empty ∨ (∃ pos, (s.queue q).head = .fetching pos) ∧ (s.queue q).discard = true) :
    flushEffect q s = { s with cq := cqPostReserved s.cq { cqZero with
        status := .queueFlushed, queue := q, count := qCount (s.queue q) } }.setQueue q
      { s.queue q with cons := (s.queue q).prod, flushPend := false } := by
  have hskip : skippedCount (s.queue q) = qCount (s.queue q) := by
    obtain hh | ⟨⟨pos, hh⟩, hd⟩ := h
    · simp [skippedCount, headCounted, hh, bit]
    · simp [skippedCount, headCounted, hh, hd, bit]
  have hqueue : flushedQueue (s.queue q) = { s.queue q with cons := (s.queue q).prod, flushPend := false } := by
    obtain hh | ⟨⟨pos, hh⟩, hd⟩ := h
    · simp only [flushedQueue, hh]
    · simp only [flushedQueue, hh]
      rw [← hd]
  unfold flushEffect
  dsimp only
  rw [hskip, hqueue]
  rfl

/-- A flush granted a reservation at once takes effect and gives it back with its posting (R36). -/
theorem flushOwn_of_free {s : State} {q : Fin 4} (hhead : (s.queue q).head = .empty) (hf : freeCount s.cq ≠ 0) :
    flushOwn q s = { s with
        waitList := s.waitList.filter (fun e => e.1 != q)
        cq := { cqPost s.cq { cqZero with status := .queueFlushed, queue := q, count := qCount (s.queue q) } with
          resv := s.cq.resv } }.setQueue q
      { s.queue q with cons := (s.queue q).prod, flushPend := false } := by
  rw [flushOwn, if_neg hf, flushEffect_of_no_record (.inl (by exact hhead))]
  rfl

theorem listForFlush_of_not_listed {s : State} {q : Fin 4} (hl : listed s q = false) :
    listForFlush q s = { s with waitList := s.waitList ++ [(q, .flush)] } := by
  simp [listForFlush, hl]

theorem flushOwn_of_full {s : State} {q : Fin 4} (hpend : (s.queue q).flushPend = true) (hf : freeCount s.cq = 0)
    (hl : listed s q = false) : flushOwn q s = { s with waitList := s.waitList ++ [(q, .flush)] } := by
  have hsame : s.setQueue q { s.queue q with flushPend := true } = s := by
    rw [← hpend]
    exact State.setQueue_queue s q
  rw [flushOwn, if_pos hf, hsame, listForFlush_of_not_listed hl]

/-! ### Handing a completion over (R45, R50, R154) -/

theorem completeHead_of_faulted {s : State} (q : Fin 4) (r : CqRec) (hf : s.eng.st = .faulted) :
    completeHead q r s = (unreserve s).setHead q .empty := by
  simp [completeHead, posts, hf]

theorem completeHead_of_posting {s : State} (q : Fin 4) (r : CqRec) (hf : s.eng.st ≠ .faulted) :
    completeHead q r s = afterEmpty q ({ s with cq := cqPostReserved s.cq r }.setHead q .empty) := by
  simp [completeHead, posts, hf]

/-- Settles O23: FAULTED against the other states, then a pending flush with and without a free entry, or the next record. -/
theorem completingAHead : Obligations.CompletingAHead := by
  refine fun q r s => ⟨fun hf => ?faulted, ?posting⟩
  case faulted => exact completeHead_of_faulted q r hf
  case posting =>
    rintro hf u rfl
    have hdone := completeHead_of_posting q r hf
    have hhead : (({ s with cq := cqPostReserved s.cq r }.setHead q .empty).queue q).head = .empty := by
      rw [State.queue_setHead_self]
    refine ⟨fun hflush => ?ask, fun hflush hfree => ?flush, fun hflush hfull hlist => ?wait⟩
    case ask => rw [hdone, afterEmpty, if_neg (by rw [State.setHead]; exact Bool.eq_false_iff.mp hflush)]; rfl
    case flush =>
      rw [hdone, afterEmpty, if_pos (by exact hflush)]
      exact flushOwn_of_free hhead hfree
    case wait =>
      rw [hdone, afterEmpty, if_pos (by exact hflush)]
      exact flushOwn_of_full hflush hfull ((listed_eq_false_iff _ q).mpr hlist)

/-! ### Posting (R151, R154) -/

/-- Settles O21: both forms of posting field by field, with the writer's state. -/
theorem postingACompletion : Obligations.PostingACompletion := by
  refine fun c r => ⟨?_, rfl, rfl, rfl⟩
  cases hw : c.wr <;> simp [cqPostReserved, cqPost, cqPass, hw]

/-! ### Events (R159, R160) -/

theorem live_iff (s : State) : live s = true ↔ s.eng.st = .running ∨ s.eng.st = .draining ∨ s.eng.st = .halted := by
  simp [live, or_assoc]

theorem raiseEvent_of_not_live {s : State} (h : live s = false) (kind : EvKind) (subject : Nat) (reason : EvReason) :
    raiseEvent s kind subject reason = s := by
  simp [raiseEvent, h]

/-- An event handed to a live writer is posted after the SUMMARY that is owed, or folded. -/
theorem raiseEvent_of_live {s : State} (h : live s = true) (kind : EvKind) (subject : Nat) (reason : EvReason) :
    raiseEvent s kind subject reason =
      if freeCount (postSummary s).cq = 0 then foldEvent (postSummary s) kind
      else { postSummary s with cq := cqPost (postSummary s).cq (eventRec (postSummary s) kind subject reason) } := by
  simp [raiseEvent, h]

/-- Settles O25: by the engine state, the free count and whether a SUMMARY is owed. -/
theorem eventRule : Obligations.EventRule := by
  refine ⟨fun f => ⟨rfl, rfl, rfl, rfl⟩, live_iff, fun s kind subject reason => ⟨fun hf => ?faulted, fun hl hfull => ?folded,
    fun hl hfree hnone => ?posted, fun hl hfree howed => ?summary⟩⟩
  case faulted =>
    have hdead : live s = false := by simp [live, hf]
    exact raiseEvent_of_not_live hdead ..
  case folded =>
    rw [raiseEvent_of_live hl, postSummary_of_none_owed_or_full (.inr hfull), if_pos hfull]
    rfl
  case posted =>
    rw [raiseEvent_of_live hl, postSummary_of_none_owed_or_full (.inl hnone), if_neg hfree]
    rfl
  case summary =>
    have hsum := postSummary_of_owed howed hfree
    rw [raiseEvent_of_live hl, hsum, raiseEvent_of_live (by exact hl), postSummary_of_none_owed_or_full (.inl rfl)]
    rfl

/-! ### The wait list (R38) -/

theorem serveEntries_of_not_served {s : State} {q : Fin 4} {p : Purpose} (rest : List (Fin 4 × Purpose))
    (hp : purposeServed s p = false) : serveEntries ((q, p) :: rest) s = serveEntries rest s := by
  simp [serveEntries, hp]

theorem serveEntries_of_full {s : State} {q : Fin 4} {p : Purpose} (rest : List (Fin 4 × Purpose))
    (hp : purposeServed s p = true) (hf : freeCount s.cq = 0) : serveEntries ((q, p) :: rest) s = s := by
  simp [serveEntries, hp, hf]

theorem serveEntries_fetch {s : State} {q : Fin 4} (rest : List (Fin 4 × Purpose))
    (hp : purposeServed s .fetch = true) (hf : freeCount s.cq ≠ 0) :
    serveEntries ((q, .fetch) :: rest) s = serveEntries rest (issueFetch q (unlist s q)) := by
  simp [serveEntries, hp, hf]

theorem serveEntries_flush {s : State} {q : Fin 4} (rest : List (Fin 4 × Purpose))
    (hp : purposeServed s .flush = true) (hf : freeCount s.cq ≠ 0) :
    serveEntries ((q, .flush) :: rest) s = serveEntries rest (flushEffect q (reserve (unlist s q))) := by
  simp [serveEntries, hp, hf]

/-- Settles O27: the recursion of `serveEntries` by the purpose of its first entry. -/
theorem waitListServedInOrder : Obligations.WaitListServedInOrder := by
  refine fun q rest s => ⟨rfl, rfl, fun hrun => ?passed, fun hl hfull => serveEntries_of_full rest hl hfull,
    fun hrun hfull => ?full, fun hrun hfree => ?fetch, fun hl hfree => serveEntries_flush rest hl hfree, ?effect⟩
  case passed => exact serveEntries_of_not_served rest (by simp [purposeServed, hrun])
  case full => exact serveEntries_of_full rest (by simp [purposeServed, hrun]) hfull
  case fetch => exact serveEntries_fetch rest (by simp [purposeServed, hrun]) hfree
  case effect =>
    rintro r rfl h
    exact flushEffect_of_no_record h

/-! ### Written records and coalescing (R155, R161 to R163) -/

theorem exec_phaseWriteAnswer {s : State} (ha : awake s) (hw : s.cq.wr = .phase) :
    exec .phaseWriteAnswer s = .next (recordWritten s) := by
  simp only [exec, execPhaseWriteAnswer, taken_eq ha, if_pos hw]

theorem recordWritten_eq {s : State} {r : CqRec} {rest : List CqRec} (hl : s.cq.wrlist = r :: rest) :
    recordWritten s =
      countWritten { s with cq := { s.cq with wrlist := rest, wr := if rest = [] then .idle else .body } } r.irqNow := by
  simp only [recordWritten, hl, List.isEmpty_iff]

theorem countWritten_of_report {s : State} {now : Bool} (h : now = true ∨ s.cq.ccount + 1 = s.cq.cthresh) :
    countWritten s now = reportCompletions s := by
  rw [countWritten, if_pos (by simpa using h)]

theorem countWritten_of_counted {s : State} (h : s.cq.ccount + 1 ≠ s.cq.cthresh) :
    countWritten s false = { s with cq := { s.cq with
      ccount := s.cq.ccount + 1
      ctimer := if s.cq.ccount = 0 ∧ s.cq.cdelay ≠ 0 then some s.cq.cdelay else s.cq.ctimer } } := by
  rw [countWritten, if_neg (by simpa using h)]

/-- Settles O28: a written record that reports, starts the timer or only counts, and the timer's expiry. -/
theorem coalescingRule : Obligations.CoalescingRule := by
  refine ⟨?written, fun s ha ht => ⟨fun hc => ?expiry, fun hc => ?stopped⟩⟩
  case written =>
    rintro s r rest ha hw hl u rfl
    have hexec := exec_phaseWriteAnswer ha hw
    rw [recordWritten_eq hl] at hexec
    refine ⟨fun h => ?_, fun hnow hthresh hzero hdelay => ?_, fun hnow hthresh hrun => ?_⟩
    · exact hexec.trans (congrArg Host.Outcome.next (countWritten_of_report (by exact h)))
    · rw [hnow] at hexec
      refine hexec.trans ((congrArg Host.Outcome.next (countWritten_of_counted (by exact hthresh))).trans ?_)
      simp only [hzero, hdelay, ne_eq, not_false_eq_true, and_self, if_true]
    · have hstart : ¬(s.cq.ccount = 0 ∧ s.cq.cdelay ≠ 0) := by tauto
      rw [hnow] at hexec
      refine hexec.trans ((congrArg Host.Outcome.next (countWritten_of_counted (by exact hthresh))).trans ?_)
      simp only [hstart, if_false]
  case expiry =>
    simp only [exec, execCoalescingTimerExpiry, taken_eq ha, if_pos ht, if_pos (Nat.pos_of_ne_zero hc)]
    rfl
  case stopped =>
    simp only [exec, execCoalescingTimerExpiry, taken_eq ha, if_pos ht, hc, Nat.lt_irrefl, if_false]

/-- Settles O29: both answers in the state of the writer they answer. -/
theorem completionWriteAnswers : Obligations.CompletionWriteAnswers := by
  refine ⟨fun s ha hw => ?body, fun s ha hw => ?error⟩
  case body => simp only [exec, execBodyWriteAnswer, taken_eq ha, if_pos hw]
  case error =>
    simp only [exec, execCqWriteError, taken_eq ha, if_neg hw]
    rfl

end Sys2Proof.Machine
end

section
/-! SUPPORT. The bytes of completion records and the words of the register window: little-endian fields, the layout offset
by offset, ENGSTAT bit by bit (R155, R168, R184, R188). -/

namespace Sys2Proof.Machine

open Sys2Proof

/-! ### Little-endian fields -/

/-- A 16-bit field holds the value whose two bytes stand at its offset. -/
theorem half_of_bytes {bs : List Byte} {k : Nat} {v : BitVec 16} (hlo : byteAt bs k = v.extractLsb' 0 8)
    (hhi : byteAt bs (k + 1) = v.extractLsb' 8 8) : half bs k = v := by
  rw [half, hlo, hhi]
  exact (BitVec.extractLsb'_append_extractLsb'_eq_extractLsb' rfl).trans BitVec.extractLsb'_eq_self

/-- A 32-bit field holds the value whose two halves stand at its offset. -/
theorem word_of_halves {bs : List Byte} {k : Nat} {v : Word} (hlo : half bs k = v.extractLsb' 0 16)
    (hhi : half bs (k + 2) = v.extractLsb' 16 16) : word bs k = v := by
  rw [word, hlo, hhi]
  exact (BitVec.extractLsb'_append_extractLsb'_eq_extractLsb' rfl).trans BitVec.extractLsb'_eq_self

theorem num16_of_half {bs : List Byte} {k n : Nat} (h : half bs k = BitVec.ofNat 16 n) (hn : n < 2 ^ 16) :
    num16 bs k = n := by
  rw [num16, h, BitVec.toNat_ofNat, Nat.mod_eq_of_lt hn]

theorem num16_eq (bs : List Byte) (k : Nat) : num16 bs k = num8 bs k + 256 * num8 bs (k + 1) := by
  rw [num16, half, BitVec.toNat_append, num8, num8, Nat.shiftLeft_eq]
  have hlt := (byteAt bs k).isLt
  rw [Nat.mul_comm, ← Nat.two_pow_add_eq_or_of_lt hlt]
  omega

theorem byteOf_toNat {n : Nat} (h : n < 256) : (byteOf n).toNat = n := by
  rw [byteOf, BitVec.toNat_ofNat, Nat.mod_eq_of_lt h]

/-- Four bytes side by side, in either grouping. -/
theorem append_bytes (a b c d : Byte) : (a ++ b) ++ (c ++ d) = a ++ b ++ c ++ d := by
  apply BitVec.eq_of_toNat_eq
  simp only [BitVec.toNat_append, Nat.shiftLeft_or_distrib, Nat.or_assoc, ← Nat.shiftLeft_add]

/-! ### The bytes of a record (R188) -/

/-- The bytes of a record before its DETAIL word. -/
theorem cqBytes_cons (r : CqRec) : ∃ tail, cqBytes r =
    (r.tag.extractLsb' 0 16).extractLsb' 0 8 :: (r.tag.extractLsb' 0 16).extractLsb' 8 8 ::
    (r.tag.extractLsb' 16 16).extractLsb' 0 8 :: (r.tag.extractLsb' 16 16).extractLsb' 8 8 ::
    byteOf (statusCode r.status) :: r.kind :: byteOf r.queue.val :: cqFlags r ::
    (BitVec.ofNat 16 r.count).extractLsb' 0 8 :: (BitVec.ofNat 16 r.count).extractLsb' 8 8 ::
    (BitVec.ofNat 16 r.clips).extractLsb' 0 8 :: (BitVec.ofNat 16 r.clips).extractLsb' 8 8 ::
    (BitVec.ofNat 16 r.peak).extractLsb' 0 8 :: (BitVec.ofNat 16 r.peak).extractLsb' 8 8 ::
    (BitVec.ofNat 16 r.peakIdx).extractLsb' 0 8 :: (BitVec.ofNat 16 r.peakIdx).extractLsb' 8 8 ::
    (BitVec.ofNat 16 r.overCnt).extractLsb' 0 8 :: (BitVec.ofNat 16 r.overCnt).extractLsb' 8 8 ::
    r.stampA.extractLsb' 0 8 :: r.stampA.extractLsb' 8 8 :: r.stampB.extractLsb' 0 8 :: r.stampB.extractLsb' 8 8 ::
    0 :: 0 :: tail := by
  refine ⟨detailBytes r.detail ++ [0, 0, 0, cqPhaseByte r], ?_⟩
  simp only [cqBytes, cqBody, bytes32, bytesOfHalf, bytes16, List.cons_append, List.nil_append, List.append_assoc]

theorem detailBytes_four (d : Detail) : ∃ d0 d1 d2 d3, detailBytes d = [d0, d1, d2, d3] := by
  cases d with
  | trap stage sample => exact ⟨_, _, _, _, rfl⟩
  | _ => exact ⟨_, _, _, _, rfl⟩

/-- The last eight bytes of a record: its DETAIL word, three reserved bytes and the phase byte. -/
theorem cqBytes_drop {r : CqRec} {d0 d1 d2 d3 : Byte} (hd : detailBytes r.detail = [d0, d1, d2, d3]) :
    (cqBytes r).drop 0x18 = [d0, d1, d2, d3, 0, 0, 0, cqPhaseByte r] := by
  simp only [cqBytes, cqBody, hd, bytes32, bytesOfHalf, bytes16]
  rfl

theorem byteAt_drop (bs : List Byte) (m k : Nat) : byteAt bs (m + k) = byteAt (bs.drop m) k := by
  simp [byteAt, List.getD_eq_getElem?_getD]

theorem byteAt_of_drop {bs tail : List Byte} {m : Nat} (h : bs.drop m = tail) (k : Nat) :
    byteAt bs (m + k) = byteAt tail k := by rw [byteAt_drop, h]

theorem cqFlags_toNat (r : CqRec) :
    (cqFlags r).toNat = r.chainHit.toNat + 2 * r.ctxReset.toNat + 4 * r.waited.toNat := by
  unfold cqFlags
  cases r.chainHit <;> cases r.ctxReset <;> cases r.waited <;> rfl

theorem foldSetByte_eq (f : FoldSet) :
    foldSetByte f = f.locked.toNat + 2 * f.lost.toNat + 4 * f.overrun.toNat + 8 * f.underrun.toNat := by
  simp only [foldSetByte, bit_eq_toNat]

theorem cqPhaseByte_toNat (r : CqRec) : (cqPhaseByte r).toNat = r.phase.toNat := by
  unfold cqPhaseByte
  cases r.phase <;> rfl

theorem statusCode_lt (st : Status) : statusCode st < 256 := by
  cases st <;> simp [statusCode]

theorem cqBody_length (r : CqRec) : (cqBody r).length = 31 := by
  obtain ⟨d0, d1, d2, d3, hd⟩ := detailBytes_four r.detail
  simp [cqBody, hd, bytes32, bytesOfHalf, bytes16]

/-- A byte of the DETAIL word. -/
theorem byteAt_cqBytes_detail (r : CqRec) {k : Nat} (hk : k < 4) :
    byteAt (cqBytes r) (0x18 + k) = byteAt (detailBytes r.detail) k := by
  obtain ⟨d0, d1, d2, d3, hd⟩ := detailBytes_four r.detail
  rw [byteAt_of_drop (cqBytes_drop hd), hd]
  interval_cases k <;> rfl

/-- The bytes after the DETAIL word. -/
theorem byteAt_cqBytes_tail (r : CqRec) {k : Nat} (hk : k < 4) :
    byteAt (cqBytes r) (0x1C + k) = if k = 3 then cqPhaseByte r else 0 := by
  obtain ⟨d0, d1, d2, d3, hd⟩ := detailBytes_four r.detail
  rw [show 0x1C + k = 0x18 + (4 + k) by omega, byteAt_of_drop (cqBytes_drop hd)]
  interval_cases k <;> rfl

theorem half_of_zero_bytes {bs : List Byte} {k : Nat} (hlo : byteAt bs k = 0) (hhi : byteAt bs (k + 1) = 0) :
    half bs k = 0 := by
  rw [half, hlo, hhi]
  rfl

/-! ### The DETAIL word (R188) -/

theorem detail_trap {r : CqRec} {stage sample : Nat} (hd : r.detail = .trap stage sample) (hstage : stage < 6)
    (hsample : sample < 1024) :
    num8 (cqBytes r) 0x18 = stage ∧ num8 (cqBytes r) 0x19 = 0 ∧ num16 (cqBytes r) 0x1A = sample := by
  have hbyte := fun {k : Nat} (hk : k < 4) => hd ▸ byteAt_cqBytes_detail r hk
  refine ⟨?_, ?_, num16_of_half (half_of_bytes (hbyte (k := 2) (by omega)) (hbyte (k := 3) (by omega))) (by omega)⟩
  · rw [num8, hbyte (k := 0) (by omega)]
    exact byteOf_toNat (by omega)
  · rw [num8, hbyte (k := 1) (by omega)]
    rfl

theorem detail_entry {r : CqRec} {e : Fin 8} (hd : r.detail = .entry e) :
    word (cqBytes r) 0x18 = BitVec.ofNat 32 e.val := by
  have hbyte := fun {k : Nat} (hk : k < 4) => hd ▸ byteAt_cqBytes_detail r hk
  rw [word, half, half, hbyte (k := 0) (by omega), hbyte (k := 1) (by omega), hbyte (k := 2) (by omega),
    hbyte (k := 3) (by omega)]
  fin_cases e <;> rfl

theorem evKindCode_lt (kind : EvKind) : evKindCode kind < 256 := by cases kind <;> simp [evKindCode]

theorem evReasonCode_lt (reason : EvReason) : evReasonCode reason < 256 := by cases reason <;> simp [evReasonCode]

theorem detail_event {r : CqRec} {kind : EvKind} {subject : Nat} {reason : EvReason}
    (hd : r.detail = .event kind subject reason) (hsubject : subject < 48) :
    num8 (cqBytes r) 0x18 = evKindCode kind ∧ num8 (cqBytes r) 0x19 = subject ∧
    num8 (cqBytes r) 0x1A = evReasonCode reason ∧ num8 (cqBytes r) 0x1B = 0 := by
  have hbyte := fun {k : Nat} (hk : k < 4) => hd ▸ byteAt_cqBytes_detail r hk
  refine ⟨?_, ?_, ?_, ?_⟩
  · rw [num8, hbyte (k := 0) (by omega)]
    exact byteOf_toNat (evKindCode_lt kind)
  · rw [num8, hbyte (k := 1) (by omega)]
    exact byteOf_toNat (by omega)
  · rw [num8, hbyte (k := 2) (by omega)]
    exact byteOf_toNat (evReasonCode_lt reason)
  · rw [num8, hbyte (k := 3) (by omega)]
    rfl

theorem detail_summary {r : CqRec} {set : FoldSet} (hd : r.detail = .summary set) :
    num8 (cqBytes r) 0x18 = 4 ∧ num8 (cqBytes r) 0x19 = 0xFF ∧ num8 (cqBytes r) 0x1A = 0 ∧
    num8 (cqBytes r) 0x1B = set.locked.toNat + 2 * set.lost.toNat + 4 * set.overrun.toNat + 8 * set.underrun.toNat := by
  have hbyte := fun {k : Nat} (hk : k < 4) => hd ▸ byteAt_cqBytes_detail r hk
  refine ⟨?_, ?_, ?_, ?_⟩
  · rw [num8, hbyte (k := 0) (by omega)]
    rfl
  · rw [num8, hbyte (k := 1) (by omega)]
    rfl
  · rw [num8, hbyte (k := 2) (by omega)]
    rfl
  · rw [num8, hbyte (k := 3) (by omega), ← foldSetByte_eq]
    refine byteOf_toNat ?_
    rw [foldSetByte_eq]
    have := Bool.toNat_le set.locked
    have := Bool.toNat_le set.lost
    have := Bool.toNat_le set.overrun
    have := Bool.toNat_le set.underrun
    omega

theorem detail_none {r : CqRec} (hd : r.detail = .none) : word (cqBytes r) 0x18 = 0 := by
  have hbyte := fun {k : Nat} (hk : k < 4) => hd ▸ byteAt_cqBytes_detail r hk
  rw [word, half, half, hbyte (k := 0) (by omega), hbyte (k := 1) (by omega), hbyte (k := 2) (by omega),
    hbyte (k := 3) (by omega)]
  rfl

/-- Settles O24: the codes and the two completions as written, then the record field by field. -/
theorem completionLayout : Obligations.CompletionLayout := by
  refine ⟨rfl, rfl, rfl, fun bs k => ⟨List.getD_eq_getElem?_getD .., rfl, ?word, rfl, num16_eq bs k⟩, rfl,
    fun s => ⟨rfl, rfl⟩, fun s q h st => rfl, fun r hcount hclips hpeak hpeakIdx hover => ?record⟩
  case word => exact append_bytes ..
  case record =>
    obtain ⟨tail, htail⟩ := cqBytes_cons r
    have hat (k : Nat) : byteAt (cqBytes r) k = _ := congrArg (byteAt · k) htail
    have num {k n : Nat} (hbyte : byteAt (cqBytes r) k = byteOf n) (hn : n < 256) : num8 (cqBytes r) k = n := by
      rw [num8, hbyte, byteOf_toNat hn]
    refine ⟨by simp [cqBytes, cqBody_length], rfl, cqBody_length r,
      word_of_halves (half_of_bytes (hat 0) (hat 1)) (half_of_bytes (hat 2) (hat 3)),
      num (hat 4) (statusCode_lt r.status), hat 5, num (hat 6) (by omega),
      (congrArg BitVec.toNat (hat 7)).trans (cqFlags_toNat r), num16_of_half (half_of_bytes (hat 8) (hat 9)) hcount,
      num16_of_half (half_of_bytes (hat 10) (hat 11)) hclips, num16_of_half (half_of_bytes (hat 12) (hat 13)) hpeak,
      num16_of_half (half_of_bytes (hat 14) (hat 15)) hpeakIdx, num16_of_half (half_of_bytes (hat 16) (hat 17)) hover,
      half_of_bytes (hat 18) (hat 19), half_of_bytes (hat 20) (hat 21), half_of_zero_bytes (hat 22) (hat 23),
      fun stage sample => detail_trap, fun e => detail_entry,
      fun kind subject reason => detail_event, fun set => detail_summary, detail_none,
      byteAt_cqBytes_tail r (k := 0) (by omega),
      half_of_zero_bytes (byteAt_cqBytes_tail r (k := 1) (by omega)) (byteAt_cqBytes_tail r (k := 2) (by omega)), ?_⟩
    rw [num8, byteAt_cqBytes_tail r (k := 3) (by omega), if_pos rfl]
    exact cqPhaseByte_toNat r

/-! ### The register window's read view (R168, R184) -/

/-- The number a read of ENGSTAT returns. -/
def engStatNum (e : Engine) : Nat :=
  engStateCode e.st + faultCode e.fault * 2 ^ 8 + e.faultIdx * 2 ^ 12 + bit e.refused * 2 ^ 16
    + errSrcCode e.errSrc * 2 ^ 24 + e.errQ.val * 2 ^ 28

theorem engStateCode_le (st : EngState) : engStateCode st ≤ 5 := by cases st <;> simp [engStateCode]

theorem faultCode_le (f : FaultCode) : faultCode f ≤ 14 := by cases f <;> simp [faultCode]

theorem errSrcCode_le (x : ErrSrc) : errSrcCode x ≤ 2 := by cases x <;> simp [errSrcCode]

theorem bit_le (b : Bool) : bit b ≤ 1 := by cases b <;> simp [bit]

/-- The reserved bits of ENGSTAT are 0. -/
theorem engStatNum_reserved {e : Engine} (hidx : e.faultIdx ≤ 4) {k : Nat}
    (hk : k ∈ [3, 4, 5, 6, 7, 15, 17, 18, 19, 20, 21, 22, 23, 26, 27, 30, 31]) : (engStatNum e).testBit k = false := by
  have hst := engStateCode_le e.st
  have hfault := faultCode_le e.fault
  have hsrc := errSrcCode_le e.errSrc
  have hrefused := bit_le e.refused
  have hq := e.errQ.isLt
  rw [Nat.testBit_eq_decide_div_mod_eq, decide_eq_false_iff_not, engStatNum]
  simp only [List.mem_cons, List.not_mem_nil, or_false] at hk
  rcases hk with rfl | rfl | rfl | rfl | rfl | rfl | rfl | rfl | rfl | rfl | rfl | rfl | rfl | rfl | rfl | rfl | rfl <;> omega

theorem engStat_eq (e : Engine) : engStat e = BitVec.ofNat 32 (engStatNum e) := by
  rw [engStat, engStatNum]

theorem engStat_extract (e : Engine) (start len : Nat) :
    ((engStat e).extractLsb' start len).toNat = engStatNum e % 2 ^ 32 / 2 ^ start % 2 ^ len := by
  rw [engStat_eq, BitVec.extractLsb'_toNat, Nat.shiftRight_eq_div_pow, BitVec.toNat_ofNat]

/-- The mask of the reserved bits has no other bit. -/
theorem mem_reserved_of_mask {k : Nat} (hk : (0xCCFE80F8#32).getLsbD k = true) :
    k ∈ [3, 4, 5, 6, 7, 15, 17, 18, 19, 20, 21, 22, 23, 26, 27, 30, 31] := by
  have hlt : k < 32 := BitVec.lt_of_getLsbD hk
  interval_cases k <;> simp at hk ⊢

theorem engStat_mask {e : Engine} (hidx : e.faultIdx ≤ 4) : engStat e &&& 0xCCFE80F8#32 = 0#32 := by
  refine BitVec.eq_of_getLsbD_eq fun k hk => ?_
  rw [BitVec.getLsbD_and, BitVec.getLsbD_zero, Bool.and_eq_false_iff]
  cases hm : (0xCCFE80F8#32).getLsbD k with
  | false => exact .inr rfl
  | true =>
    refine .inl ?_
    rw [engStat_eq, BitVec.getLsbD_ofNat, engStatNum_reserved hidx (mem_reserved_of_mask hm), Bool.and_false]

theorem readRegister_of_no_register {s : State} {offset : Nat} (h : offset ∉ [0x04, 0x08, 0x10, 0x14, 0x18]) :
    readRegister s offset = 0 := by
  simp only [List.mem_cons, List.not_mem_nil, or_false, not_or] at h
  obtain ⟨h0, h1, h2, h3, h4⟩ := h
  simp [readRegister, h0, h1, h2, h3, h4]

theorem readRegister_irqPend (s : State) : readRegister s 0x14 =
    BitVec.ofNat 32 (s.irqPend.completion.toNat + 2 * s.irqPend.engine.toNat + 4 * s.irqPend.indexError.toNat) := by
  simp only [← bit_eq_toNat]
  rfl

/-- A read of ENGSTAT gives each field in its bits (10.1). -/
theorem engStat_fields {e : Engine} (hidx : e.faultIdx ≤ 4) :
    ((engStat e).extractLsb' 0 3).toNat = engStateCode e.st ∧ ((engStat e).extractLsb' 8 4).toNat = faultCode e.fault ∧
    ((engStat e).extractLsb' 12 3).toNat = e.faultIdx ∧ ((engStat e).extractLsb' 16 1).toNat = bit e.refused ∧
    ((engStat e).extractLsb' 24 2).toNat = errSrcCode e.errSrc ∧ ((engStat e).extractLsb' 28 2).toNat = e.errQ.val := by
  have hst := engStateCode_le e.st
  have hfault := faultCode_le e.fault
  have hsrc := errSrcCode_le e.errSrc
  have hrefused := bit_le e.refused
  have hq := e.errQ.isLt
  simp only [engStat_extract, engStatNum]
  refine ⟨?_, ?_, ?_, ?_, ?_, ?_⟩ <;> omega

theorem engStat_refused {e : Engine} (hidx : e.faultIdx ≤ 4) : (engStat e).getLsbD 16 = e.refused := by
  obtain ⟨-, -, -, hbit, -, -⟩ := engStat_fields hidx
  have hone : (engStat e).getLsbD 16 = decide (((engStat e).extractLsb' 16 1).toNat = 1) := by
    rw [BitVec.extractLsb'_toNat, BitVec.getLsbD, Nat.testBit_eq_decide_div_mod_eq, Nat.shiftRight_eq_div_pow]
  rw [hone, hbit]
  cases e.refused <;> rfl

/-- Settles O30: the reads bit by bit, the writes by their conditions. -/
theorem registerWrites : Obligations.RegisterWrites := by
  refine ⟨?engStat, readRegister_irqPend, fun s offset => readRegister_of_no_register, fun s ha =>
    ⟨fun v => taken_eq ha, fun offset strobes v h => ?ignored, rfl, fun code hcode => ?reserved, fun hoff hhalted => ?run,
      fun hrun => ?halt, fun hoff hhalted hfaulted => ?clear⟩⟩
  case engStat =>
    rintro s v rfl hidx
    obtain ⟨hst, hfault, hfaultIdx, -, hsrc, hq⟩ := engStat_fields hidx
    exact ⟨hst, hfault, hfaultIdx, engStat_refused hidx, hsrc, hq, engStat_mask hidx⟩
  case ignored =>
    have hnot : writeTaken offset strobes = false := by
      rw [Bool.eq_false_iff, ne_eq, writeTaken_iff]
      tauto
    simp [exec, execRegisterWriteIgnored, hnot]
  case reserved => simp only [exec, execEngctlReservedCode, if_pos hcode, taken_eq ha, refuseCommand]
  case run =>
    simp only [exec, execRun, taken_eq ha]
    rfl
  case halt => simp only [exec, execHalt, taken_eq ha, if_neg hrun, refuseCommand]
  case clear =>
    have hnot : ¬(s.eng.st = .off ∨ s.eng.st = .halted ∨ s.eng.st = .faulted) := by tauto
    simp only [exec, execClear, taken_eq ha, if_neg hnot, refuseCommand]

end Sys2Proof.Machine
end

section
/-! SUPPORT. RUN, HALT and the POST register: their conditions and whole next states (R31 to R36, R169, R172, R177, R178). -/

namespace Sys2Proof.Machine

open Sys2Proof

/-! ### RUN (R172, R178) -/

theorem setupAddressOk_iff (addr : Word) :
    setupAddressOk addr = true ↔ addr.toNat % 64 = 0 ∧ addr.toNat + 128 ≤ 2 ^ 32 := by
  simp only [setupAddressOk, Bool.and_eq_true, decide_eq_true_iff]
  exact Iff.rfl

theorem exec_run_of_off {s : State} (ha : awake s) (hst : s.eng.st = .off) : exec .run s = .next (runFromOff s) := by
  simp only [exec, execRun, taken_eq ha, hst]

theorem exec_run_of_halted {s : State} (ha : awake s) (hst : s.eng.st = .halted) :
    exec .run s = .next (askIfEligible 3 (askIfEligible 2 (askIfEligible 1 (askIfEligible 0
      (serveWaitList (acceptCommand .running s)))))) := by
  simp only [exec, execRun, taken_eq ha, hst]

theorem serveWaitList_of_none {s : State} (h : s.waitList = []) : serveWaitList s = s := by
  rw [serveWaitList, h, serveEntries]

/-- Settles O31: RUN from OFF by the address, RUN from HALTED by what is listed and eligible. -/
theorem runStarts : Obligations.RunStarts := by
  refine ⟨fun s ha hst => ⟨fun halign hend => ?configuring, fun hbad => ?refused⟩, fun s ha hst u hu =>
    ⟨fun hlist hnone => ?quiet, ?resumes⟩⟩
  case configuring =>
    rw [exec_run_of_off ha hst, runFromOff, if_pos ((setupAddressOk_iff _).mpr ⟨halign, hend⟩)]
    rfl
  case refused =>
    rw [exec_run_of_off ha hst, runFromOff, if_neg (mt (setupAddressOk_iff _).mp hbad)]
    rfl
  case quiet =>
    have hu' : acceptCommand .running s = u := hu.symm
    have hlist' : u.waitList = [] := by rw [hu]; exact hlist
    rw [exec_run_of_halted ha hst, hu', serveWaitList_of_none hlist']
    simp only [askIfEligible_of_not_eligible (hnone _)]
  case resumes => rw [exec_run_of_halted ha hst, hu, acceptCommand]

/-! ### HALT (R177) -/

theorem headIn_iff (st : JState) (h : Head) : headIn st h = true ↔ ∃ pos hd j, h = .data pos hd j ∧ j.jstate = st := by
  cases h <;> simp [headIn]

theorem ctlIn_iff (st : CtlState) (h : Head) : ctlIn st h = true ↔ ∃ pos hd body, h = .control pos hd body st := by
  cases h <;> simp [ctlIn]

theorem jobActive_iff (h : Head) :
    jobActive h = true ↔ ∃ pos hd j, h = .data pos hd j ∧ (j.jstate = .starting ∨ j.jstate = .running) := by
  cases h <;> simp [jobActive]

theorem jobQueued_iff (h : Head) :
    jobQueued h = true ↔ ∃ pos hd j, h = .data pos hd j ∧ (j.jstate = .waiting ∨ j.jstate = .ready) := by
  cases h <;> simp [jobQueued]

theorem mem_queueIds (q : Fin 4) : q ∈ queueIds := by fin_cases q <;> simp [queueIds]

theorem datapathIdle_iff (s : State) : datapathIdle s = true ↔ ∀ q : Fin 4, jobActive (s.queue q).head = false := by
  simp [datapathIdle, mem_queueIds]

/-- The engine's work is at rest while the datapath, the control unit and the loader are idle (R177). -/
theorem atRest_iff (s : State) : atRest s = true ↔ (∀ q : Fin 4, jobActive (s.queue q).head = false) ∧
    s.cu.work = none ∧ s.cache.fill = none ∧ s.cache.reqs = [] := by
  simp [atRest, datapathIdle_iff, controlIdle, loaderIdle, and_assoc]

theorem atRest_eq_false_iff (s : State) : atRest s = false ↔ (∃ q : Fin 4, jobActive (s.queue q).head = true) ∨
    s.cu.work ≠ none ∨ s.cache.fill ≠ none ∨ s.cache.reqs ≠ [] := by
  rw [Bool.eq_false_iff, ne_eq, atRest_iff]
  simp only [not_and_or, not_forall, Bool.not_eq_false, ne_eq]

theorem checkDrain_of_rest {s : State} (hst : s.eng.st = .draining) (hrest : atRest s = true) :
    checkDrain s = setEngine { s with eng := { s.eng with st := .halted } } := if_pos ⟨hst, hrest⟩

theorem checkDrain_of_busy {s : State} (h : s.eng.st ≠ .draining ∨ atRest s = false) : checkDrain s = s := by
  refine if_neg fun ⟨hst, hrest⟩ => ?_
  obtain h | h := h
  · exact h hst
  · rw [h] at hrest
    cases hrest

theorem exec_halt_of_running {s : State} (ha : awake s) (hst : s.eng.st = .running) :
    exec .halt s = .next (checkDrain (acceptCommand .draining s)) := by
  simp only [exec, execHalt, taken_eq ha, if_pos hst]

/-- Settles O32: the four readings of a head, and both outcomes of a HALT and of a report by `atRest`. -/
theorem haltDrains : Obligations.HaltDrains := by
  refine ⟨fun h => ⟨fun st => headIn_iff st h, fun st => ctlIn_iff st h, jobActive_iff h, jobQueued_iff h⟩,
    fun s ha hst => ⟨fun hjobs hcu hfill hreqs => ?halts, fun hbusy => ?drains, fun u =>
      ⟨fun hdrain hjobs hcu hfill hreqs => ?report, fun hbusy => ?still⟩⟩⟩
  case halts =>
    have hrest : atRest (acceptCommand .draining s) = true := (atRest_iff _).mpr ⟨hjobs, hcu, hfill, hreqs⟩
    rw [exec_halt_of_running ha hst, checkDrain_of_rest rfl hrest]
    rfl
  case drains =>
    have hrest : atRest (acceptCommand .draining s) = false := (atRest_eq_false_iff _).mpr hbusy
    rw [exec_halt_of_running ha hst, checkDrain_of_busy (.inr hrest)]
    rfl
  case report => exact checkDrain_of_rest hdrain ((atRest_iff u).mpr ⟨hjobs, hcu, hfill, hreqs⟩)
  case still => exact checkDrain_of_busy (hbusy.imp id (atRest_eq_false_iff u).mpr)

/-! ### POST ADVANCE (R31, R32) -/

theorem present_iff (r : QueueRec) : present r = true ↔ r.state ≠ .absent := by simp [present]

theorem advanceOk_iff (s : State) (q : Fin 4) (index : Nat) : advanceOk s q index = true ↔
    advanceState s = true ∧ (s.queue q).state ≠ .absent ∧ index < (s.queue q).size ∧
    qCount (s.queue q) + advanceDistance (s.queue q) index ≤ (s.queue q).size - 1 := by
  simp only [advanceOk, Bool.and_eq_true, present_iff, decide_eq_true_iff, and_assoc]

/-- Settles O36: the reserved action, a refused and an accepted ADVANCE. -/
theorem postAdvanceRule : Obligations.PostAdvanceRule := by
  rintro q index s r ha rfl
  refine ⟨taken_eq ha, fun hbad => ?refused, fun hoff hconf hpresent hindex hcount => ?accepted⟩
  case refused =>
    have hnot : ¬ advanceOk s q index.toNat = true := by
      rw [advanceOk_iff, advanceState_iff]
      rintro ⟨⟨hoff, hconf⟩, hpresent, hindex, hcount⟩
      obtain h | h | h | h | h := hbad
      · exact hoff h
      · exact hconf h
      · exact hpresent h
      · exact absurd hindex (Nat.not_lt.mpr h)
      · exact absurd hcount (Nat.not_le.mpr h)
    simp only [exec, execPostAdvance, taken_eq ha, if_neg hnot]
    rfl
  case accepted =>
    have hok := (advanceOk_iff s q index.toNat).mpr
      ⟨(advanceState_iff s).mpr ⟨hoff, hconf⟩, hpresent, hindex, hcount⟩
    simp only [exec, execPostAdvance, taken_eq ha, if_pos hok]

/-! ### POST FLUSH (R34 to R36) -/

theorem headHoldsFlush_iff (r : QueueRec) : headHoldsFlush r = true ↔
    jobActive r.head = true ∨ ctlIn .executing r.head = true ∨ ctlIn .parked r.head = true := by
  cases hh : r.head <;> simp [headHoldsFlush, jobActive, ctlIn, hh]

/-- The heads whose record a flush counts (R35). -/
theorem headCounted_iff (r : QueueRec) : headCounted r = true ↔ jobQueued r.head = true ∨
    ctlIn .controlWait r.head = true ∨ (∃ pos, r.head = .fetching pos) ∧ r.discard = false := by
  cases hh : r.head <;> simp [headCounted, jobQueued, ctlIn, hh]

section

variable {s : State} {q : Fin 4}

theorem exec_postFlush_of_refused (ha : awake s) (h : live s = false ∨ (s.queue q).state = .absent) :
    exec (.postFlush q) s = .next (refusePost q s) := by
  have hnot : (live s && present (s.queue q)) = false := by
    obtain h | h := h
    · rw [h, Bool.false_and]
    · simp [present, h]
  simp only [exec, execPostFlush, taken_eq ha, hnot, Bool.not_false, if_true]

theorem exec_postFlush_of_taken (ha : awake s) (hl : live s = true) (hp : (s.queue q).state ≠ .absent) :
    exec (.postFlush q) s = .next (
      if (s.queue q).flushPend then s
      else if headHoldsFlush (s.queue q) then s.setQueue q { s.queue q with flushPend := true }
      else if headCounted (s.queue q) then flushEffect q s
      else flushOwn q s) := by
  simp only [exec, execPostFlush, taken_eq ha, hl, (present_iff _).mpr hp, Bool.and_self, Bool.not_true,
    Bool.false_eq_true, if_false]

/-- A flush of a counted head posts one record more than the queue's count (R35). -/
theorem skippedCount_of_counted {r : QueueRec} (h : headCounted r = true) : skippedCount r = 1 + qCount r := by
  simp [skippedCount, h, bit]

theorem flushedQueue_of_fetching {r : QueueRec} {pos : Nat} (h : r.head = .fetching pos) :
    flushedQueue r = { r with cons := r.prod, flushPend := false, discard := true } := by
  simp only [flushedQueue, h]

theorem flushedQueue_of_not_fetching {r : QueueRec} (h : ∀ pos, r.head ≠ .fetching pos) :
    flushedQueue r = { r with cons := r.prod, flushPend := false, head := .empty } := by
  unfold flushedQueue
  split
  · next hh => exact absurd hh (h _)
  · rfl

end

/-- A head in a record state of a decoded record is not FETCHING. -/
theorem ne_fetching_of_record {h : Head} (hr : jobQueued h = true ∨ ctlIn .controlWait h = true) (pos : Nat) :
    h ≠ .fetching pos := by
  rintro rfl
  obtain h | h := hr <;> cases h

/-- A record that needs no flush of its own holds one for later (R34). -/
theorem not_headHoldsFlush_of_counted {r : QueueRec} (h : headCounted r = true) : headHoldsFlush r = false := by
  obtain h | h | ⟨⟨pos, hh⟩, -⟩ := (headCounted_iff r).mp h
  · obtain ⟨pos, hd, j, hh, hj | hj⟩ := (jobQueued_iff _).mp h <;> simp [headHoldsFlush, hh, hj]
  · obtain ⟨pos, hd, body, hh⟩ := (ctlIn_iff _ _).mp h
    simp [headHoldsFlush, hh]
  · simp [headHoldsFlush, hh]

/-- Settles O38: a refusal, a flush already pending, and the four kinds of head. -/
theorem postFlushRule : Obligations.PostFlushRule := by
  rintro q s r flushed ha rfl hflushed
  refine ⟨fun h => exec_postFlush_of_refused ha h, fun hl hp => ⟨fun hpend => ?pending, fun hpend =>
    ⟨fun hhold => ?held, fun hrec => ?skipped, fun pos hpos hdisc => ?marked, fun hnone => ?own⟩⟩⟩
  all_goals rw [exec_postFlush_of_taken ha hl hp]
  case pending => rw [if_pos hpend]
  case held => rw [if_neg (Bool.eq_false_iff.mp hpend), if_pos ((headHoldsFlush_iff _).mpr hhold)]
  case skipped =>
    have hcount : headCounted (s.queue q) = true := (headCounted_iff _).mpr (by tauto)
    rw [if_neg (Bool.eq_false_iff.mp hpend), if_neg (Bool.eq_false_iff.mp (not_headHoldsFlush_of_counted hcount)),
      if_pos hcount, flushEffect, skippedCount_of_counted hcount,
      flushedQueue_of_not_fetching (ne_fetching_of_record hrec), hflushed 1, ← hpend]
    rfl
  case marked =>
    have hcount : headCounted (s.queue q) = true := (headCounted_iff _).mpr (.inr (.inr ⟨⟨pos, hpos⟩, hdisc⟩))
    rw [if_neg (Bool.eq_false_iff.mp hpend), if_neg (Bool.eq_false_iff.mp (not_headHoldsFlush_of_counted hcount)),
      if_pos hcount, flushEffect, skippedCount_of_counted hcount, flushedQueue_of_fetching hpos, hflushed 1, ← hpend]
    rfl
  case own =>
    have hhold : headHoldsFlush (s.queue q) = false := by
      obtain hh | ⟨⟨pos, hh⟩, -⟩ := hnone <;> simp [headHoldsFlush, hh]
    have hcount : headCounted (s.queue q) = false := by
      obtain hh | ⟨⟨pos, hh⟩, hd⟩ := hnone
      · simp [headCounted, hh]
      · simp [headCounted, hh, hd]
    rw [if_neg (Bool.eq_false_iff.mp hpend), if_neg (Bool.eq_false_iff.mp hhold), if_neg (Bool.eq_false_iff.mp hcount)]
    refine ⟨fun hfree => ?_, fun hfull hlist => ?_, fun hfull hlist => ?_⟩
    · rw [flushOwn, if_neg hfree, flushEffect_of_no_record (by exact hnone), hflushed 0, Nat.zero_add, ← hpend]
      rfl
    · rw [flushOwn, if_pos hfull, listForFlush_of_not_listed (by exact (listed_eq_false_iff s q).mpr hlist)]
      rfl
    · have hl' : listed (s.setQueue q { s.queue q with flushPend := true }) q = true := (listed_iff s q).mpr hlist
      rw [flushOwn, if_pos hfull, listForFlush, if_pos hl']
      rfl

end Sys2Proof.Machine
end

section
/-! SUPPORT. The decode of work records: the enumerated fields by their ranges, the data records, and each kind of control
record (R42, R51, R186, R187). -/

namespace Sys2Proof.Machine

open Sys2Proof

/-! ### Lists decoded element by element -/

/-- A list decodes exactly when each of its elements does. -/
theorem mapM_eq_none_iff {α β : Type} (f : α → Option β) (l : List α) : l.mapM f = none ↔ ∃ x ∈ l, f x = none := by
  induction l with
  | nil => simp
  | cons a rest ih =>
    cases ha : f a with
    | none => simp [List.mapM_cons, ha]
    | some b =>
      cases hr : rest.mapM f with
      | none => simp [List.mapM_cons, ha, hr, ← ih]
      | some ys =>
        have hrest : ¬∃ x ∈ rest, f x = none := by simp [← ih, hr]
        simpa [List.mapM_cons, ha, hr] using hrest

/-- The elements of a decoded list, in order. -/
theorem mapM_eq_some_iff {α β : Type} (f : α → Option β) (l : List α) (ys : List β) :
    l.mapM f = some ys ↔ l.map f = ys.map some := by
  induction l generalizing ys with
  | nil => cases ys <;> simp
  | cons a rest ih =>
    cases ys with
    | nil => cases ha : f a <;> cases hr : rest.mapM f <;> simp [List.mapM_cons, ha, hr]
    | cons b ys =>
      rw [List.map_cons, List.map_cons, List.cons.injEq, ← ih]
      cases ha : f a <;> cases hr : rest.mapM f <;> simp [List.mapM_cons, ha, hr]

/-! ### Enumerated fields (R186) -/

theorem index?_eq_some {bound : Nat} (n : Fin bound) : index? bound n.val = some n := by simp [index?]

theorem index?_eq_some_iff {bound k : Nat} {n : Fin bound} : index? bound k = some n ↔ k = n.val := by
  constructor
  · intro h
    unfold index? at h
    split at h
    · exact congrArg Fin.val (Option.some.inj h)
    · cases h
  · rintro rfl
    exact index?_eq_some n

theorem policyOf_eq (k : Nat) : policyOf k =
    if 2 < k then none else some (if k = 0 then .saturate else if k = 1 then .wrap else .trap) := by
  match k with
  | 0 => rfl
  | 1 => rfl
  | 2 => rfl
  | k + 3 => rw [if_pos (by omega)]; rfl

theorem roundingOf_eq (k : Nat) : roundingOf k = if 1 < k then none else some (if k = 0 then .round else .trunc) := by
  match k with
  | 0 => rfl
  | 1 => rfl
  | k + 2 => rw [if_pos (by omega)]; rfl

theorem producerOf_eq (k : Nat) : producerOf k = if 1 < k then none else some (if k = 0 then .portRx else .job) := by
  match k with
  | 0 => rfl
  | 1 => rfl
  | k + 2 => rw [if_pos (by omega)]; rfl

theorem consumerOf_eq (k : Nat) : consumerOf k = if 1 < k then none else some (if k = 0 then .portTx else .job) := by
  match k with
  | 0 => rfl
  | 1 => rfl
  | k + 2 => rw [if_pos (by omega)]; rfl

theorem overrunPolicyOf_eq (k : Nat) :
    overrunPolicyOf k = if 1 < k then none else some (if k = 0 then .dropNew else .dropOld) := by
  match k with
  | 0 => rfl
  | 1 => rfl
  | k + 2 => rw [if_pos (by omega)]; rfl

theorem portOf_eq_none_iff (k : Nat) : portOf k = none ↔ 1 < k := by
  match k with
  | 0 => simp [portOf]
  | 1 => simp [portOf]
  | k + 2 => simp [portOf]

theorem portOf_code (p : PortId) : portOf (portCode p) = some p := by cases p <;> rfl

theorem chainActionOf_eq_none_iff (k : Nat) : chainActionOf k = none ↔ 4 < k := by
  match k with
  | 0 => simp [chainActionOf]
  | 1 => simp [chainActionOf]
  | 2 => simp [chainActionOf]
  | 3 => simp [chainActionOf]
  | 4 => simp [chainActionOf]
  | k + 5 => simp [chainActionOf]

theorem contextOf_eq_none_iff (c : Nat) : contextOf c = none ↔ 31 < c ∧ c ≠ 0xFF := by
  unfold contextOf
  split
  · next h => simp [h]
  · next h =>
    rw [Option.map_eq_none_iff, index?_eq_none_iff]
    omega

theorem contextOf_some {c : Nat} {x : Option (Fin 32)} (h : contextOf c = some x) :
    (x = none ↔ c = 0xFF) ∧ ∀ n : Fin 32, x = some n → n.val = c := by
  unfold contextOf at h
  split at h
  · next hc =>
    obtain rfl := Option.some.inj h
    exact ⟨⟨fun _ => hc, fun _ => rfl⟩, fun n hn => by cases hn⟩
  · next hc =>
    obtain ⟨n, hn, rfl⟩ := Option.map_eq_some_iff.mp h
    refine ⟨⟨fun hx => (by cases hx), fun hx => absurd hx hc⟩, fun m hm => ?_⟩
    obtain rfl := Option.some.inj hm
    exact (index?_eq_some_iff.mp hn).symm

theorem blockOk_eq_false_iff (n : Nat) : blockOk n = false ↔ n = 0 ∨ 1024 < n := by
  simp only [blockOk, Bool.and_eq_false_iff, decide_eq_false_iff_not]
  omega

/-! ### Endpoints (R51) -/

theorem endpointOf_stream (m : Fin 48) (addr : Word) (n : Nat) : endpointOf 0 m.val addr n = some (.stream m) := by
  simp [endpointOf, index?_eq_some]

theorem endpointOf_memory {addr : Word} {n : Nat} (stream : Nat) (heven : addr.toNat % 2 = 0)
    (hend : addr.toNat + 2 * n ≤ 2 ^ 32) : endpointOf 1 stream addr n = some (.memory addr) :=
  if_pos ⟨heven, hend⟩

theorem endpointOf_eq_none {kind stream n : Nat} {addr : Word}
    (h : kind = 0 ∧ 47 < stream ∨ kind = 1 ∧ (addr.toNat % 2 ≠ 0 ∨ 2 ^ 32 < addr.toNat + 2 * n) ∨ 1 < kind) :
    endpointOf kind stream addr n = none := by
  obtain ⟨rfl, hs⟩ | ⟨rfl, hbad⟩ | hk := h
  · exact Option.map_eq_none_iff.mpr ((index?_eq_none_iff 48 stream).mpr hs)
  · have hnot : ¬(addr.toNat % 2 = 0 ∧ addr.toNat + 2 * n ≤ 2 ^ 32) := by omega
    exact if_neg hnot
  · match kind, hk with
    | k + 2, _ => rfl

theorem sameStream_eq_true_iff (i o : Endpoint) : sameStream i o = true ↔ ∃ m, i = .stream m ∧ o = .stream m := by
  constructor
  · intro h
    unfold sameStream at h
    split at h
    · next m k => exact ⟨m, rfl, by rw [eq_of_beq h]⟩
    · cases h
  · rintro ⟨m, rfl, rfl⟩
    exact beq_self_eq_true m

/-! ### Data records -/

/-- The data record of a FILTER body with these endpoints and this context. -/
def filterRec (bs : List Byte) (monitor : Bool) (i o : Endpoint) (context : Option (Fin 32)) : DataRec :=
  { kind := .filter (word bs 0x20) context
    inputs := [i]
    output := o
    n := num16 bs 0x14
    policy := if num8 bs 0x17 = 0 then .saturate else if num8 bs 0x17 = 1 then .wrap else .trap
    rounding := if num8 bs 0x18 = 0 then .round else .trunc
    monitor := monitor
    thresh := num16 bs 0x1A % 2 ^ 15
    waitLimit := num16 bs 0x1C }

/-- A FILTER body decodes exactly when its block, endpoints, context and codes are in range (R51). -/
theorem decodeFilter_eq_some_iff (bs : List Byte) (monitor : Bool) (d : DataRec) : decodeFilter bs monitor = some d ↔
    blockOk (num16 bs 0x14) = true ∧ ∃ i o context,
      endpointOf (num8 bs 0x08) (num8 bs 0x09) (word bs 0x0C) (num16 bs 0x14) = some i ∧
      endpointOf (num8 bs 0x0A) (num8 bs 0x0B) (word bs 0x10) (num16 bs 0x14) = some o ∧
      contextOf (num8 bs 0x16) = some context ∧ num8 bs 0x17 ≤ 2 ∧ num8 bs 0x18 ≤ 1 ∧ sameStream i o = false ∧
      d = filterRec bs monitor i o context := by
  unfold decodeFilter
  rw [policyOf_eq, roundingOf_eq]
  dsimp only
  cases hblock : blockOk (num16 bs 0x14) with
  | false => simp
  | true =>
    by_cases hp : 2 < num8 bs 0x17
    · simp [hp, Nat.not_le.mpr hp]
    by_cases hr : 1 < num8 bs 0x18
    · simp [hp, hr, Nat.not_le.mpr hr]
    have hp' : num8 bs 0x17 ≤ 2 := by omega
    have hr' : num8 bs 0x18 ≤ 1 := by omega
    simp only [hp, hr, hp', hr', if_false, Bool.not_true, Bool.false_eq_true, true_and]
    split
    · next i o context policy rounding hi ho hc hpolicy hround =>
      obtain rfl := Option.some.inj hpolicy
      obtain rfl := Option.some.inj hround
      simp only [hi, ho, hc, Option.some.injEq]
      cases hs : sameStream i o with
      | true => simp [hs]
      | false => simp [hs, filterRec, eq_comm]
    · next hnot =>
      simp only [reduceCtorEq, false_iff, not_exists]
      rintro i o context ⟨hi, ho, hc, -, -⟩
      exact hnot _ _ _ _ _ hi ho hc rfl rfl

/-- The data record of a MIX body with these inputs and this output. -/
def mixRec (bs : List Byte) (monitor : Bool) (inputs : List Endpoint) (o : Endpoint) : DataRec :=
  { kind := .mix ((List.range (num8 bs 0x08)).map (fun j => half bs (0x1A + 8 * j)))
    inputs := inputs
    output := o
    n := num16 bs 0x10
    policy := if num8 bs 0x0B = 0 then .saturate else if num8 bs 0x0B = 1 then .wrap else .trap
    rounding := if num8 bs 0x12 = 0 then .round else .trunc
    monitor := monitor
    thresh := num16 bs 0x14 % 2 ^ 15
    waitLimit := num16 bs 0x16 }

/-- The endpoint of input `j` of a MIX body (10.3). -/
def mixEndpoint (bs : List Byte) (j : Nat) : Option Endpoint :=
  endpointOf (num8 bs (0x18 + 8 * j)) (num8 bs (0x19 + 8 * j)) (word bs (0x1C + 8 * j)) (num16 bs 0x10)

theorem mixInput_eq (bs : List Byte) (j : Nat) :
    mixInput bs (num16 bs 0x10) j = (mixEndpoint bs j).map (fun e => (e, half bs (0x1A + 8 * j))) := by
  simp only [mixInput, mixEndpoint, Nat.add_right_comm _ (8 * j)]

/-- The inputs of a MIX body decode to their endpoints, each with its gain. -/
theorem mixInputs_eq_some_iff (bs : List Byte) (ins : List (Endpoint × Sample)) :
    (List.range (num8 bs 0x08)).mapM (mixInput bs (num16 bs 0x10)) = some ins ↔
      (List.range (num8 bs 0x08)).map (mixEndpoint bs) = (ins.map Prod.fst).map some ∧
      ins.map Prod.snd = (List.range (num8 bs 0x08)).map (fun j => half bs (0x1A + 8 * j)) := by
  rw [mapM_eq_some_iff]
  generalize num8 bs 0x08 = count
  generalize List.range count = l
  induction l generalizing ins with
  | nil => cases ins <;> simp
  | cons j rest ih =>
    cases ins with
    | nil => simp
    | cons x ins =>
      obtain ⟨e, g⟩ := x
      have hj : mixInput bs (num16 bs 0x10) j = some (e, g) ↔ mixEndpoint bs j = some e ∧ g = half bs (0x1A + 8 * j) := by
        rw [mixInput_eq]
        cases mixEndpoint bs j <;> simp [eq_comm]
      simp only [List.map_cons, List.cons.injEq, ih, hj]
      tauto

theorem decodeMix_eq_some_iff (bs : List Byte) (monitor : Bool) (d : DataRec) : decodeMix bs monitor = some d ↔
    1 ≤ num8 bs 0x08 ∧ num8 bs 0x08 ≤ 4 ∧ blockOk (num16 bs 0x10) = true ∧ ∃ inputs o,
      (List.range (num8 bs 0x08)).map (mixEndpoint bs) = inputs.map some ∧
      endpointOf (num8 bs 0x09) (num8 bs 0x0A) (word bs 0x0C) (num16 bs 0x10) = some o ∧
      num8 bs 0x0B ≤ 2 ∧ num8 bs 0x12 ≤ 1 ∧ inputs.Nodup ∧ d = mixRec bs monitor inputs o := by
  unfold decodeMix
  rw [policyOf_eq, roundingOf_eq]
  dsimp only
  by_cases hblock : 1 ≤ num8 bs 0x08 ∧ num8 bs 0x08 ≤ 4 ∧ blockOk (num16 bs 0x10) = true
  · obtain ⟨hlo, hhi, hb⟩ := hblock
    by_cases hp : 2 < num8 bs 0x0B
    · simp [hp, Nat.not_le.mpr hp]
    by_cases hr : 1 < num8 bs 0x12
    · simp [hp, hr, Nat.not_le.mpr hr]
    have hp' : num8 bs 0x0B ≤ 2 := by omega
    have hr' : num8 bs 0x12 ≤ 1 := by omega
    simp only [hlo, hhi, hb, hp, hr, hp', hr', if_false, decide_true, Bool.and_self, Bool.not_true, Bool.false_eq_true,
      true_and]
    split
    · next ins o policy rounding hins ho hpolicy hround =>
      obtain rfl := Option.some.inj hpolicy
      obtain rfl := Option.some.inj hround
      obtain ⟨hends, hgains⟩ := (mixInputs_eq_some_iff bs ins).mp hins
      have hunique : ∀ inputs : List Endpoint, (ins.map Prod.fst).map some = inputs.map some ↔ ins.map Prod.fst = inputs :=
        fun inputs => (List.map_injective_iff.mpr (Option.some_injective _)).eq_iff
      simp only [hends, hunique, ho, Option.some.injEq]
      by_cases hnodup : (ins.map Prod.fst).Nodup
      · rw [if_pos hnodup, hgains, Option.some.injEq]
        constructor
        · rintro rfl
          exact ⟨_, _, rfl, rfl, hnodup, rfl⟩
        · rintro ⟨_, _, rfl, rfl, -, rfl⟩
          rfl
      · rw [if_neg hnodup]
        simp [hnodup]
    · next hnot =>
      simp only [reduceCtorEq, false_iff, not_exists]
      rintro inputs o ⟨hends, ho, -⟩
      have hlen : inputs.length = ((List.range (num8 bs 0x08)).map (fun j => half bs (0x1A + 8 * j))).length := by
        simpa using (congrArg List.length hends).symm
      generalize hgains : (List.range (num8 bs 0x08)).map (fun j => half bs (0x1A + 8 * j)) = gains at hlen
      have hins := (mixInputs_eq_some_iff bs (inputs.zip gains)).mpr
        ⟨by rw [List.map_fst_zip (le_of_eq hlen), hends], by rw [List.map_snd_zip (le_of_eq hlen.symm), hgains]⟩
      exact hnot _ _ _ _ hins ho rfl rfl
  · have hnot : (decide (1 ≤ num8 bs 0x08) && decide (num8 bs 0x08 ≤ 4) && blockOk (num16 bs 0x10)) = false := by
      rw [Bool.eq_false_iff]
      simpa [and_assoc] using hblock
    simp only [hnot, Bool.not_false, if_true, reduceCtorEq, false_iff]
    tauto

/-! ### The two kinds of data record in a body (R51, R187) -/

theorem decodeBody_filter (q : Fin 4) {bs : List Byte} (hk : num8 bs 0 = 0x01) :
    decodeBody q bs = (decodeFilter bs ((byteAt bs 1).getLsbD 1)).map Body.data := by
  simp only [decodeBody, hk]

theorem decodeBody_mix (q : Fin 4) {bs : List Byte} (hk : num8 bs 0 = 0x02) :
    decodeBody q bs = (decodeMix bs ((byteAt bs 1).getLsbD 1)).map Body.data := by
  simp only [decodeBody, hk]

/-- A FILTER record decodes nowhere outside its ranges. -/
theorem decodeFilter_eq_none_iff (bs : List Byte) (monitor : Bool) {input output : Option Endpoint}
    (hi : input = endpointOf (num8 bs 0x08) (num8 bs 0x09) (word bs 0x0C) (num16 bs 0x14))
    (ho : output = endpointOf (num8 bs 0x0A) (num8 bs 0x0B) (word bs 0x10) (num16 bs 0x14)) :
    decodeFilter bs monitor = none ↔ num16 bs 0x14 = 0 ∨ 1024 < num16 bs 0x14 ∨ input = none ∨ output = none ∨
      (∃ m, input = some (.stream m) ∧ output = some (.stream m)) ∨ (31 < num8 bs 0x16 ∧ num8 bs 0x16 ≠ 0xFF) ∨
      2 < num8 bs 0x17 ∨ 1 < num8 bs 0x18 := by
  rw [Option.eq_none_iff_forall_ne_some]
  constructor
  · intro hnone
    by_contra hgood
    simp only [not_or, not_lt, not_exists] at hgood
    obtain ⟨hn0, hn1, hin, hout, hsame, hctx, hp, hr⟩ := hgood
    obtain ⟨i, hi'⟩ := Option.ne_none_iff_exists'.mp hin
    obtain ⟨o, ho'⟩ := Option.ne_none_iff_exists'.mp hout
    obtain ⟨context, hc⟩ := Option.ne_none_iff_exists'.mp (mt (contextOf_eq_none_iff _).mp hctx)
    have hblock : blockOk (num16 bs 0x14) = true := by
      rw [← Bool.not_eq_false, blockOk_eq_false_iff]
      omega
    have hs : sameStream i o = false := by
      rw [← Bool.not_eq_true, sameStream_eq_true_iff]
      rintro ⟨m, rfl, rfl⟩
      exact hsame m ⟨hi', ho'⟩
    exact hnone _ ((decodeFilter_eq_some_iff bs monitor _).mpr
      ⟨hblock, i, o, context, hi ▸ hi', ho ▸ ho', hc, hp, hr, hs, rfl⟩)
  · rintro hbad d hd
    obtain ⟨hblock, i, o, context, hi', ho', hc, hp, hr, hs, -⟩ := (decodeFilter_eq_some_iff bs monitor d).mp hd
    have hblock' := mt (blockOk_eq_false_iff _).mpr (by rw [hblock]; exact Bool.noConfusion)
    have hctx := mt (contextOf_eq_none_iff _).mpr (by rw [hc]; exact Option.some_ne_none _)
    obtain h | h | h | h | ⟨m, hm, hm'⟩ | h | h | h := hbad
    · exact hblock' (.inl h)
    · exact hblock' (.inr h)
    · rw [← hi, h] at hi'; cases hi'
    · rw [← ho, h] at ho'; cases ho'
    · rw [← hi, hm] at hi'
      rw [← ho, hm'] at ho'
      obtain rfl := Option.some.inj hi'
      obtain rfl := Option.some.inj ho'
      rw [(sameStream_eq_true_iff _ _).mpr ⟨m, rfl, rfl⟩] at hs
      cases hs
    · exact hctx h
    · omega
    · omega

/-- All inputs of a MIX body decode, to a list in order. -/
theorem mixEndpoints_all {bs : List Byte} {count : Nat} (h : ∀ j, j < count → mixEndpoint bs j ≠ none) :
    ∃ inputs : List Endpoint, (List.range count).map (mixEndpoint bs) = inputs.map some := by
  have hsome : (List.range count).mapM (mixEndpoint bs) ≠ none := by
    rw [ne_eq, mapM_eq_none_iff]
    rintro ⟨j, hj, hnone⟩
    exact h j (List.mem_range.mp hj) hnone
  obtain ⟨inputs, hinputs⟩ := Option.ne_none_iff_exists'.mp hsome
  exact ⟨inputs, (mapM_eq_some_iff _ _ _).mp hinputs⟩

/-- An input of a decoded MIX is the endpoint at its offset. -/
theorem mixEndpoints_getElem? {bs : List Byte} {count : Nat} {inputs : List Endpoint}
    (h : (List.range count).map (mixEndpoint bs) = inputs.map some) :
    inputs.length = count ∧ ∀ j, j < count → inputs[j]? = mixEndpoint bs j := by
  have hlen : inputs.length = count := by simpa using (congrArg List.length h).symm
  refine ⟨hlen, fun j hj => ?_⟩
  have hat := congrArg (fun l => l[j]?) h
  simp only [List.getElem?_map, List.getElem?_range hj, Option.map_some] at hat
  rw [List.getElem?_eq_getElem (by omega)] at hat ⊢
  exact (Option.some.inj hat).symm

theorem mixEndpoints_nodup_iff {bs : List Byte} {count : Nat} {inputs : List Endpoint}
    (h : (List.range count).map (mixEndpoint bs) = inputs.map some) :
    inputs.Nodup ↔ ¬∃ j k, j < k ∧ k < count ∧ mixEndpoint bs j = mixEndpoint bs k := by
  obtain ⟨hlen, hat⟩ := mixEndpoints_getElem? h
  rw [List.nodup_iff_getElem?_ne_getElem?, hlen]
  constructor
  · rintro hne ⟨j, k, hjk, hk, heq⟩
    refine hne j k hjk hk ?_
    rw [hat j (by omega), hat k hk, heq]
  · intro hne j k hjk hk heq
    refine hne ⟨j, k, hjk, hk, ?_⟩
    rw [← hat j (by omega), ← hat k hk, heq]

theorem decodeMix_eq_none_iff (bs : List Byte) (monitor : Bool) {output : Option Endpoint}
    (ho : output = endpointOf (num8 bs 0x09) (num8 bs 0x0A) (word bs 0x0C) (num16 bs 0x10)) :
    decodeMix bs monitor = none ↔ num8 bs 0x08 = 0 ∨ 4 < num8 bs 0x08 ∨ num16 bs 0x10 = 0 ∨ 1024 < num16 bs 0x10 ∨
      (∃ j, j < num8 bs 0x08 ∧ mixEndpoint bs j = none) ∨ output = none ∨
      (∃ j k, j < k ∧ k < num8 bs 0x08 ∧ mixEndpoint bs j = mixEndpoint bs k) ∨ 2 < num8 bs 0x0B ∨ 1 < num8 bs 0x12 := by
  rw [Option.eq_none_iff_forall_ne_some]
  constructor
  · intro hnone
    by_contra hgood
    simp only [not_or, not_lt, not_exists, not_and] at hgood
    obtain ⟨hc0, hc1, hn0, hn1, hin, hout, hdiff, hp, hr⟩ := hgood
    obtain ⟨o, ho'⟩ := Option.ne_none_iff_exists'.mp hout
    obtain ⟨inputs, hinputs⟩ := mixEndpoints_all hin
    have hblock : blockOk (num16 bs 0x10) = true := by
      rw [← Bool.not_eq_false, blockOk_eq_false_iff]
      omega
    have hnodup : inputs.Nodup := (mixEndpoints_nodup_iff hinputs).mpr
      (by rintro ⟨j, k, hjk, hk, heq⟩; exact hdiff j k hjk hk heq)
    exact hnone _ ((decodeMix_eq_some_iff bs monitor _).mpr
      ⟨by omega, hc1, hblock, inputs, o, hinputs, ho ▸ ho', hp, hr, hnodup, rfl⟩)
  · rintro hbad d hd
    obtain ⟨hlo, hhi, hblock, inputs, o, hinputs, ho', hp, hr, hnodup, -⟩ := (decodeMix_eq_some_iff bs monitor d).mp hd
    have hblock' := mt (blockOk_eq_false_iff _).mpr (by rw [hblock]; exact Bool.noConfusion)
    obtain h | h | h | h | ⟨j, hj, hnone⟩ | h | h | h | h := hbad
    · omega
    · omega
    · exact hblock' (.inl h)
    · exact hblock' (.inr h)
    · obtain ⟨hlen, hat⟩ := mixEndpoints_getElem? hinputs
      have hlt : j < inputs.length := by omega
      rw [← hat j hj, List.getElem?_eq_getElem hlt] at hnone
      cases hnone
    · rw [← ho, h] at ho'; cases ho'
    · exact (mixEndpoints_nodup_iff hinputs).mp hnodup h
    · omega
    · omega

/-! ### Control records -/

theorem decodeBody_define (q : Fin 4) {bs : List Byte} (hk : num8 bs 0 = 0x03) :
    decodeBody q bs = (decodeDefine bs).map Body.control := by
  simp only [decodeBody, hk]

theorem decodeBody_read (q : Fin 4) {bs : List Byte} (hk : num8 bs 0 = 0x05) :
    decodeBody q bs = (decodeRead bs ((byteAt bs 1).getLsbD 1)).map Body.control := by
  simp only [decodeBody, hk]

theorem decodeBody_bind (q : Fin 4) {bs : List Byte} (hk : num8 bs 0 = 0x06) :
    decodeBody q bs = (decodeBind bs).map Body.control := by
  simp only [decodeBody, hk]

theorem decodeBody_chain (q : Fin 4) {bs : List Byte} (hk : num8 bs 0 = 0x07) :
    decodeBody q bs = (chainActionOf (num8 bs 0x08)).map (fun a => .control (.chainControl a (word bs 0x0C))) := by
  simp only [decodeBody, hk]

theorem decodeBody_context (q : Fin 4) {bs : List Byte} (hk : num8 bs 0 = 0x08) :
    decodeBody q bs = (index? 32 (num8 bs 0x08)).map (fun c => .control (.clearContext c)) := by
  simp only [decodeBody, hk]

theorem decodeBody_abort (q : Fin 4) {bs : List Byte} (hk : num8 bs 0 = 0x09) :
    decodeBody q bs = (decodeAbort bs q).map Body.control := by
  simp only [decodeBody, hk]

theorem decodeBody_of_no_kind (q : Fin 4) {bs : List Byte} (hk : num8 bs 0 = 0 ∨ 0x0A < num8 bs 0) :
    decodeBody q bs = none := by
  unfold decodeBody
  dsimp only
  split
  case h_11 => rfl
  all_goals omega

/-- A DEFINE_STREAM body decodes exactly within its ranges (R19). -/
theorem decodeDefine_eq (bs : List Byte) :
    (47 < num8 bs 0x08 ∨ num16 bs 0x0E < 32 ∨ 8192 < num16 bs 0x0E ∨ 127 < num8 bs 0x10 ∨
      32768 < num16 bs 0x0C + num16 bs 0x0E ∨ num16 bs 0x0E < num8 bs 0x10 + 16 ∨ 1 < num8 bs 0x09 ∨ 1 < num8 bs 0x0A ∨
      1 < num8 bs 0x0B) ∧ decodeDefine bs = none ∨
    ¬(47 < num8 bs 0x08 ∨ num16 bs 0x0E < 32 ∨ 8192 < num16 bs 0x0E ∨ 127 < num8 bs 0x10 ∨
      32768 < num16 bs 0x0C + num16 bs 0x0E ∨ num16 bs 0x0E < num8 bs 0x10 + 16 ∨ 1 < num8 bs 0x09 ∨ 1 < num8 bs 0x0A ∨
      1 < num8 bs 0x0B) ∧ ∃ n : Fin 48, n.val = num8 bs 0x08 ∧ decodeDefine bs = some (.defineStream n (num16 bs 0x0C)
        (num16 bs 0x0E) (num8 bs 0x10) (if num8 bs 0x09 = 0 then .portRx else .job)
        (if num8 bs 0x0A = 0 then .portTx else .job) (if num8 bs 0x0B = 0 then .dropNew else .dropOld) (half bs 0x12)) := by
  unfold decodeDefine
  rw [producerOf_eq, consumerOf_eq, overrunPolicyOf_eq]
  dsimp only
  by_cases hring : 32 ≤ num16 bs 0x0E ∧ num16 bs 0x0E ≤ 8192 ∧ num8 bs 0x10 ≤ 127 ∧
      num16 bs 0x0C + num16 bs 0x0E ≤ 32768 ∧ num8 bs 0x10 + 16 ≤ num16 bs 0x0E
  · rw [if_pos hring]
    by_cases hn : 47 < num8 bs 0x08
    · rw [(index?_eq_none_iff 48 _).mpr hn]
      exact .inl ⟨.inl hn, rfl⟩
    have hindex : index? 48 (num8 bs 0x08) = some ⟨num8 bs 0x08, by omega⟩ := index?_eq_some_iff.mpr rfl
    rw [hindex]
    by_cases hp : 1 < num8 bs 0x09
    · exact .inl ⟨by omega, by rw [if_pos hp]⟩
    by_cases hc : 1 < num8 bs 0x0A
    · exact .inl ⟨by omega, by rw [if_neg hp, if_pos hc]⟩
    by_cases ho : 1 < num8 bs 0x0B
    · exact .inl ⟨by omega, by rw [if_neg hp, if_neg hc, if_pos ho]⟩
    rw [if_neg hp, if_neg hc, if_neg ho]
    exact .inr ⟨by omega, ⟨num8 bs 0x08, by omega⟩, rfl, rfl⟩
  · rw [if_neg hring]
    exact .inl ⟨by omega, rfl⟩

theorem decodeRead_of_aligned {bs : List Byte} (rearm : Bool) {n : Fin 48} (hn : num8 bs 0x08 = n.val)
    (halign : (word bs 0x0C).toNat % 32 = 0) :
    decodeRead bs rearm = some (.readStream n (word bs 0x0C) rearm) := by
  simp [decodeRead, halign, hn, index?_eq_some]

theorem decodeRead_eq_none_iff (bs : List Byte) (rearm : Bool) :
    decodeRead bs rearm = none ↔ 47 < num8 bs 0x08 ∨ (word bs 0x0C).toNat % 32 ≠ 0 := by
  unfold decodeRead
  dsimp only
  split
  · next h =>
    rw [Option.map_eq_none_iff, index?_eq_none_iff]
    simp only [h, ne_eq, not_true_eq_false, or_false]
    omega
  · next h => simp [h]

theorem decodeAbort_of_other {bs : List Byte} {q t : Fin 4} (ht : num8 bs 0x08 = t.val) (hne : t ≠ q) :
    decodeAbort bs q = some (.abort t (word bs 0x0C)) := by
  simp [decodeAbort, ht, index?_eq_some, hne]

theorem decodeAbort_eq_none_iff (bs : List Byte) (q : Fin 4) :
    decodeAbort bs q = none ↔ 3 < num8 bs 0x08 ∨ num8 bs 0x08 = q.val := by
  unfold decodeAbort
  split
  · next t ht =>
    have hval := index?_eq_some_iff.mp ht
    rw [hval]
    by_cases htq : t = q
    · simp [htq]
    · have hne : t.val ≠ q.val := fun h => htq (Fin.ext h)
      simp only [htq, if_false, reduceCtorEq, hne, or_false, false_iff]
      omega
  · next ht =>
    have hlt := (index?_eq_none_iff 4 _).mp ht
    simp only [true_iff]
    omega

theorem decodeBind_of_action {bs : List Byte} {p : PortId} {j : Fin 32} (hp : num8 bs 0x08 = portCode p)
    (hj : num8 bs 0x09 = j.val) :
    (∀ n : Fin 48, num8 bs 0x0B = n.val →
      (num8 bs 0x0A = 0 → decodeBind bs = some (.bindSlot p j (.bind .rx n))) ∧
      (num8 bs 0x0A = 1 → decodeBind bs = some (.bindSlot p j (.bind .tx n)))) ∧
    (num8 bs 0x0A = 2 → decodeBind bs = some (.bindSlot p j .unbind)) := by
  have hport : portOf (num8 bs 0x08) = some p := by rw [hp, portOf_code]
  have hslot : index? 32 (num8 bs 0x09) = some j := index?_eq_some_iff.mpr hj
  refine ⟨fun n hn => ⟨fun ha => ?_, fun ha => ?_⟩, fun ha => ?_⟩
  · simp [decodeBind, hport, hslot, ha, hn, index?_eq_some]
  · simp [decodeBind, hport, hslot, ha, hn, index?_eq_some]
  · simp [decodeBind, hport, hslot, ha]

theorem decodeBind_eq_none_iff (bs : List Byte) : decodeBind bs = none ↔
    1 < num8 bs 0x08 ∨ 31 < num8 bs 0x09 ∨ 2 < num8 bs 0x0A ∨ num8 bs 0x0A ≠ 2 ∧ 47 < num8 bs 0x0B := by
  unfold decodeBind
  split
  · next p j hp hj =>
    have hport : ¬1 < num8 bs 0x08 := fun h => by rw [(portOf_eq_none_iff _).mpr h] at hp; cases hp
    have hslot : ¬31 < num8 bs 0x09 := fun h => by rw [(index?_eq_none_iff 32 _).mpr h] at hj; cases hj
    generalize num8 bs 0x0A = action
    match action with
    | 0 => exact Option.map_eq_none_iff.trans ((index?_eq_none_iff 48 _).trans (by omega))
    | 1 => exact Option.map_eq_none_iff.trans ((index?_eq_none_iff 48 _).trans (by omega))
    | 2 => simp only [reduceCtorEq, false_iff]; omega
    | k + 3 => simp only [true_iff]; omega
  · next hnot =>
    simp only [true_iff]
    by_contra hgood
    simp only [not_or, not_lt] at hgood
    obtain ⟨hp, hj, -⟩ := hgood
    obtain ⟨p, hp'⟩ := Option.ne_none_iff_exists'.mp (mt (portOf_eq_none_iff _).mp (Nat.not_lt.mpr hp))
    exact hnot p ⟨num8 bs 0x09, by omega⟩ hp' (index?_eq_some_iff.mpr rfl)

theorem chainActionOf_code (action : ChainAction) : chainActionOf
    (match action with | .load => 0 | .loadPin => 1 | .unpin => 2 | .invalidate => 3 | .invalidateAll => 4) =
      some action := by
  cases action <;> rfl

end Sys2Proof.Machine
end

section
/-! SUPPORT. What a fetch answer does: the stream checks of a data record in order, admission, the records that fail decode,
discarded data and a fetch error (R40 to R43, R52). -/

namespace Sys2Proof.Machine

open Sys2Proof

/-! ### The stream checks of a job in order (R52) -/

/-- The streams a job names with their roles: the inputs in record order, the output last. -/
theorem streamRoles_eq (d : DataRec) : streamRoles d =
    d.inputs.filterMap (fun e => match e with | .stream n => some (n, Role.input) | .memory _ => none) ++
      (match d.output with | .stream n => [(n, Role.output)] | .memory _ => []) := by
  have hinputs : (streamInputs d).map (fun n => (n, Role.input)) =
      d.inputs.filterMap (fun e => match e with | .stream n => some (n, Role.input) | .memory _ => none) := by
    rw [streamInputs, List.map_filterMap]
    refine List.filterMap_congr fun e _ => ?_
    cases e <;> rfl
  have houtput : ((endpointStream d.output).map (fun n => (n, Role.output))).toList =
      (match d.output with | .stream n => [(n, Role.output)] | .memory _ => []) := by
    cases d.output <;> rfl
  rw [streamRoles, hinputs, houtput]

theorem jobCheck_eq_none_iff (s : State) (d : DataRec) :
    jobCheck s d = none ↔ ∀ x ∈ streamRoles d, streamCheck (s.stream x.1) x.2 d.n = none :=
  List.findSome?_eq_none_iff

/-- The first failing check gives the status. -/
theorem jobCheck_eq_some_iff (s : State) (d : DataRec) (st : Status) : jobCheck s d = some st ↔
    ∃ before x after, streamRoles d = before ++ x :: after ∧
      (∀ y ∈ before, streamCheck (s.stream y.1) y.2 d.n = none) ∧ streamCheck (s.stream x.1) x.2 d.n = some st := by
  rw [jobCheck, List.findSome?_eq_some_iff]
  constructor
  · rintro ⟨before, x, after, hroles, hx, hbefore⟩
    exact ⟨before, x, after, hroles, hbefore, hx⟩
  · rintro ⟨before, x, after, hroles, hbefore, hx⟩
    exact ⟨before, x, after, hroles, hx, hbefore⟩

theorem jobReady_iff (s : State) (d : DataRec) :
    jobReady s d = true ↔ ∀ x ∈ streamRoles d, streamReady (s.stream x.1) x.2 d.n = true := List.all_eq_true

/-! ### The answers -/

section

variable {s : State} {q : Fin 4} {pos : Nat} {bytes : List Byte}

theorem exec_headFetchData_of_fetching (ha : awake s) (hh : (s.queue q).head = .fetching pos) (hlen : bytes.length = 64) :
    exec (.headFetchData q bytes) s =
      .next (if (s.queue q).discard then discardFetch q s else decodeHead q pos bytes s) := by
  simp only [exec, execHeadFetchData, taken_eq ha, hh, hlen, ne_eq, not_true_eq_false, if_false]

theorem exec_headFetchError_of_fetching (ha : awake s) (hh : (s.queue q).head = .fetching pos) :
    exec (.headFetchError q) s = .next (if (s.queue q).discard then discardFetch q s
      else completeHead q { plainCompletion q noHeader .fetchError with count := pos }
        (s.setQueue q { s.queue q with state := .stopped })) := by
  simp only [exec, execHeadFetchError, taken_eq ha, hh]

theorem decodeHead_of_none (hb : decodeBody q bytes = none) :
    decodeHead q pos bytes s = completeHead q (badRecord s q (decodeHeader bytes)) s := by
  simp only [decodeHead, hb]

theorem decodeHead_of_control {c : ControlRec} (hb : decodeBody q bytes = some (.control c)) :
    decodeHead q pos bytes s = s.setHead q (.control pos (decodeHeader bytes) c .controlWait) := by
  simp only [decodeHead, hb]

theorem decodeHead_of_data {d : DataRec} (hb : decodeBody q bytes = some (.data d)) :
    decodeHead q pos bytes s = admitData q pos (decodeHeader bytes) d s := by
  simp only [decodeHead, hb]

end

/-! ### Each clause of the decode -/

/-- The kinds of control record without a table of ranges of their own. -/
theorem decodeBody_controlKinds (q : Fin 4) (bs : List Byte) :
    (num8 bs 0 = 0 ∨ 0x0A < num8 bs 0 → decodeBody q bs = none) ∧
    (num8 bs 0 = 0x04 → ∀ n : Fin 48, num8 bs 0x08 = n.val → decodeBody q bs = some (.control (.retireStream n))) ∧
    (num8 bs 0 = 0x05 →
      (47 < num8 bs 0x08 ∨ (word bs 0x0C).toNat % 32 ≠ 0 ↔ decodeBody q bs = none) ∧
      ∀ n : Fin 48, num8 bs 0x08 = n.val → (word bs 0x0C).toNat % 32 = 0 →
        decodeBody q bs = some (.control (.readStream n (word bs 0x0C) ((byteAt bs 1).getLsbD 1)))) ∧
    (num8 bs 0 = 0x06 →
      (1 < num8 bs 0x08 ∨ 31 < num8 bs 0x09 ∨ 2 < num8 bs 0x0A ∨ (num8 bs 0x0A ≠ 2 ∧ 47 < num8 bs 0x0B) ↔
        decodeBody q bs = none) ∧
      ∀ (p : PortId) (j : Fin 32), num8 bs 0x08 = portCode p → num8 bs 0x09 = j.val →
        (∀ n : Fin 48, num8 bs 0x0B = n.val →
          (num8 bs 0x0A = 0 → decodeBody q bs = some (.control (.bindSlot p j (.bind .rx n)))) ∧
          (num8 bs 0x0A = 1 → decodeBody q bs = some (.control (.bindSlot p j (.bind .tx n))))) ∧
        (num8 bs 0x0A = 2 → decodeBody q bs = some (.control (.bindSlot p j .unbind)))) := by
  refine ⟨decodeBody_of_no_kind q, fun hk n hn => ?retire, fun hk => ⟨?readNone, fun n hn halign => ?read⟩,
    fun hk => ⟨?bindNone, fun p j hp hj => ?bind⟩⟩
  case retire => rw [decodeBody_retireStream q hk, index?_eq_some_iff.mpr hn, Option.map_some]
  case readNone => rw [decodeBody_read q hk, Option.map_eq_none_iff, decodeRead_eq_none_iff]
  case read => rw [decodeBody_read q hk, decodeRead_of_aligned _ hn halign, Option.map_some]
  case bindNone => rw [decodeBody_bind q hk, Option.map_eq_none_iff, decodeBind_eq_none_iff]
  case bind =>
    obtain ⟨hbind, hunbind⟩ := decodeBind_of_action hp hj
    rw [decodeBody_bind q hk]
    refine ⟨fun n hn => ⟨fun ha => ?_, fun ha => ?_⟩, fun ha => ?_⟩
    · rw [(hbind n hn).1 ha, Option.map_some]
    · rw [(hbind n hn).2 ha, Option.map_some]
    · rw [hunbind ha, Option.map_some]

/-- The FILTER clause: what does not decode, and what a decoded record holds. -/
theorem decodeBody_filter_clause (q : Fin 4) (bs : List Byte) (n : Nat) (input output : Option Endpoint)
    (hk : num8 bs 0 = 0x01) (hn : n = num16 bs 0x14)
    (hi : input = endpointOf (num8 bs 0x08) (num8 bs 0x09) (word bs 0x0C) n)
    (ho : output = endpointOf (num8 bs 0x0A) (num8 bs 0x0B) (word bs 0x10) n) :
    ((n = 0 ∨ 1024 < n ∨ input = none ∨ output = none ∨ (∃ m, input = some (.stream m) ∧ output = some (.stream m)) ∨
      (31 < num8 bs 0x16 ∧ num8 bs 0x16 ≠ 0xFF) ∨ 2 < num8 bs 0x17 ∨ 1 < num8 bs 0x18) ↔ decodeBody q bs = none) ∧
    ∀ b, decodeBody q bs = some b → ∃ i o context, input = some i ∧ output = some o ∧
      (context = none ↔ num8 bs 0x16 = 0xFF) ∧ (∀ c : Fin 32, context = some c → c.val = num8 bs 0x16) ∧
      b = .data (filterRec bs ((byteAt bs 1).getLsbD 1) i o context) := by
  subst hn
  rw [decodeBody_filter q hk]
  refine ⟨?_, fun b hb => ?_⟩
  · rw [Option.map_eq_none_iff, decodeFilter_eq_none_iff bs _ hi ho]
  · obtain ⟨d, hd, rfl⟩ := Option.map_eq_some_iff.mp hb
    obtain ⟨-, i, o, context, hi', ho', hc, -, -, -, rfl⟩ := (decodeFilter_eq_some_iff bs _ d).mp hd
    obtain ⟨hnone, hval⟩ := contextOf_some hc
    exact ⟨i, o, context, hi.trans hi', ho.trans ho', hnone, hval, rfl⟩

/-- The MIX clause. -/
theorem decodeBody_mix_clause (q : Fin 4) (bs : List Byte) (n count : Nat) (input : Nat → Option Endpoint)
    (output : Option Endpoint) (hk : num8 bs 0 = 0x02) (hcount : count = num8 bs 0x08) (hn : n = num16 bs 0x10)
    (hi : ∀ j, input j = endpointOf (num8 bs (0x18 + 8 * j)) (num8 bs (0x19 + 8 * j)) (word bs (0x1C + 8 * j)) n)
    (ho : output = endpointOf (num8 bs 0x09) (num8 bs 0x0A) (word bs 0x0C) n) :
    ((count = 0 ∨ 4 < count ∨ n = 0 ∨ 1024 < n ∨ (∃ j, j < count ∧ input j = none) ∨ output = none ∨
      (∃ j k, j < k ∧ k < count ∧ input j = input k) ∨ 2 < num8 bs 0x0B ∨ 1 < num8 bs 0x12) ↔ decodeBody q bs = none) ∧
    ∀ b, decodeBody q bs = some b → ∃ inputs o, inputs.length = count ∧ (∀ j, j < count → inputs[j]? = input j) ∧
      output = some o ∧ b = .data (mixRec bs ((byteAt bs 1).getLsbD 1) inputs o) := by
  subst hn hcount
  obtain rfl : input = mixEndpoint bs := funext hi
  rw [decodeBody_mix q hk]
  refine ⟨?_, fun b hb => ?_⟩
  · rw [Option.map_eq_none_iff, decodeMix_eq_none_iff bs _ ho]
  · obtain ⟨d, hd, rfl⟩ := Option.map_eq_some_iff.mp hb
    obtain ⟨-, -, -, inputs, o, hinputs, ho', -, -, -, rfl⟩ := (decodeMix_eq_some_iff bs _ d).mp hd
    obtain ⟨hlen, hat⟩ := mixEndpoints_getElem? hinputs
    exact ⟨inputs, o, hlen, hat, ho.trans ho', rfl⟩

/-- The DEFINE_STREAM clause. -/
theorem decodeBody_define_clause (q : Fin 4) (bs : List Byte) (base length hist : Nat) (hk : num8 bs 0 = 0x03)
    (hbase : base = num16 bs 0x0C) (hlength : length = num16 bs 0x0E) (hhist : hist = num8 bs 0x10) :
    ((47 < num8 bs 0x08 ∨ length < 32 ∨ 8192 < length ∨ 127 < hist ∨ 32768 < base + length ∨ length < hist + 16 ∨
      1 < num8 bs 0x09 ∨ 1 < num8 bs 0x0A ∨ 1 < num8 bs 0x0B) ↔ decodeBody q bs = none) ∧
    ∀ b, decodeBody q bs = some b → ∃ n : Fin 48, n.val = num8 bs 0x08 ∧ b = .control (.defineStream n base length hist
      (if num8 bs 0x09 = 0 then .portRx else .job) (if num8 bs 0x0A = 0 then .portTx else .job)
      (if num8 bs 0x0B = 0 then .dropNew else .dropOld) (half bs 0x12)) := by
  subst hbase hlength hhist
  rw [decodeBody_define q hk]
  obtain ⟨hbad, hnone⟩ | ⟨hgood, n, hn, hsome⟩ := decodeDefine_eq bs
  · rw [hnone, Option.map_none]
    exact ⟨⟨fun _ => rfl, fun _ => hbad⟩, fun b hb => by cases hb⟩
  · rw [hsome, Option.map_some]
    refine ⟨⟨fun hbad => absurd hbad hgood, fun hb => by cases hb⟩, fun b hb => ?_⟩
    obtain rfl := Option.some.inj hb
    exact ⟨n, hn, rfl⟩

/-- Settles O39: the decode clause by clause, the checks in order, and both answers by what the head waits for. -/
theorem fetchAnswers : Obligations.FetchAnswers := by
  refine ⟨fun kind stream n addr => ⟨fun m => endpointOf_stream m addr n, endpointOf_memory stream, endpointOf_eq_none⟩,
    fun q bs n input output hk hn hi ho => ?filter, fun q bs n count input output hk hcount hn hi ho => ?mix,
    decodeBody_define_clause, fun q bs => ?kinds,
    fun s d roles hroles => ?roles, fun q bytes s pos ha hh hlen => ?data, fun q s pos ha hh => ?error⟩
  case filter =>
    subst hn
    exact decodeBody_filter_clause q bs _ input output hk rfl hi ho
  case mix =>
    subst hn hcount
    exact decodeBody_mix_clause q bs _ _ input output hk rfl rfl hi ho
  case kinds =>
    obtain ⟨hnone, hretire, hread, hbind⟩ := decodeBody_controlKinds q bs
    refine ⟨hnone, hretire, hread, fun hk => ⟨(hbind hk).1, fun p j hp hj => ?_⟩, fun hk => ⟨?_, fun action ha => ?_⟩,
      fun hk c hc => ?_, fun hk => ⟨?_, fun t ht hne => ?_⟩, fun hk => ?_⟩
    · refine (hbind hk).2 p j ?_ hj
      cases p <;> exact hp
    · rw [decodeBody_chain q hk, Option.map_eq_none_iff, chainActionOf_eq_none_iff]
    · have hact : chainActionOf (num8 bs 0x08) = some action := by
        rw [ha]
        exact chainActionOf_code action
      rw [decodeBody_chain q hk, hact, Option.map_some]
    · rw [decodeBody_context q hk, index?_eq_some_iff.mpr hc, Option.map_some]
    · rw [decodeBody_abort q hk, Option.map_eq_none_iff, decodeAbort_eq_none_iff]
    · rw [decodeBody_abort q hk, decodeAbort_of_other ht hne, Option.map_some]
    · simp only [decodeBody, hk]
  case roles =>
    have heq : streamRoles d = roles := (streamRoles_eq d).trans hroles.symm
    rw [← heq]
    exact ⟨rfl, jobCheck_eq_none_iff s d, jobCheck_eq_some_iff s d, jobReady_iff s d⟩
  case data =>
    have hexec := exec_headFetchData_of_fetching ha hh hlen
    refine ⟨fun hd => ?discarded, fun hd => ?decoded⟩
    case discarded =>
      rw [hexec, if_pos hd]
      rfl
    case decoded =>
      rintro h rfl
      rw [if_neg (Bool.eq_false_iff.mp hd)] at hexec
      refine ⟨fun hb h7 h8 => ?_, fun hb h78 => ?_, fun c hb => ?_, fun d hb => ⟨fun st hst => ?_, fun hok j hj => ?_⟩⟩
      · have hnot : ¬((decodeHeader bytes).kind = 0x07 ∨ (decodeHeader bytes).kind = 0x08) := not_or.mpr ⟨h7, h8⟩
        rw [hexec, decodeHead_of_none hb, badRecord, if_neg hnot]
        rfl
      · have hyes : (decodeHeader bytes).kind = 0x07 ∨ (decodeHeader bytes).kind = 0x08 := h78
        rw [hexec, decodeHead_of_none hb, badRecord, if_pos hyes]
        rfl
      · rw [hexec, decodeHead_of_control hb]
        rfl
      · rw [hexec, decodeHead_of_data hb, admitData, hst]
        rfl
      · rw [hexec, decodeHead_of_data hb, admitData, hok, hj]
        rfl
  case error =>
    have hexec := exec_headFetchError_of_fetching ha hh
    refine ⟨fun hd => ?_, fun hd => ?_⟩
    · rw [hexec, if_pos hd]
      rfl
    · rw [hexec, if_neg (Bool.eq_false_iff.mp hd)]
      rfl

end Sys2Proof.Machine
end

section
/-! SUPPORT. Control records that execute: DEFINE_STREAM, READ_STREAM and BIND_SLOT with their whole next states (R19, R20,
R23, R24, R144 to R146). -/

namespace Sys2Proof.Machine

open Sys2Proof

/-! ### A record that completes in the step that executes it -/

/-- A record of an idle control unit completes with its count, detail and CHAIN_HIT; its stamps are those of any state with
the same frame counters (R48, R49). -/
theorem finishControl_idle {s u : State} {q : Fin 4} {pos : Nat} {h : Header} {body : ControlRec} {c : CtlState}
    (hh : (u.queue q).head = .control pos h body c) (hidle : u.cu.work = none)
    (ha : u.portA.fcount = s.portA.fcount) (hb : u.portB.fcount = s.portB.fcount) (st : Status) (count : Nat)
    (detail : Detail) (hit : Bool) : finishControl q st count detail hit u =
      completeHead q { completion s q h st with count := count, detail := detail, chainHit := hit } u := by
  have hcu : { u with cu := { u.cu with work := none } } = u := by rw [← hidle]
  rw [finishControl_eq hh, hcu, completion_congr ha hb]

theorem parkControl_idle {u : State} {q : Fin 4} {pos : Nat} {h : Header} {body : ControlRec} {c : CtlState}
    (hh : (u.queue q).head = .control pos h body c) (hidle : u.cu.work = none) :
    parkControl q u = u.setHead q (.control pos h body .parked) := by
  have hcu : { u with cu := { u.cu with work := none } } = u := by rw [← hidle]
  rw [parkControl_eq hh, hcu]

/-! ### DEFINE_STREAM (R19, R20) -/

theorem placementMeets_iff (s : State) (n : Fin 48) (base length : Nat) : placementMeets s n base length = true ↔
    ∃ m : Fin 48, m ≠ n ∧ (s.stream m).defined = true ∧ base < (s.stream m).base + (s.stream m).length ∧
      (s.stream m).base < base + length := by
  simp [placementMeets, streamIds, rangesMeet, and_assoc]

/-- Writing 0 to words inside the store clears them and no other word. -/
theorem storeRead_storeWriteAll_zero (ws : List (Nat × Sample)) {m : Store} (hm : storeWf m = true)
    (hin : ∀ x ∈ ws, x.1 < Config.storeWords) (hzero : ∀ x ∈ ws, x.2 = 0) (a : Nat) :
    storeRead (storeWriteAll m ws) a = if a ∈ ws.map Prod.fst then 0 else storeRead m a := by
  induction ws generalizing m with
  | nil => simp [storeWriteAll]
  | cons x rest ih =>
    obtain ⟨k, v⟩ := x
    obtain rfl : v = 0 := hzero (k, v) List.mem_cons_self
    have hk : k < Config.storeWords := hin (k, 0) List.mem_cons_self
    rw [storeWriteAll, ih (storeWf_storeWrite 0 hm hk) (fun x hx => hin x (List.mem_cons_of_mem _ hx))
      (fun x hx => hzero x (List.mem_cons_of_mem _ hx)), storeRead_storeWrite hm]
    by_cases hak : a = k <;> by_cases hrest : a ∈ rest.map Prod.fst <;> simp [hak, hrest]

/-- A definition clears the words of its history, the last of the ring. -/
theorem mem_historyZeroes_iff {base length hist : Nat} (hring : base + length ≤ 32768) (hhist : hist ≤ length) (a : Nat) :
    a ∈ (historyZeroes base length hist).map Prod.fst ↔ base + (length - hist) ≤ a ∧ a < base + length := by
  simp only [historyZeroes, List.map_map, List.mem_map, List.mem_range, Function.comp_apply]
  have hword (i : Nat) (hi : i < hist) : (base + (length - hist + i)) % Config.storeWords = base + (length - hist + i) :=
    Nat.mod_eq_of_lt (by rw [Config.storeWords]; omega)
  constructor
  · rintro ⟨i, hi, rfl⟩
    rw [hword i hi]
    omega
  · rintro ⟨hlo, hhi⟩
    refine ⟨a - (base + (length - hist)), by omega, ?_⟩
    rw [hword _ (by omega)]
    omega

/-- A definition whose placement is clear sets the stream, its history words and a notice, and completes OK (R20). -/
theorem execDefine_of_clear {s e : State} {q : Fin 4} {pos : Nat} {h : Header} {body : ControlRec} {c : CtlState}
    (hh : (e.queue q).head = .control pos h body c) (hidle : e.cu.work = none)
    (ha : e.portA.fcount = s.portA.fcount) (hb : e.portB.fcount = s.portB.fcount) {n : Fin 48} {base length : Nat}
    (hclear : placementMeets e n base length = false) (hfree : (e.stream n).defined = false) (hist : Nat)
    (producer : Producer) (consumer : Consumer) (policy : OverrunPolicy) (idle : Sample) :
    execDefine q n base length hist producer consumer policy idle e = completeHead q (completion s q h .ok)
      ({ e with store := storeWriteAll e.store (historyZeroes base length hist), notices := e.notices ++ [n] }.setStream n
        (definedStream base length hist producer consumer policy idle)) := by
  have hhead : ((notify ({ e with store := storeWriteAll e.store (historyZeroes base length hist) }.setStream n
      (definedStream base length hist producer consumer policy idle)) n).queue q).head = .control pos h body c := hh
  have hdone := finishControl_of_idle hhead hidle ha hb .ok
  rw [execDefine, if_neg (by rw [hclear]; exact Bool.false_ne_true), if_neg (by rw [hfree]; exact Bool.false_ne_true),
    hdone]
  rfl

/-- Settles O41: the two refusals, and the definition with its store word by word. -/
theorem defineStreamRule : Obligations.DefineStreamRule := by
  rintro s q pos h n base length hist producer consumer policy idle body e rfl hs rfl
  have hexec := exec_controlSelect_of_selects hs
  have hmeets : placementMeets (executing q pos h (.defineStream n base length hist producer consumer policy idle) s) n
      base length = placementMeets s n base length := rfl
  refine ⟨fun hoverlap => ?overlap, fun hclear => ⟨fun hdef => ?exists_, fun hfree => ?defined⟩⟩
  case overlap =>
    rw [hexec, executeControl, execDefine, hmeets, if_pos ((placementMeets_iff ..).mpr hoverlap)]
    exact congrArg _ (finishControl_of_idle (executing_head ..) rfl rfl rfl _)
  case exists_ =>
    rw [hexec, executeControl, execDefine, hmeets, if_neg (mt (placementMeets_iff ..).mp hclear), if_pos (by exact hdef)]
    exact congrArg _ (finishControl_of_idle (executing_head ..) rfl rfl rfl _)
  case defined =>
    refine ⟨storeWriteAll s.store (historyZeroes base length hist), ?_, fun hstore hring hhist a => ?_⟩
    · have hmeets' := hmeets.trans (Bool.eq_false_iff.mpr (mt (placementMeets_iff s n base length).mp hclear))
      rw [hexec, executeControl]
      exact congrArg _ (execDefine_of_clear (executing_head ..) rfl rfl rfl hmeets' hfree ..)
    · have hzero : ∀ x ∈ historyZeroes base length hist, x.2 = 0 := by
        simp only [historyZeroes, List.mem_map, forall_exists_index, and_imp]
        rintro x i - rfl
        rfl
      rw [storeRead_storeWriteAll_zero _ hstore (historyZeroes_lt base length hist) hzero]
      exact if_congr (mem_historyZeroes_iff hring hhist a) rfl rfl

/-! ### READ_STREAM: the layout of the snapshot (R189) -/

/-- The bytes of a snapshot, one by one. -/
theorem snapshotBytes_eq (n : Fin 48) (r : StreamRec) : snapshotBytes n r =
    [byteOf n.val, 1, byteOf (producerCode r.producer), byteOf (consumerCode r.consumer),
      (BitVec.ofNat 16 r.base).extractLsb' 0 8, (BitVec.ofNat 16 r.base).extractLsb' 8 8,
      (BitVec.ofNat 16 r.length).extractLsb' 0 8, (BitVec.ofNat 16 r.length).extractLsb' 8 8,
      byteOf r.hist, byteOf (overrunPolicyCode r.policy), r.idle.extractLsb' 0 8, r.idle.extractLsb' 8 8,
      (BitVec.ofNat 16 r.wrpos).extractLsb' 0 8, (BitVec.ofNat 16 r.wrpos).extractLsb' 8 8,
      (BitVec.ofNat 16 r.rdpos).extractLsb' 0 8, (BitVec.ofNat 16 r.rdpos).extractLsb' 8 8,
      (BitVec.ofNat 16 r.fill).extractLsb' 0 8, (BitVec.ofNat 16 r.fill).extractLsb' 8 8,
      (BitVec.ofNat 16 (freeSpace r)).extractLsb' 0 8, (BitVec.ofNat 16 (freeSpace r)).extractLsb' 8 8,
      (BitVec.ofNat 16 r.ovrcnt).extractLsb' 0 8, (BitVec.ofNat 16 r.ovrcnt).extractLsb' 8 8,
      (BitVec.ofNat 16 r.undcnt).extractLsb' 0 8, (BitVec.ofNat 16 r.undcnt).extractLsb' 8 8,
      byteOf (bit r.ovrarm + 2 * bit r.undarm + 4 * bit r.claimed), mirrorByte r.rxbind, mirrorByte r.txbind, 0,
      (r.stamp.extractLsb' 0 16).extractLsb' 0 8, (r.stamp.extractLsb' 0 16).extractLsb' 8 8,
      (r.stamp.extractLsb' 16 16).extractLsb' 0 8, (r.stamp.extractLsb' 16 16).extractLsb' 8 8] := by
  simp only [snapshotBytes, bytes32, bytesOfHalf, bytes16, List.cons_append, List.nil_append]

/-- The fields of a mirror's byte. -/
theorem mirrorByte_fields (m : BindMirror) : (mirrorByte (some m)).toNat % 32 = m.slot.val ∧
    (mirrorByte (some m)).toNat / 32 % 2 = portCode m.port ∧ (mirrorByte (some m)).toNat / 64 = bindPhaseCode m.phase := by
  have hport : portCode m.port ≤ 1 := by cases m.port <;> simp [portCode]
  have hphase : bindPhaseCode m.phase ≤ 3 := by cases m.phase <;> simp [bindPhaseCode]
  have hslot := m.slot.isLt
  rw [mirrorByte, byteOf_toNat (by omega)]
  omega

theorem producerCode_lt (x : Producer) : producerCode x < 256 := by cases x <;> simp [producerCode]

theorem consumerCode_lt (x : Consumer) : consumerCode x < 256 := by cases x <;> simp [consumerCode]

theorem overrunPolicyCode_lt (x : OverrunPolicy) : overrunPolicyCode x < 256 := by cases x <;> simp [overrunPolicyCode]

/-- The two arming bits and CLAIMED in one byte. -/
theorem streamFlags_toNat (a b c : Bool) :
    (byteOf (bit a + 2 * bit b + 4 * bit c)).toNat = a.toNat + 2 * b.toNat + 4 * c.toNat := by
  cases a <;> cases b <;> cases c <;> rfl

/-- Settles O43: the layout byte by byte, the capture, and the two answers. -/
theorem readStreamRule : Obligations.ReadStreamRule := by
  refine ⟨?layout, ?capture, ?answers⟩
  case layout =>
    rintro n r hbase hlength hhist hwrpos hrdpos hfill hovr hund bs rfl
    have hat (k : Nat) : byteAt (snapshotBytes n r) k = _ := congrArg (byteAt · k) (snapshotBytes_eq n r)
    have num {k m : Nat} (hbyte : byteAt (snapshotBytes n r) k = byteOf m) (hm : m < 256) :
        num8 (snapshotBytes n r) k = m := by rw [num8, hbyte, byteOf_toNat hm]
    have hfree : freeSpace r < 2 ^ 16 := by unfold freeSpace; omega
    have hn := n.isLt
    refine ⟨by rw [snapshotBytes_eq]; rfl, num (hat 0) (by omega), num (hat 1) (by omega),
      num (hat 2) (producerCode_lt r.producer), num (hat 3) (consumerCode_lt r.consumer),
      num16_of_half (half_of_bytes (hat 4) (hat 5)) hbase, num16_of_half (half_of_bytes (hat 6) (hat 7)) hlength,
      num (hat 8) hhist, num (hat 9) (overrunPolicyCode_lt r.policy), half_of_bytes (hat 10) (hat 11),
      num16_of_half (half_of_bytes (hat 12) (hat 13)) hwrpos, num16_of_half (half_of_bytes (hat 14) (hat 15)) hrdpos,
      num16_of_half (half_of_bytes (hat 16) (hat 17)) hfill, num16_of_half (half_of_bytes (hat 18) (hat 19)) hfree,
      num16_of_half (half_of_bytes (hat 20) (hat 21)) hovr, num16_of_half (half_of_bytes (hat 22) (hat 23)) hund,
      (congrArg BitVec.toNat (hat 24)).trans (streamFlags_toNat ..), fun hrx => ?_, fun htx => ?_, fun m hrx => ?_,
      fun m htx => ?_, num (hat 27) (by omega),
      word_of_halves (half_of_bytes (hat 28) (hat 29)) (half_of_bytes (hat 30) (hat 31))⟩
    · exact (congrArg BitVec.toNat (hat 25)).trans (by rw [hrx]; rfl)
    · exact (congrArg BitVec.toNat (hat 26)).trans (by rw [htx]; rfl)
    · have hnum : num8 (snapshotBytes n r) 0x19 = (mirrorByte (some m)).toNat := by rw [← hrx]; exact congrArg BitVec.toNat (hat 25)
      rw [hnum]
      exact mirrorByte_fields m
    · have hnum : num8 (snapshotBytes n r) 0x1A = (mirrorByte (some m)).toNat := by rw [← htx]; exact congrArg BitVec.toNat (hat 26)
      rw [hnum]
      exact mirrorByte_fields m
  case capture =>
    rintro s q pos h n addr rearm e hs rfl
    have hexec := exec_controlSelect_of_selects hs
    refine ⟨fun hfree => ?_, fun hdef => ?_⟩
    · rw [hexec, executeControl, execRead, if_neg (by rw [stream_executing, hfree]; exact Bool.false_ne_true)]
      exact congrArg _ (finishControl_of_idle (executing_head ..) rfl rfl rfl _)
    · rw [hexec, executeControl, execRead, if_pos (by exact hdef)]
      rfl
  case answers =>
    rintro s q n addr rearm bytes pos h body st u ha hwork hh rfl
    refine ⟨?_, ?_, ?_⟩
    · rintro rfl
      simp only [exec, execSnapshotWriteAnswer, taken_eq ha, hwork, if_true]
      exact congrArg _ (congrArg checkDrain (finishControl_eq (by exact hh) _ _ _ _))
    · rintro rfl
      simp only [exec, execSnapshotWriteAnswer, taken_eq ha, hwork, if_true]
      exact congrArg _ (congrArg checkDrain (finishControl_eq hh _ _ _ _))
    · simp only [exec, execSnapshotWriteAnswer, taken_eq ha, hwork, if_false, Bool.false_eq_true]
      exact congrArg _ (congrArg checkDrain (finishControl_eq hh _ _ _ _))

/-! ### BIND_SLOT: mirrors over ports (R26) -/

theorem setMirror_setMirror (n : Fin 48) (dir : Dir) (m m' : Option BindMirror) (s : State) :
    setMirror n dir m (setMirror n dir m' s) = setMirror n dir m s := by
  cases dir <;> simp [setMirror]

theorem setPort_setMirror (p : PortId) (r : PortRec) (n : Fin 48) (dir : Dir) (m : Option BindMirror) (s : State) :
    (setMirror n dir m s).setPort p r = setMirror n dir m (s.setPort p r) := by
  cases dir <;> cases p <;> rfl

@[simp] theorem setMirror_port (n : Fin 48) (dir : Dir) (m : Option BindMirror) (s : State) (p : PortId) :
    (setMirror n dir m s).port p = s.port p := by
  cases dir <;> cases p <;> rfl

@[simp] theorem setMirror_queue (n : Fin 48) (dir : Dir) (m : Option BindMirror) (s : State) (q : Fin 4) :
    (setMirror n dir m s).queue q = s.queue q := by
  cases dir <;> rfl

@[simp] theorem setMirror_cu (n : Fin 48) (dir : Dir) (m : Option BindMirror) (s : State) : (setMirror n dir m s).cu = s.cu := by
  cases dir <;> rfl

@[simp] theorem PortRec.slot_setSlot_self (r : PortRec) (j : Fin 32) (x : Slot) : (r.setSlot j x).slot j = x := by
  simp [PortRec.slot, PortRec.setSlot]

@[simp] theorem PortRec.setSlot_setSlot (r : PortRec) (j : Fin 32) (x y : Slot) :
    (r.setSlot j x).setSlot j y = r.setSlot j y := by
  simp [PortRec.setSlot]

section

variable {s : State} {p : PortId} {j : Fin 32}

/-- A binding that is applied at once is the CURRENT one, with its mirror (R26, R146). -/
theorem applyNow_bind (q : Fin 4) (dir : Dir) (n : Fin 48) :
    applyNow p j (.bind dir n) q s = setMirror n dir (some ⟨p, j, .current⟩)
      (s.setPort p ((s.port p).setSlot j { current := some (dir, n), pending := none })) := by
  simp only [applyNow, recordPending, applySlot, setMirror_port, State.port_setPort_self, PortRec.slot_setSlot_self,
    PortRec.setSlot_setSlot, setPort_setMirror, setMirror_setMirror, State.setPort_setPort]

/-- A binding that is removed at once leaves the slot free, and no mirror (R26, R146). -/
theorem applyNow_unbind (q : Fin 4) {dir : Dir} {n : Fin 48} (hcur : ((s.port p).slot j).current = some (dir, n)) :
    applyNow p j .unbind q s = setMirror n dir none (s.setPort p ((s.port p).setSlot j Slot.free)) := by
  simp only [applyNow, recordPending, applySlot, hcur, setMirror_port, State.port_setPort_self, PortRec.slot_setSlot_self,
    PortRec.setSlot_setSlot, setPort_setMirror, setMirror_setMirror, State.setPort_setPort]

theorem recordPending_unbind (q : Fin 4) {dir : Dir} {n : Fin 48} (hcur : ((s.port p).slot j).current = some (dir, n)) :
    recordPending p j .unbind q s = setMirror n dir (some ⟨p, j, .unbinding⟩)
      (s.setPort p ((s.port p).setSlot j { (s.port p).slot j with pending := some (.unbind q) })) := by
  simp only [recordPending, hcur]

/-- A slot change and a mirror leave the frame counters. -/
theorem setMirror_setSlot_fcount (n : Fin 48) (dir : Dir) (m : Option BindMirror) (x : Slot) :
    (setMirror n dir m (s.setPort p ((s.port p).setSlot j x))).portA.fcount = s.portA.fcount ∧
    (setMirror n dir m (s.setPort p ((s.port p).setSlot j x))).portB.fcount = s.portB.fcount := by
  cases dir <;> cases p <;> exact ⟨rfl, rfl⟩

end

/-! ### The checks in order (R144) -/

section

variable {s : State} {p : PortId} {j : Fin 32}

theorem bindStatus_of_off {action : BindAction} (h : (s.port p).lock = .off) : bindStatus s p j action = .portOff := by
  simp [bindStatus, h]

theorem bindStatus_of_no_slot {action : BindAction} (h : (s.port p).lock ≠ .off) (hj : (s.port p).slots ≤ j.val) :
    bindStatus s p j action = .badRecord := by
  simp [bindStatus, h, hj]

/-- The checks of a BIND on a slot the port has. -/
theorem bindStatus_bind (h : (s.port p).lock ≠ .off) (hj : j.val < (s.port p).slots) (dir : Dir) (n : Fin 48) :
    bindStatus s p j (.bind dir n) =
      if (s.stream n).defined = false then .noStream
      else if bindKindOk (s.stream n) dir = false then .wrongEndpoint
      else if ((s.port p).slot j).current ≠ none ∨ ((s.port p).slot j).pending ≠ none then .slotBusy
      else if mirror (s.stream n) dir ≠ none then .bound
      else .ok := by
  simp [bindStatus, h, Nat.not_le.mpr hj, Option.isSome_iff_ne_none]

/-- The checks of an UNBIND on a slot the port has. -/
theorem bindStatus_unbind (h : (s.port p).lock ≠ .off) (hj : j.val < (s.port p).slots) :
    bindStatus s p j .unbind =
      if ((s.port p).slot j).current = none then .notFound
      else if ((s.port p).slot j).pending ≠ none then .slotBusy
      else .ok := by
  simp [bindStatus, h, Nat.not_le.mpr hj, Option.isSome_iff_ne_none]

end

section

variable {s : State} {q : Fin 4} {pos : Nat} {h : Header} {p : PortId} {j : Fin 32} {action : BindAction}

/-- A failing check completes the record and changes no slot and no mirror (R144). -/
theorem bindSlot_refused (hs : Selects s q pos h (.bindSlot p j action)) {st : Status} (hne : st ≠ .ok)
    (hst : bindStatus s p j action = st) : exec .controlSelect s =
      .next (completeHead q (completion s q h st) (executing q pos h (.bindSlot p j action) s)) := by
  have hst' : bindStatus (executing q pos h (.bindSlot p j action) s) p j action = st := hst
  have hrefused : execBind q p j action (executing q pos h (.bindSlot p j action) s) =
      finishControl q st 0 .none false (executing q pos h (.bindSlot p j action) s) := by
    unfold execBind
    rw [hst']
    cases st with
    | ok => exact absurd rfl hne
    | _ => rfl
  rw [exec_controlSelect_of_selects hs, executeControl, hrefused]
  exact congrArg _ (finishControl_of_idle (executing_head ..) rfl rfl rfl _)

/-- On a LOCKED port the change is recorded pending and the record parks (R145). -/
theorem bindSlot_parks (hs : Selects s q pos h (.bindSlot p j action)) (hst : bindStatus s p j action = .ok)
    (hlock : (s.port p).lock = .locked) : exec .controlSelect s =
      .next ((recordPending p j action q (executing q pos h (.bindSlot p j action) s)).setHead q
        (.control pos h (.bindSlot p j action) .parked)) := by
  have hport : (executing q pos h (.bindSlot p j action) s).port p = s.port p := State.port_setHead ..
  have hst' : bindStatus (executing q pos h (.bindSlot p j action) s) p j action = .ok := hst
  have hparked : execBind q p j action (executing q pos h (.bindSlot p j action) s) =
      parkControl q (recordPending p j action q (executing q pos h (.bindSlot p j action) s)) := by
    unfold execBind
    rw [hst', hport]
    exact if_pos hlock
  have hchanges := recordPending_changes p j action q (executing q pos h (.bindSlot p j action) s)
  rw [exec_controlSelect_of_selects hs, executeControl, hparked,
    parkControl_idle ((congrArg QueueRec.head (hchanges.queue rfl q)).trans (executing_head ..))
      (congrArg ControlUnit.work (hchanges.cu rfl))]

/-- On a HUNTING port the change is applied at once and the record completes OK (R146). -/
theorem bindSlot_applies (hs : Selects s q pos h (.bindSlot p j action)) (hst : bindStatus s p j action = .ok)
    (hlock : (s.port p).lock = .hunting) {n : Fin 48} {dir : Dir} {m : Option BindMirror} {x : Slot}
    (hnow : applyNow p j action q (executing q pos h (.bindSlot p j action) s) = setMirror n dir m
      ((executing q pos h (.bindSlot p j action) s).setPort p ((s.port p).setSlot j x))) :
    exec .controlSelect s = .next (completeHead q (completion s q h .ok) (setMirror n dir m
      ((executing q pos h (.bindSlot p j action) s).setPort p ((s.port p).setSlot j x)))) := by
  have hport : (executing q pos h (.bindSlot p j action) s).port p = s.port p := State.port_setHead ..
  have hst' : bindStatus (executing q pos h (.bindSlot p j action) s) p j action = .ok := hst
  have happlied : execBind q p j action (executing q pos h (.bindSlot p j action) s) =
      finishControl q .ok 0 .none false (applyNow p j action q (executing q pos h (.bindSlot p j action) s)) := by
    unfold execBind
    rw [hst', hport]
    exact if_neg (by rw [hlock]; exact LockState.noConfusion)
  obtain ⟨hA, hB⟩ := setMirror_setSlot_fcount (s := executing q pos h (.bindSlot p j action) s) (p := p) (j := j) n dir m x
  rw [hport] at hA hB
  rw [exec_controlSelect_of_selects hs, executeControl, happlied, hnow]
  refine congrArg _ (finishControl_of_idle (s := s) (pos := pos) (body := .bindSlot p j action) (c := .executing)
    ?_ ?_ hA hB _)
  · rw [setMirror_queue, State.queue_setPort]
    exact executing_head ..
  · rw [setMirror_cu, State.setPort_cu]
    rfl

end

/-- Settles O44: the two mirrors, a refusal, the checks in order, and both accepted changes by the port's LOCK. -/
theorem bindSlotRule : Obligations.BindSlotRule := by
  refine ⟨fun x n m s => ⟨rfl, rfl, rfl, rfl⟩, ?_⟩
  rintro s q pos h p j action e r hs rfl rfl
  have hport : (executing q pos h (.bindSlot p j action) s).port p = s.port p := State.port_setHead ..
  refine ⟨fun st hne hst => bindSlot_refused hs hne hst, bindStatus_of_off, bindStatus_of_no_slot,
    fun x => ⟨by simp [bindKindOk], by simp [bindKindOk]⟩, ?bind, ?unbind⟩
  case bind =>
    rintro dir n rfl hlock hj
    have hst := bindStatus_bind hlock hj dir n
    refine ⟨fun hfree => ?_, fun hdef hkind => ?_, fun hdef hkind => ⟨fun hbusy => ?_, fun hcur hpend =>
      ⟨fun hbound => ?_, fun hnone => ⟨fun hlocked => ?_, fun hhunting => ?_⟩⟩⟩⟩
    · rw [hst, if_pos hfree]
    · rw [hst, if_neg (by simp [hdef]), if_pos hkind]
    · rw [hst, if_neg (by simp [hdef]), if_neg (by simp [hkind]), if_pos hbusy]
    · rw [hst, if_neg (by simp [hdef]), if_neg (by simp [hkind]), if_neg (by simp [hcur, hpend]), if_pos hbound]
    · have hok : bindStatus s p j (.bind dir n) = .ok := by simp [hst, hdef, hkind, hcur, hpend, hnone]
      rw [bindSlot_parks hs hok hlocked, recordPending, hport, ← hcur]
    · have hok : bindStatus s p j (.bind dir n) = .ok := by simp [hst, hdef, hkind, hcur, hpend, hnone]
      exact bindSlot_applies hs hok hhunting (by rw [applyNow_bind, hport])
  case unbind =>
    rintro rfl hlock hj
    have hst := bindStatus_unbind hlock hj
    refine ⟨fun hcur => ?_, fun hcur hpend => ?_, fun dir n hcur hpend => ⟨fun hlocked => ?_, fun hhunting => ?_⟩⟩
    · rw [hst, if_pos hcur]
    · rw [hst, if_neg hcur, if_pos hpend]
    · have hok : bindStatus s p j .unbind = .ok := by simp [hst, hcur, hpend]
      rw [bindSlot_parks hs hok hlocked, recordPending_unbind q (by rw [hport]; exact hcur), hport, ← hcur]
    · have hok : bindStatus s p j .unbind = .ok := by simp [hst, hcur, hpend]
      exact bindSlot_applies hs hok hhunting (by rw [applyNow_unbind q (by rw [hport]; exact hcur), hport]; rfl)

end Sys2Proof.Machine
end

section
/-! SUPPORT. CHAIN_CONTROL: the lookup of an address, the pin count, and the whole next state of each action (R78, R87 to
R93). -/

namespace Sys2Proof.Machine

open Sys2Proof

/-! ### Lookup (R80) -/

theorem entryIds_nodup : entryIds.Nodup := by simp [entryIds]

theorem mem_entryIds (e : Fin 8) : e ∈ entryIds := by fin_cases e <;> simp [entryIds]

theorem findEntry_eq_none_iff (s : State) (addr : Word) :
    findEntry s addr = none ↔ ∀ x : Fin 8, (s.entry x).estate ≠ .empty → (s.entry x).addr ≠ addr := by
  simp [findEntry, List.find?_eq_none, mem_entryIds]

/-- The entry found holds the address. -/
theorem findEntry_some {s : State} {addr : Word} {x : Fin 8} (h : findEntry s addr = some x) :
    (s.entry x).estate ≠ .empty ∧ (s.entry x).addr = addr := by
  simpa using List.find?_some h

/-- The one entry that holds an address is found. -/
theorem findEntry_of_unique {s : State} {addr : Word} {x : Fin 8} (hx : (s.entry x).estate ≠ .empty)
    (haddr : (s.entry x).addr = addr)
    (hunique : ∀ y : Fin 8, (s.entry y).estate ≠ .empty → (s.entry y).addr = addr → y = x) :
    findEntry s addr = some x := by
  cases hf : findEntry s addr with
  | none => exact absurd haddr ((findEntry_eq_none_iff s addr).mp hf x hx)
  | some y =>
    obtain ⟨hy, hyaddr⟩ := findEntry_some hf
    rw [hunique y hy hyaddr]

theorem requested_iff (s : State) (addr : Word) : requested s addr = true ↔ ∃ r ∈ s.cache.reqs, r.addr = addr := by
  simp [requested]

theorem placeFree_iff (s : State) (p : Place) : placeFree s p = true ↔ ∀ r ∈ s.cache.reqs, r.place ≠ p := by
  simp [placeFree]

theorem requested_eq_false_iff (s : State) (addr : Word) :
    requested s addr = false ↔ ∀ r ∈ s.cache.reqs, r.addr ≠ addr := by
  simp [requested]

theorem placeFree_eq_false_iff (s : State) (p : Place) : placeFree s p = false ↔ ∃ r ∈ s.cache.reqs, r.place = p := by
  simp [placeFree]

/-! ### Pins (R87) -/

theorem pendingPin_eq_some_iff (h : Head) (a : Word) :
    pendingPin h = some a ↔ ∃ pos hd, h = .control pos hd (.chainControl .loadPin a) .parked := by
  unfold pendingPin
  split
  · next pos hd addr =>
    simp only [Option.some.injEq, Head.control.injEq, ControlRec.chainControl.injEq, true_and, and_true]
    exact ⟨fun h => ⟨pos, hd, rfl, rfl, h⟩, fun ⟨_, _, _, _, h⟩ => h⟩
  · next hnot =>
    simp only [reduceCtorEq, false_iff]
    rintro ⟨pos, hd, rfl⟩
    exact hnot _ _ _ rfl

theorem mem_pendingPins_iff (s : State) (a : Word) : a ∈ pendingPins s ↔
    ∃ q pos h, (s.queue q).head = .control pos h (.chainControl .loadPin a) .parked := by
  simp only [pendingPins, List.mem_dedup, List.mem_filterMap, mem_queueIds, true_and, pendingPin_eq_some_iff]

theorem pinnedAt_eq_false_iff (s : State) (a : Word) :
    pinnedAt s a = false ↔ ∀ x : Fin 8, (s.entry x).pinned = true → (s.entry x).addr ≠ a := by
  simp [pinnedAt, mem_entryIds]

theorem pinCount_eq (s : State) : pinCount s = (entryIds.filter (fun x => (s.entry x).pinned)).length +
    ((pendingPins s).filter
      (fun a => decide (∀ x : Fin 8, (s.entry x).pinned = true → (s.entry x).addr ≠ a))).length := by
  have hsame : (pendingPins s).filter (fun a => !pinnedAt s a) = (pendingPins s).filter
      (fun a => decide (∀ x : Fin 8, (s.entry x).pinned = true → (s.entry x).addr ≠ a)) := by
    refine List.filter_congr fun a _ => ?_
    rw [Bool.eq_iff_iff, decide_eq_true_iff, ← pinnedAt_eq_false_iff, Bool.not_eq_true']
  rw [pinCount, hsame]

/-- A new pin is refused beyond the limit (R87, R91). -/
theorem pinRefused_eq_false_iff (s : State) (pin : Bool) (addr : Word) :
    pinRefused s pin addr = false ↔ (pin = true → addr ∈ pendingPins s ∨ pinCount s < 7) := by
  have hmax : Config.maxPins = 7 := rfl
  cases pin with
  | false => simp [pinRefused]
  | true =>
    simp only [pinRefused, hmax, Bool.true_and, Bool.and_eq_false_iff, Bool.not_eq_false', List.contains_iff_mem,
      decide_eq_false_iff_not, Nat.not_le, forall_const]

/-! ### The executing state -/

section

variable {s : State} {q : Fin 4} {pos : Nat} {h : Header} {body : ControlRec}

theorem pendingPins_executing (hh : (s.queue q).head = .control pos h body .controlWait) :
    pendingPins (executing q pos h body s) = pendingPins s := by
  have hpin : ∀ k : Fin 4, pendingPin ((executing q pos h body s).queue k).head = pendingPin (s.queue k).head := by
    intro k
    by_cases hk : k = q
    · subst hk
      rw [executing_head, hh]
      cases body with
      | chainControl action addr => cases action <;> rfl
      | _ => rfl
    · rw [executing_queue_ne s pos h body hk]
  simp only [pendingPins, hpin]

theorem pinCount_executing (hh : (s.queue q).head = .control pos h body .controlWait) :
    pinCount (executing q pos h body s) = pinCount s := by
  have hentry : ∀ x : Fin 8, (executing q pos h body s).entry x = s.entry x := fun _ => rfl
  have hpinned : ∀ a : Word, pinnedAt (executing q pos h body s) a = pinnedAt s a := fun _ => rfl
  simp only [pinCount, pendingPins_executing hh, hentry, hpinned]

theorem pinRefused_executing (hh : (s.queue q).head = .control pos h body .controlWait) (pin : Bool) (addr : Word) :
    pinRefused (executing q pos h body s) pin addr = pinRefused s pin addr := by
  simp only [pinRefused, pendingPins_executing hh, pinCount_executing hh]

end

/-! ### The branches of a LOAD (R90, R91) -/

section

variable {s : State} {q : Fin 4} {pin : Bool} {addr : Word}

section

variable {x : Fin 8}

theorem chainLoad_of_found (hf : findEntry s addr = some x) : chainLoad q pin addr s =
    if (s.entry x).stale then finishControl q .inUse 0 .none (decide ((s.entry x).estate = .valid)) s
    else if !(s.entry x).pinned && pinRefused s pin addr then
      finishControl q .pinLimit 0 .none (decide ((s.entry x).estate = .valid)) s
    else if decide ((s.entry x).estate = .valid) then
      finishControl q .ok 0 (.entry x) (decide ((s.entry x).estate = .valid))
        (touchEntry x (s.setEntry x { s.entry x with pinned := (s.entry x).pinned || pin }))
    else parkControl q (joinFill q s) := by
  unfold chainLoad
  rw [hf]

theorem chainLoad_of_stale (hf : findEntry s addr = some x) (hstale : (s.entry x).stale = true) :
    chainLoad q pin addr s = finishControl q .inUse 0 .none (decide ((s.entry x).estate = .valid)) s := by
  rw [chainLoad_of_found hf, hstale, if_pos rfl]

theorem chainLoad_of_refused_entry (hf : findEntry s addr = some x) (hstale : (s.entry x).stale = false)
    (hpinned : (s.entry x).pinned = false) (href : pinRefused s pin addr = true) :
    chainLoad q pin addr s = finishControl q .pinLimit 0 .none (decide ((s.entry x).estate = .valid)) s := by
  simp only [chainLoad_of_found hf, hstale, hpinned, href, Bool.not_false, Bool.and_self, Bool.false_eq_true, if_false, if_true]

theorem chainLoad_of_hit (hf : findEntry s addr = some x) (hstale : (s.entry x).stale = false)
    (hvalid : (s.entry x).estate = .valid) (hfits : pinRefused s pin addr = false ∨ (s.entry x).pinned = true) :
    chainLoad q pin addr s = finishControl q .ok 0 (.entry x) true
      (touchEntry x (s.setEntry x { s.entry x with pinned := (s.entry x).pinned || pin })) := by
  have hno : (!(s.entry x).pinned && pinRefused s pin addr) = false := by
    obtain h | h := hfits <;> simp [h]
  simp only [chainLoad_of_found hf, hstale, hno, hvalid, decide_true, if_true, if_false, Bool.false_eq_true]

theorem chainLoad_of_filling (hf : findEntry s addr = some x) (hstale : (s.entry x).stale = false)
    (hfill : (s.entry x).estate = .filling) (hfits : pinRefused s pin addr = false) :
    chainLoad q pin addr s = parkControl q (joinFill q s) := by
  simp only [chainLoad_of_found hf, hstale, hfits, hfill, Bool.and_false, reduceCtorEq, decide_false, Bool.false_eq_true, if_false]

end

theorem chainLoad_of_missed (hf : findEntry s addr = none) : chainLoad q pin addr s =
    if pinRefused s pin addr then finishControl q .pinLimit 0 .none false s
    else if requested s addr then parkControl q (joinRequest addr q s)
    else if placeFree s .control then parkControl q (placeRequest addr .control q s)
    else { s with cu := { s.cu with work := some (.placeWait q) } } := by
  unfold chainLoad
  rw [hf]

theorem chainLoad_of_refused (hf : findEntry s addr = none) (href : pinRefused s pin addr = true) :
    chainLoad q pin addr s = finishControl q .pinLimit 0 .none false s := by
  rw [chainLoad_of_missed hf, href, if_pos rfl]

theorem chainLoad_of_requested (hf : findEntry s addr = none) (href : pinRefused s pin addr = false)
    (hreq : requested s addr = true) : chainLoad q pin addr s = parkControl q (joinRequest addr q s) := by
  simp only [chainLoad_of_missed hf, href, hreq, Bool.false_eq_true, if_false, if_true]

theorem chainLoad_of_place (hf : findEntry s addr = none) (href : pinRefused s pin addr = false)
    (hreq : requested s addr = false) (hplace : placeFree s .control = true) :
    chainLoad q pin addr s = parkControl q (placeRequest addr .control q s) := by
  simp only [chainLoad_of_missed hf, href, hreq, hplace, Bool.false_eq_true, if_false, if_true]

theorem chainLoad_of_wait (hf : findEntry s addr = none) (href : pinRefused s pin addr = false)
    (hreq : requested s addr = false) (hplace : placeFree s .control = false) :
    chainLoad q pin addr s = { s with cu := { s.cu with work := some (.placeWait q) } } := by
  simp only [chainLoad_of_missed hf, href, hreq, hplace, Bool.false_eq_true, if_false]

end

/-! ### Invalidation (R88, R93) -/

theorem lruDrop_of_not_mem {s : State} {x : Fin 8} (h : x ∉ s.cache.lru) : lruDrop x s = s := by
  have hkeep : s.cache.lru.filter (fun y => y != x) = s.cache.lru :=
    List.filter_eq_self.mpr fun y hy => by
      simp only [bne_iff_ne, ne_eq]
      rintro rfl
      exact h hy
  rw [lruDrop, hkeep]

/-- The entries an invalidation of each of some entries leaves. -/
def invalidatedEntries (l : List (Fin 8)) (v : Vector Entry 8) : Vector Entry 8 :=
  l.foldl (fun v e => v.set e.val (invalidatedEntry v[e.val])) v

theorem invalidate_eq (e : Fin 8) (s : State) : invalidate e s = { s with cache := { s.cache with
    entries := s.cache.entries.set e.val (invalidatedEntry (s.entry e))
    lru := if (s.entry e).estate = .valid then s.cache.lru.filter (fun x => x != e) else s.cache.lru } } := by
  unfold invalidate
  dsimp only
  split <;> rfl

theorem invalidatedEntries_of_not_mem {l : List (Fin 8)} (v : Vector Entry 8) {e : Fin 8} (h : e ∉ l) :
    (invalidatedEntries l v)[e.val] = v[e.val] := by
  induction l generalizing v with
  | nil => rfl
  | cons k rest ih =>
    obtain ⟨hne, hrest⟩ := not_or.mp (mt List.mem_cons.mpr h)
    rw [invalidatedEntries, List.foldl_cons, ← invalidatedEntries, ih _ hrest]
    exact Vector.getElem_set_ne _ _ (fun heq => hne (Fin.ext heq.symm))

theorem invalidatedEntries_of_mem {l : List (Fin 8)} (hl : l.Nodup) (v : Vector Entry 8) {e : Fin 8} (h : e ∈ l) :
    (invalidatedEntries l v)[e.val] = invalidatedEntry v[e.val] := by
  induction l generalizing v with
  | nil => cases h
  | cons k rest ih =>
    obtain ⟨hk, hrest⟩ := List.nodup_cons.mp hl
    rw [invalidatedEntries, List.foldl_cons, ← invalidatedEntries]
    obtain rfl | hmem := List.mem_cons.mp h
    · rw [invalidatedEntries_of_not_mem _ hk]
      exact Vector.getElem_set_self _
    · rw [ih hrest _ hmem]
      have hne : k.val ≠ e.val := fun heq => hk (by rw [Fin.ext heq]; exact hmem)
      rw [Vector.getElem_set_ne _ _ hne]

/-- INVALIDATE_ALL changes each entry once and takes the VALID ones off the LRU list. -/
theorem invalidateAll_eq {l : List (Fin 8)} (hl : l.Nodup) (s : State) : invalidateAll l s =
    { s with cache := { s.cache with
      entries := invalidatedEntries l s.cache.entries
      lru := s.cache.lru.filter (fun x => !(l.contains x && decide ((s.entry x).estate = .valid))) } } := by
  induction l generalizing s with
  | nil => simp [invalidateAll, invalidatedEntries]
  | cons e rest ih =>
    obtain ⟨he, hrest⟩ := List.nodup_cons.mp hl
    have hother : ∀ x ∈ rest, (invalidate e s).entry x = s.entry x := by
      intro x hx
      have hne : x ≠ e := fun heq => he (heq ▸ hx)
      rw [invalidate_eq]
      exact State.entry_setEntry_ne s (invalidatedEntry (s.entry e)) hne
    have hlru : (invalidate e s).cache.lru =
        s.cache.lru.filter (fun x => !(decide (x = e) && decide ((s.entry x).estate = .valid))) := by
      rw [invalidate_eq]
      by_cases hv : (s.entry e).estate = .valid
      · refine (if_pos hv).trans (List.filter_congr fun x _ => ?_)
        by_cases hx : x = e
        · subst hx; simp [hv]
        · simp [hx]
      · refine (if_neg hv).trans (List.filter_eq_self.mpr fun x _ => ?_).symm
        by_cases hx : x = e
        · subst hx; simp [hv]
        · simp [hx]
    have hentries : (invalidate e s).cache.entries = s.cache.entries.set e.val (invalidatedEntry (s.entry e)) := by
      rw [invalidate_eq]
    rw [invalidateAll, ih hrest, hlru, hentries, List.filter_filter]
    have hfilter : s.cache.lru.filter (fun x => (!(rest.contains x && decide (((invalidate e s).entry x).estate = .valid))) &&
          !(decide (x = e) && decide ((s.entry x).estate = .valid))) =
        s.cache.lru.filter (fun x => !((e :: rest).contains x && decide ((s.entry x).estate = .valid))) := by
      refine List.filter_congr fun x _ => ?_
      by_cases hx : x ∈ rest
      · have hne : x ≠ e := fun heq => he (heq ▸ hx)
        simp [hx, hother x hx, hne]
      · by_cases hxe : x = e
        · subst hxe; simp [hx]
        · simp [hx, hxe]
    rw [hfilter, invalidate_eq]
    rfl

/-- What an invalidation leaves of an entry, by its state (R88). -/
theorem invalidatedEntry_eq (x : Entry) : invalidatedEntry x = match x.estate, x.stale, x.inuse with
    | .filling, _, _ => { x with stale := true }
    | .valid, false, true => { x with stale := true, pinned := false }
    | .valid, false, false => Entry.free
    | _, _, _ => x := by
  cases he : x.estate <;> cases hs : x.stale <;> cases hu : x.inuse <;> simp [invalidatedEntry, he, hs, hu]

theorem invalidate_of_filling {s : State} {x : Fin 8} (h : (s.entry x).estate = .filling) :
    invalidate x s = s.setEntry x { s.entry x with stale := true } := by
  simp [invalidate, invalidatedEntry, h]

theorem invalidate_of_valid {s : State} {x : Fin 8} (h : (s.entry x).estate = .valid) (hstale : (s.entry x).stale = false) :
    invalidate x s = lruDrop x (s.setEntry x
      (if (s.entry x).inuse then { s.entry x with stale := true, pinned := false } else Entry.free)) := by
  simp [invalidate, invalidatedEntry, h, hstale]

theorem invalidate_of_stale {s : State} {x : Fin 8} (h : (s.entry x).estate = .valid) (hstale : (s.entry x).stale = true)
    (hlru : x ∉ s.cache.lru) : invalidate x s = s := by
  have hsame : invalidatedEntry (s.entry x) = s.entry x := by simp [invalidatedEntry, h, hstale]
  rw [invalidate, hsame, State.setEntry_entry, if_pos h, lruDrop_of_not_mem hlru]

/-! ### The whole next states -/

section

variable {s : State} {q : Fin 4} {pos : Nat} {h : Header} {addr : Word} {action : ChainAction}

theorem exec_chainControl (hs : Selects s q pos h (.chainControl action addr)) : exec .controlSelect s =
    .next (chainControl q action addr (executing q pos h (.chainControl action addr) s)) :=
  exec_controlSelect_of_selects hs

/-- A completion of the executing record, after a change of the cache alone (R89). -/
theorem finishControl_cache (c : Cache) (st : Status) (count : Nat) (detail : Detail) (hit : Bool) :
    finishControl q st count detail hit { executing q pos h (.chainControl action addr) s with cache := c } =
      completeHead q { completion s q h st with count := count, detail := detail, chainHit := hit }
        { executing q pos h (.chainControl action addr) s with cache := c } :=
  finishControl_idle (s := s) (u := { executing q pos h (.chainControl action addr) s with cache := c })
    (executing_head s q pos h (.chainControl action addr)) rfl rfl rfl st count detail hit

theorem parkControl_cache (c : Cache) :
    parkControl q { executing q pos h (.chainControl action addr) s with cache := c } =
      { executing q pos h (.chainControl action addr) s with cache := c }.setHead q
        (.control pos h (.chainControl action addr) .parked) :=
  parkControl_idle (executing_head s q pos h (.chainControl action addr)) rfl

/-- A LOAD or LOAD_PIN of an address that an entry holds. -/
theorem chainLoad_found {pin fits : Bool} {x : Fin 8} (hs : Selects s q pos h (.chainControl action addr))
    (hfits : fits = true ↔ (pin = true → addr ∈ pendingPins s ∨ pinCount s < 7)) (hx : findEntry s addr = some x)
    {e : State} (he : e = executing q pos h (.chainControl action addr) s) :
    ((s.entry x).stale = true → chainLoad q pin addr e = completeHead q
      { completion s q h .inUse with chainHit := decide ((s.entry x).estate = .valid) } e) ∧
    ((s.entry x).stale = false → (s.entry x).estate = .valid → fits = true ∨ (s.entry x).pinned = true →
      chainLoad q pin addr e = completeHead q { completion s q h .ok with chainHit := true, detail := .entry x }
        (touchEntry x (e.setEntry x { s.entry x with pinned := (s.entry x).pinned || pin }))) ∧
    ((s.entry x).stale = false → fits = false → (s.entry x).pinned = false →
      chainLoad q pin addr e = completeHead q
        { completion s q h .pinLimit with chainHit := decide ((s.entry x).estate = .valid) } e) ∧
    ((s.entry x).stale = false → (s.entry x).estate = .filling → fits = true →
      chainLoad q pin addr e = (joinFill q e).setHead q (.control pos h (.chainControl action addr) .parked)) := by
  subst he
  have hpin := pinRefused_executing hs.head pin addr
  have hno : fits = true → pinRefused (executing q pos h (.chainControl action addr) s) pin addr = false := fun hf => by
    rw [hpin, pinRefused_eq_false_iff]
    exact hfits.mp hf
  have hyes : fits = false → pinRefused (executing q pos h (.chainControl action addr) s) pin addr = true := fun hf => by
    rw [← Bool.not_eq_false, hpin, pinRefused_eq_false_iff, ← hfits, hf]
    exact Bool.false_ne_true
  have hx' : findEntry (executing q pos h (.chainControl action addr) s) addr = some x := hx
  refine ⟨fun hstale => ?_, fun hstale hvalid hf => ?_, fun hstale hf hpinned => ?_, fun hstale hfill hf => ?_⟩
  · rw [chainLoad_of_stale hx' hstale]
    exact finishControl_cache ..
  · rw [chainLoad_of_hit hx' hstale hvalid (hf.imp hno id)]
    exact finishControl_cache ..
  · rw [chainLoad_of_refused_entry hx' hstale hpinned (hyes hf)]
    exact finishControl_cache ..
  · rw [chainLoad_of_filling hx' hstale hfill (hno hf)]
    exact parkControl_cache ..

/-- A LOAD or LOAD_PIN of an address that no entry holds. -/
theorem chainLoad_missed {pin fits : Bool} (hs : Selects s q pos h (.chainControl action addr))
    (hfits : fits = true ↔ (pin = true → addr ∈ pendingPins s ∨ pinCount s < 7)) (hx : findEntry s addr = none)
    {e : State} (he : e = executing q pos h (.chainControl action addr) s) :
    (fits = false → chainLoad q pin addr e = completeHead q (completion s q h .pinLimit) e) ∧
    (fits = true → (∃ r ∈ s.cache.reqs, r.addr = addr) →
      chainLoad q pin addr e = (joinRequest addr q e).setHead q (.control pos h (.chainControl action addr) .parked)) ∧
    (fits = true → (∀ r ∈ s.cache.reqs, r.addr ≠ addr) → (∀ r ∈ s.cache.reqs, r.place ≠ .control) →
      chainLoad q pin addr e =
        (placeRequest addr .control q e).setHead q (.control pos h (.chainControl action addr) .parked)) ∧
    (fits = true → (∀ r ∈ s.cache.reqs, r.addr ≠ addr) → (∃ r ∈ s.cache.reqs, r.place = .control) →
      chainLoad q pin addr e = { e with cu := { work := some (.placeWait q), last := q } }) := by
  subst he
  have hpin := pinRefused_executing hs.head pin addr
  have hno : fits = true → pinRefused (executing q pos h (.chainControl action addr) s) pin addr = false := fun hf => by
    rw [hpin, pinRefused_eq_false_iff]
    exact hfits.mp hf
  have hyes : fits = false → pinRefused (executing q pos h (.chainControl action addr) s) pin addr = true := fun hf => by
    rw [← Bool.not_eq_false, hpin, pinRefused_eq_false_iff, ← hfits, hf]
    exact Bool.false_ne_true
  have hx' : findEntry (executing q pos h (.chainControl action addr) s) addr = none := hx
  have hreqs : (executing q pos h (.chainControl action addr) s).cache.reqs = s.cache.reqs := rfl
  refine ⟨fun hf => ?_, fun hf hreq => ?_, fun hf hreq hplace => ?_, fun hf hreq hplace => ?_⟩
  · rw [chainLoad_of_refused hx' (hyes hf)]
    exact finishControl_cache ..
  · rw [chainLoad_of_requested hx' (hno hf) ((requested_iff ..).mpr (hreqs ▸ hreq))]
    exact parkControl_cache ..
  · rw [chainLoad_of_place hx' (hno hf) ((requested_eq_false_iff ..).mpr (hreqs ▸ hreq))
      ((placeFree_iff ..).mpr (hreqs ▸ hplace))]
    exact parkControl_cache ..
  · rw [chainLoad_of_wait hx' (hno hf) ((requested_eq_false_iff ..).mpr (hreqs ▸ hreq))
      ((placeFree_eq_false_iff ..).mpr (hreqs ▸ hplace))]
    rfl

/-- UNPIN and INVALIDATE of an address that an entry holds. -/
theorem chainEntry_found {x : Fin 8} (hx : findEntry s addr = some x) {e : State}
    (he : e = executing q pos h (.chainControl action addr) s) {done : CqRec}
    (hdone : done = { completion s q h .ok with detail := .entry x }) :
    ((s.entry x).estate = .valid → (s.entry x).stale = false → chainUnpin q addr e =
      completeHead q done (e.setEntry x { s.entry x with pinned := false })) ∧
    ((s.entry x).estate = .filling ∨ (s.entry x).stale = true → chainUnpin q addr e = completeHead q done e) ∧
    (chainInvalidate q addr e = completeHead q done (invalidate x e)) := by
  subst he hdone
  have hx' : findEntry (executing q pos h (.chainControl action addr) s) addr = some x := hx
  have hentry : (executing q pos h (.chainControl action addr) s).entry x = s.entry x := rfl
  refine ⟨fun hvalid hstale => ?_, fun hother => ?_, ?_⟩
  · simp only [chainUnpin, hx', hentry, hvalid, hstale, and_self, if_true]
    exact finishControl_cache ..
  · have hnot : ¬((s.entry x).estate = .valid ∧ (s.entry x).stale = false) := by
      rintro ⟨hv, hs⟩
      obtain h | h := hother
      · rw [hv] at h; cases h
      · rw [hs] at h; cases h
    simp only [chainUnpin, hx', hentry, if_neg hnot]
    exact finishControl_cache ..
  · simp only [chainInvalidate, hx', invalidate_eq]
    exact finishControl_cache ..

end

/-- Settles O45: the operations on the cache as written, then each action by the entry that holds its address. -/
theorem chainControlRule : Obligations.ChainControlRule := by
  refine ⟨fun s x q addr => ⟨fun hx => ?touched, fun hx => ?untouched, rfl, rfl, rfl, rfl⟩, fun s =>
    ⟨List.nodup_dedup _, fun a => mem_pendingPins_iff s a, pinCount_eq s⟩, rfl, ?_⟩
  case touched => rw [touchEntry, lruTouch, if_pos (List.contains_iff_mem.mpr hx)]
  case untouched => rw [touchEntry, lruTouch, if_neg (mt List.contains_iff_mem.mp hx)]
  rintro s q pos h action addr body e rfl hs rfl
  have hexec := exec_chainControl hs
  refine ⟨fun pin fits hact hfits => ⟨fun x hx haddr hunique => ?found, fun hnone => ?missed⟩, fun hact hnone => ?notFound,
    fun x hx haddr hunique done hdone => ?entry, fun hact => ?all⟩
  case found =>
    have hload : chainControl q action addr (executing q pos h (.chainControl action addr) s) =
        chainLoad q pin addr (executing q pos h (.chainControl action addr) s) := by
      rw [hact]
      cases pin <;> rfl
    obtain ⟨hstale, hhit, hrefused, hfilling⟩ := chainLoad_found hs hfits (findEntry_of_unique hx haddr hunique) rfl
    rw [hexec, hload]
    exact ⟨fun h1 => congrArg _ (hstale h1), fun h1 h2 h3 => congrArg _ (hhit h1 h2 h3),
      fun h1 h2 h3 => congrArg _ (hrefused h1 h2 h3), fun h1 h2 h3 => congrArg _ (hfilling h1 h2 h3)⟩
  case missed =>
    have hload : chainControl q action addr (executing q pos h (.chainControl action addr) s) =
        chainLoad q pin addr (executing q pos h (.chainControl action addr) s) := by
      rw [hact]
      cases pin <;> rfl
    obtain ⟨hrefused, hjoins, hplaces, hwaits⟩ := chainLoad_missed hs hfits ((findEntry_eq_none_iff s addr).mpr hnone) rfl
    rw [hexec, hload]
    exact ⟨fun h1 => congrArg _ (hrefused h1), fun h1 h2 => congrArg _ (hjoins h1 h2),
      fun h1 h2 h3 => congrArg _ (hplaces h1 h2 h3), fun h1 h2 h3 => congrArg _ (hwaits h1 h2 h3)⟩
  case notFound =>
    have hx : findEntry (executing q pos h (.chainControl action addr) s) addr = none :=
      (findEntry_eq_none_iff s addr).mpr hnone
    rw [hexec]
    obtain rfl | rfl := hact
    · simp only [chainControl, chainUnpin, hx]
      exact congrArg _ (finishControl_cache ..)
    · simp only [chainControl, chainInvalidate, hx]
      exact congrArg _ (finishControl_cache ..)
  case entry =>
    obtain ⟨hunpin, hkept, hinvalidate⟩ :=
      chainEntry_found (action := action) (q := q) (pos := pos) (h := h) (findEntry_of_unique hx haddr hunique) rfl hdone
    rw [hexec]
    refine ⟨?_, ?_, ?_, ?_, ?_⟩
    · rintro rfl hvalid hstale
      exact congrArg _ (hunpin hvalid hstale)
    · rintro rfl hother
      exact congrArg _ (hkept hother)
    · rintro rfl hfilling
      refine congrArg _ (hinvalidate.trans (congrArg _ ?_))
      exact invalidate_of_filling hfilling
    · rintro rfl hvalid hstale
      refine congrArg _ (hinvalidate.trans (congrArg _ ?_))
      exact invalidate_of_valid hvalid hstale
    · rintro rfl hvalid hstale hlru
      refine congrArg _ (hinvalidate.trans (congrArg _ ?_))
      exact invalidate_of_stale hvalid hstale hlru
  case all =>
    subst hact
    refine ⟨invalidatedEntries entryIds s.cache.entries, ?_, fun x => ?_⟩
    · have hlru : s.cache.lru.filter (fun x => !(entryIds.contains x && decide ((s.entry x).estate = .valid))) =
          s.cache.lru.filter (fun x => decide ((s.entry x).estate ≠ .valid)) := by
        refine List.filter_congr fun x _ => ?_
        simp [mem_entryIds]
      have hall := invalidateAll_eq (l := entryIds) entryIds_nodup (executing q pos h (.chainControl .invalidateAll addr) s)
      rw [hexec, chainControl, chainInvalidateAll, hall, ← hlru]
      exact congrArg _ (finishControl_cache ..)
    · rw [invalidatedEntries_of_mem entryIds_nodup _ (mem_entryIds x)]
      exact invalidatedEntry_eq (s.entry x)

end Sys2Proof.Machine
end

section
/-! SUPPORT. The operations on one head: what they do to a data or control head, and that they leave every other queue. -/

namespace Sys2Proof.Machine

open Sys2Proof

/-! ### Operations on a data head -/

section

variable {s : State} {q : Fin 4} {pos : Nat} {h : Header} {j : JobRec}

theorem setJob_of_data (hh : (s.queue q).head = .data pos h j) (j' : JobRec) : setJob q j' s = s.setHead q (.data pos h j') := by
  simp only [setJob, hh]

theorem headJob_of_data (hh : (s.queue q).head = .data pos h j) : headJob (s.queue q).head = some j := by
  rw [hh, headJob]

theorem completeJob_of_data (hh : (s.queue q).head = .data pos h j) (st : Status) :
    completeJob q st s = completeHead q (jobCompletion s q h j st) s := by
  simp only [completeJob, hh]

theorem failStart_of_data (hh : (s.queue q).head = .data pos h j) (st : Status) :
    failStart q st s = completeJob q st (useEndOf j (if j.claims then releaseStreams j.data s else s)) := by
  simp only [failStart, hh]

/-- A job record's completion reads only the two frame counters. -/
theorem jobCompletion_congr {t : State} (ha : t.portA.fcount = s.portA.fcount) (hb : t.portB.fcount = s.portB.fcount)
    (q : Fin 4) (h : Header) (j : JobRec) (st : Status) : jobCompletion t q h j st = jobCompletion s q h j st := by
  rw [jobCompletion, completion_congr ha hb, jobCompletion]

theorem useEndOf_of_none (hj : j.chainEnt = none) : useEndOf j s = s := by simp only [useEndOf, hj]

theorem useEndOf_of_some {e : Fin 8} (hj : j.chainEnt = some e) : useEndOf j s =
    s.setEntry e (if (s.entry e).stale = true then Entry.free else { s.entry e with inuse := false }) := by
  simp only [useEndOf, hj, useEnd_frame]

end

theorem headJob_eq_some_iff (h : Head) (j : JobRec) : headJob h = some j ↔ ∃ pos hd, h = .data pos hd j := by
  cases h <;> simp [headJob, eq_comm]

/-! ### Every other queue -/

section

variable {q k : Fin 4}

theorem setJob_queue_ne (j : JobRec) (s : State) (hk : k ≠ q) : (setJob q j s).queue k = s.queue k := by
  unfold setJob
  split
  · exact State.queue_setHead_ne s _ hk
  · rfl

theorem completeJob_queue_ne (st : Status) (s : State) (hk : k ≠ q) : (completeJob q st s).queue k = s.queue k := by
  unfold completeJob
  split
  · exact completeHead_queue_ne _ s hk
  · rfl

theorem completeControl_queue_ne (st : Status) (n : Nat) (d : Detail) (hit : Bool) (s : State) (hk : k ≠ q) :
    (completeControl q st n d hit s).queue k = s.queue k := by
  unfold completeControl
  split
  · exact completeHead_queue_ne _ s hk
  · rfl

theorem completeParked_queue_ne (st : Status) (d : Detail) (s : State) (hk : k ≠ q) :
    (completeParked q st d s).queue k = s.queue k := by
  unfold completeParked
  split
  · exact completeHead_queue_ne _ s hk
  · rfl

theorem useEndOf_queue (j : JobRec) (s : State) (k : Fin 4) : (useEndOf j s).queue k = s.queue k :=
  (useEndOf_changes j s).queue rfl k

theorem releaseStreams_queue (d : DataRec) (s : State) (k : Fin 4) : (releaseStreams d s).queue k = s.queue k :=
  (releaseStreams_changes d s).queue rfl k

theorem failStart_queue_ne (st : Status) (s : State) (hk : k ≠ q) : (failStart q st s).queue k = s.queue k := by
  unfold failStart
  split
  · next j _ =>
    rw [completeJob_queue_ne st _ hk, useEndOf_queue]
    split
    · exact releaseStreams_queue j.data s k
    · rfl
  · rfl

theorem enterRunning_queue_ne (reads : List ReadChoice) (s : State) (hk : k ≠ q) :
    (enterRunning q reads s).queue k = s.queue k := by
  unfold enterRunning
  split
  · rw [(issueReads_changes ..).queue rfl, (loadDelay_changes ..).queue rfl, setJob_queue_ne _ _ hk]
    exact (holdContext_changes ..).queue rfl k
  · rfl

theorem startWithChain_queue_ne (reads : List ReadChoice) (s : State) (hk : k ≠ q) :
    (startWithChain q reads s).queue k = s.queue k := by
  unfold startWithChain
  split
  · split
    · exact failStart_queue_ne _ s hk
    · exact enterRunning_queue_ne reads s hk
  · rfl

theorem holdEntry_queue_ne (e : Fin 8) (hit : Bool) (j : JobRec) (s : State) (hk : k ≠ q) :
    (holdEntry q e hit j s).queue k = s.queue k :=
  setJob_queue_ne _ _ hk

theorem chainStep_queue_ne (reads : List ReadChoice) (s : State) (hk : k ≠ q) :
    (chainStep q reads s).queue k = s.queue k := by
  unfold chainStep
  split
  · rfl
  · next j _ =>
    split
    · exact enterRunning_queue_ne reads s hk
    · split
      · split
        · rw [startWithChain_queue_ne reads _ hk]
          exact holdEntry_queue_ne _ true j s hk
        · exact setJob_queue_ne _ s hk
      · have hset := setJob_queue_ne (q := q) { j with chainWait := .requested } s hk
        dsimp only
        split
        · exact hset
        · split
          · exact hset
          · exact hset

/-- The retry of a job that waits for the JOB place leaves every queue whose head is not STARTING. -/
theorem retryJobPlace_queue (s : State) (hk : headIn .starting (s.queue k).head = false) :
    (retryJobPlace s).queue k = s.queue k := by
  unfold retryJobPlace
  split
  · next r hr =>
    have hstart : headIn .starting (s.queue r).head = true := by
      have hr' := List.find?_some hr
      simp only [Bool.and_eq_true] at hr'
      exact hr'.1.1
    have hne : k ≠ r := by
      rintro rfl
      rw [hk] at hstart
      cases hstart
    split
    · exact chainStep_queue_ne [] s hne
    · rfl
  · rfl

theorem reexamine_queue_ne (n : Fin 48) (s : State) (hk : k ≠ q) : (reexamine n q s).queue k = s.queue k := by
  unfold reexamine
  split
  · split
    · split
      · exact completeJob_queue_ne _ s hk
      · exact setJob_queue_ne _ s hk
    · rfl
  · rfl

end

/-- No job waits for the JOB place while no head is STARTING. -/
theorem retryJobPlace_of_no_start {s : State} (h : ∀ r : Fin 4, headIn .starting (s.queue r).head = false) :
    retryJobPlace s = s := by
  have hnone : queueIds.find? (fun q => headIn .starting (s.queue q).head
      && decide ((headJob (s.queue q).head).map (fun j => j.chainWait) = some .requested)
      && !s.cache.reqs.any (fun r => r.waiters.contains q)) = none := by
    rw [List.find?_eq_none]
    intro q _
    simp [h q]
  unfold retryJobPlace
  rw [hnone]

/-- The first member of a list with a property, where it is the only one. -/
theorem find?_eq_some_of_unique {α : Type} {p : α → Bool} {l : List α} {x : α} (hx : x ∈ l) (hp : p x = true)
    (hother : ∀ y ∈ l, p y = true → y = x) : l.find? p = some x := by
  cases hf : l.find? p with
  | none => exact absurd hp (List.find?_eq_none.mp hf x hx)
  | some y => rw [hother y (List.mem_of_find?_eq_some hf) (List.find?_some hf)]

/-- The one STARTING job that no request lists looks again (R81). -/
theorem retryJobPlace_of_waiting {s : State} {q : Fin 4} {pos : Nat} {h : Header} {j : JobRec}
    (hh : (s.queue q).head = .data pos h j) (hstart : j.jstate = .starting) (hwait : j.chainWait = .requested)
    (hlist : ∀ r ∈ s.cache.reqs, q ∉ r.waiters) (honly : ∀ r : Fin 4, r ≠ q → headIn .starting (s.queue r).head = false) :
    retryJobPlace s = if placeFree s .job then chainStep q [] s else s := by
  have hfind : queueIds.find? (fun q => headIn .starting (s.queue q).head
      && decide ((headJob (s.queue q).head).map (fun j => j.chainWait) = some .requested)
      && !s.cache.reqs.any (fun r => r.waiters.contains q)) = some q := by
    refine find?_eq_some_of_unique (mem_queueIds q) ?_ fun y _ hy => ?_
    · simpa [hh, headIn, hstart, headJob, hwait] using hlist
    · by_contra hne
      simp [honly y hne] at hy
  unfold retryJobPlace
  rw [hfind]

/-! ### MARKER and ABORT (R67 to R72) -/

section

variable {s : State} {q t : Fin 4} {pos : Nat} {h : Header} {tag : Word}

theorem exec_abort (hs : Selects s q pos h (.abort t tag)) : exec .controlSelect s =
    .next (if abortTag (s.queue t).head = some tag then abortTarget q t (executing q pos h (.abort t tag) s)
      else finishControl q .notFound 0 .none false (executing q pos h (.abort t tag) s)) := by
  rw [exec_controlSelect_of_selects hs, executeControl, execAbort]
  by_cases htq : t = q
  · subst htq
    rw [executing_head, hs.head]
    rfl
  · rw [executing_queue_ne s pos h _ htq]

/-- The ABORT itself completes OK once its target is dealt with, whatever the target's completion did elsewhere. -/
theorem finishControl_after {u : State} (hq : u.queue q = (executing q pos h (.abort t tag) s).queue q)
    (hcu : u.cu = (executing q pos h (.abort t tag) s).cu) (hA : u.portA.fcount = s.portA.fcount)
    (hB : u.portB.fcount = s.portB.fcount) (st : Status) :
    finishControl q st 0 .none false u = completeHead q (completion s q h st) u := by
  have hhead : (u.queue q).head = .control pos h (.abort t tag) .executing := by rw [hq, executing_head]
  have hidle : u.cu.work = none := by rw [hcu]; rfl
  exact finishControl_of_idle hhead hidle hA hB st

/-- The ABORT completes after its target completed on a state that left the ABORT's own head. -/
theorem finishControl_after_completeHead {u : State} (hne : t ≠ q)
    (hq : u.queue q = (executing q pos h (.abort t tag) s).queue q)
    (hcu : u.cu = (executing q pos h (.abort t tag) s).cu) (hA : u.portA.fcount = s.portA.fcount)
    (hB : u.portB.fcount = s.portB.fcount) (r : CqRec) :
    finishControl q .ok 0 .none false (completeHead t r u) = completeHead q (completion s q h .ok) (completeHead t r u) := by
  refine finishControl_after ((completeHead_queue_ne r u hne.symm).trans hq) ((completeHead_cu t r u).trans hcu) ?_ ?_ .ok
  · rw [(completeHead_changes t r u).portA rfl, hA]
  · rw [(completeHead_changes t r u).portB rfl, hB]

end

end Sys2Proof.Machine
end

section
/-! SUPPORT. MARKER, ABORT by the state of its target, and the second look of a job that waits for the JOB place (R67 to R72,
R81). -/

namespace Sys2Proof.Machine

open Sys2Proof

/-! ### The target of an ABORT -/

section

variable {s : State} {q t : Fin 4} {pos tpos : Nat} {h th : Header} {tag : Word} {body : ControlRec}

theorem exec_abort_of_miss (hs : Selects s q pos h (.abort t tag)) (hmiss : abortTag (s.queue t).head ≠ some tag) :
    exec .controlSelect s = .next (completeHead q (completion s q h .notFound) (executing q pos h (.abort t tag) s)) := by
  rw [exec_abort hs, if_neg hmiss]
  exact congrArg _ (finishControl_of_idle (executing_head ..) rfl rfl rfl _)

theorem exec_abort_of_match (hs : Selects s q pos h (.abort t tag)) (hmatch : abortTag (s.queue t).head = some tag) :
    exec .controlSelect s = .next (abortTarget q t (executing q pos h (.abort t tag) s)) := by
  rw [exec_abort hs, if_pos hmatch]

section

variable {e : State} {j : JobRec}

theorem abortTarget_of_queued (hh : (e.queue t).head = .data tpos th j) (hj : j.jstate = .waiting ∨ j.jstate = .ready) :
    abortTarget q t e = finishControl q .ok 0 .none false (completeHead t (jobCompletion e t th j .aborted) e) := by
  obtain hj | hj := hj <;> simp only [abortTarget, hh, hj, completeJob]

theorem abortTarget_of_starting (hh : (e.queue t).head = .data tpos th j) (hj : j.jstate = .starting) :
    abortTarget q t e = finishControl q .ok 0 .none false (failStart t .aborted (withdrawWaiter t e)) := by
  simp only [abortTarget, hh, hj, abortStarting]

theorem abortTarget_of_running (hh : (e.queue t).head = .data tpos th j) (hj : j.jstate = .running) :
    abortTarget q t e = { e with stopReq := true, cu := { e.cu with work := some (.abortWait q t) } } := by
  simp only [abortTarget, hh, hj]

theorem abortTarget_of_controlWait (hh : (e.queue t).head = .control tpos th body .controlWait) :
    abortTarget q t e = finishControl q .ok 0 .none false (completeControl t .aborted 0 .none false e) := by
  simp only [abortTarget, hh]

theorem abortTarget_of_parked (hh : (e.queue t).head = .control tpos th body .parked) :
    abortTarget q t e = finishControl q .ok 0 .none false (abortParked t body e) := by
  simp only [abortTarget, hh]

end

/-- A target that completes on a state that keeps both heads, the control unit and the frame counters; then the ABORT. -/
theorem abort_completes (hne : t ≠ q) {u : State} {c : CtlState}
    (ht : (u.queue t).head = .control tpos th body c)
    (hq : u.queue q = (executing q pos h (.abort t tag) s).queue q)
    (hcu : u.cu = (executing q pos h (.abort t tag) s).cu) (hA : u.portA.fcount = s.portA.fcount)
    (hB : u.portB.fcount = s.portB.fcount) :
    finishControl q .ok 0 .none false (completeControl t .aborted 0 .none false u) =
      completeHead q (completion s q h .ok) (completeHead t (completion s t th .aborted) u) := by
  rw [completeControl_of_head ht, completion_congr hA hB, finishControl_after_completeHead hne hq hcu hA hB]

/-- A STARTING target gives up its claims and its entry, and completes (R69). -/
theorem failStart_withdrawn {e : State} {j : JobRec} (hh : (e.queue t).head = .data tpos th j) :
    failStart t .aborted (withdrawWaiter t e) = completeHead t (jobCompletion e t th j .aborted) (useEndOf j
      (if j.claims then releaseStreams j.data (withdrawWaiter t e) else withdrawWaiter t e)) := by
  have hw := withdrawWaiter_changes t e
  have hh' : ((withdrawWaiter t e).queue t).head = .data tpos th j := by rw [hw.queue rfl, hh]
  rw [failStart_of_data hh']
  have hreleased : Changes [.cache, .streams, .notices] e
      (if j.claims then releaseStreams j.data (withdrawWaiter t e) else withdrawWaiter t e) := by
    split
    · exact Changes.mono (hw.trans (releaseStreams_changes ..)) rfl
    · exact hw.mono rfl
  have hended := hreleased.trans (useEndOf_changes j _)
  rw [completeJob_of_data (by rw [hended.queue rfl, hh]),
    jobCompletion_congr (s := e) (by rw [hended.portA rfl]) (by rw [hended.portB rfl])]

end

/-! ### The withdrawal of a waiter (R69, R78) -/

theorem decide_eq_nil {α : Type} (l : List α) [Decidable (l = [])] : decide (l = []) = l.isEmpty := by
  cases l <;> simp

/-! ### The withdrawal of a pending change (R149) -/

theorem withdrawSlot_of_bind {e : State} {p : PortId} {j : Fin 32} {dir : Dir} {n : Fin 48} {t : Fin 4}
    (hslot : (e.port p).slot j = { current := none, pending := some (.bind dir n t) }) :
    withdrawSlot p j e = setMirror n dir none (e.setPort p ((e.port p).setSlot j { current := none, pending := none })) := by
  simp only [withdrawSlot, hslot]

theorem withdrawSlot_of_unbind {e : State} {p : PortId} {j : Fin 32} {dir : Dir} {n : Fin 48} {t : Fin 4}
    (hslot : (e.port p).slot j = { current := some (dir, n), pending := some (.unbind t) }) :
    withdrawSlot p j e = setMirror n dir (some ⟨p, j, .current⟩)
      (e.setPort p ((e.port p).setSlot j { current := some (dir, n), pending := none })) := by
  simp only [withdrawSlot, hslot]

/-! ### The second look for the JOB place (R81) -/

section

variable {s : State} {q : Fin 4} {pos : Nat} {h : Header} {j : JobRec} {addr : Word} {context : Option (Fin 32)}

/-- A FILTER whose address an entry holds goes on with it, or waits for its fill. -/
theorem chainStep_of_entry (hh : (s.queue q).head = .data pos h j) (hkind : j.data.kind = .filter addr context) {x : Fin 8}
    (hx : findEntry s addr = some x) (reads : List ReadChoice) : chainStep q reads s =
      if (s.entry x).estate = .valid then startWithChain q reads (touchEntry x
        ((s.setEntry x { s.entry x with inuse := true }).setHead q
          (.data pos h { j with chainEnt := some x, chainWait := .none, chainHit := true })))
      else joinFill q (s.setHead q (.data pos h { j with chainWait := .filling })) := by
  have hset : ((s.setEntry x { s.entry x with inuse := true }).queue q).head = .data pos h j := hh
  simp only [chainStep, headJob_of_data hh, hkind, hx, holdEntry, setJob_of_data hset, setJob_of_data hh]

/-- A FILTER whose address no entry holds joins its request, places one, or waits for the JOB place. -/
theorem chainStep_of_miss (hh : (s.queue q).head = .data pos h j) (hkind : j.data.kind = .filter addr context)
    (hx : findEntry s addr = none) (reads : List ReadChoice) : chainStep q reads s =
      if requested s addr then joinRequest addr q (s.setHead q (.data pos h { j with chainWait := .requested }))
      else if placeFree s .job then placeRequest addr .job q (s.setHead q (.data pos h { j with chainWait := .requested }))
      else s.setHead q (.data pos h { j with chainWait := .requested }) := by
  have hreq : ∀ x : State, requested (x.setHead q (.data pos h { j with chainWait := .requested })) addr = requested x addr :=
    fun _ => rfl
  simp only [chainStep, headJob_of_data hh, hkind, hx, setJob_of_data hh]

/-- A head that waits already stays as it is. -/
theorem setHead_requested (hh : (s.queue q).head = .data pos h j) (hwait : j.chainWait = .requested) :
    s.setHead q (.data pos h { j with chainWait := .requested }) = s := by
  rw [← hwait]
  exact State.setHead_self hh

end

/-- Settles O46: MARKER, each state of an ABORT's target, and the second look by what holds the address. -/
theorem abortAndMarkerRule : Obligations.AbortAndMarkerRule := by
  refine ⟨fun s t j => ⟨?withdraw, useEndOf_of_none, fun x hx => useEndOf_of_some hx⟩, fun s q pos h hs => ?marker, ?abort⟩
  case withdraw =>
    simp only [withdrawWaiter, ne_eq, decide_not, decide_eq_nil]
  case marker =>
    rw [exec_controlSelect_of_selects hs, executeControl]
    exact congrArg _ (finishControl_of_idle (executing_head ..) rfl rfl rfl _)
  case abort =>
    rintro s q t pos h tag e hs hne rfl done hdone
    have hq : (executing q pos h (.abort t tag) s).queue t = s.queue t := executing_queue_ne s pos h _ hne
    simp only [hdone]
    refine ⟨fun hnone => ?none, fun tpos th j hh => ⟨fun htag => ?dataMiss, fun htag aborted haborted =>
      ⟨fun hj => ?queued, fun hj => ?starting, fun hj => ?running⟩⟩, fun tpos th body st hh => ⟨fun htag => ?controlMiss,
        fun htag aborted haborted => ⟨fun hst => ?controlWait, fun p j action dir n hst hbody => ⟨fun hslot => ?bind,
          fun hslot => ?unbind⟩, fun action addr hst hbody u hu => ?chain⟩⟩, ?retry⟩
    case none =>
      refine exec_abort_of_miss hs ?_
      obtain hh | ⟨tp, hh⟩ := hnone <;> rw [hh] <;> exact nofun
    case dataMiss => exact exec_abort_of_miss hs (by rw [hh]; exact fun heq => htag (Option.some.inj heq))
    case controlMiss => exact exec_abort_of_miss hs (by rw [hh]; exact fun heq => htag (Option.some.inj heq))
    case retry =>
      clear hq hs hne hdone
      intro s q pos h j addr context hh hstart hwait hkind hlist honly
      have hretry := retryJobPlace_of_waiting hh hstart hwait hlist honly
      refine ⟨fun hplace => ?_, fun hplace => ⟨fun x hx haddr hunique => ⟨fun hvalid => ?_, fun hfilling => ?_⟩,
        fun hnone => ⟨fun hreq => ?_, fun hreq => ?_⟩⟩⟩
      · rw [hretry, (placeFree_eq_false_iff ..).mpr hplace]
        rfl
      all_goals rw [hretry, (placeFree_iff ..).mpr hplace, if_pos rfl]
      · rw [chainStep_of_entry hh hkind (findEntry_of_unique hx haddr hunique), if_pos hvalid]
      · rw [chainStep_of_entry hh hkind (findEntry_of_unique hx haddr hunique),
          if_neg (by rw [hfilling]; exact EState.noConfusion)]
      · rw [chainStep_of_miss hh hkind ((findEntry_eq_none_iff s addr).mpr hnone), (requested_iff ..).mpr hreq, if_pos rfl,
          setHead_requested hh hwait]
      · rw [chainStep_of_miss hh hkind ((findEntry_eq_none_iff s addr).mpr hnone), (requested_eq_false_iff ..).mpr hreq,
          (placeFree_iff ..).mpr hplace, if_neg Bool.false_ne_true, if_pos rfl, setHead_requested hh hwait]
        rfl
    all_goals rw [exec_abort_of_match hs (by rw [hh, abortTag, htag])]
    case queued =>
      rw [abortTarget_of_queued (by rw [hq, hh]) hj, finishControl_after_completeHead hne rfl rfl rfl rfl, haborted]
      rfl
    case starting =>
      have hw := withdrawWaiter_changes t (executing q pos h (.abort t tag) s)
      have hreleased : Changes [.cache, .streams, .notices] (executing q pos h (.abort t tag) s)
          (if j.claims then releaseStreams j.data (withdrawWaiter t (executing q pos h (.abort t tag) s))
            else withdrawWaiter t (executing q pos h (.abort t tag) s)) := by
        split
        · exact Changes.mono (hw.trans (releaseStreams_changes ..)) rfl
        · exact hw.mono rfl
      have hended := hreleased.trans (useEndOf_changes j _)
      rw [abortTarget_of_starting (by rw [hq, hh]) hj, failStart_withdrawn (by rw [hq, hh]),
        finishControl_after_completeHead hne (hended.queue rfl q) (hended.cu rfl) (by rw [hended.portA rfl]; rfl)
          (by rw [hended.portB rfl]; rfl), haborted]
      rfl
    case running =>
      rw [abortTarget_of_running (by rw [hq, hh]) hj]
      rfl
    case controlWait =>
      subst hst haborted
      rw [abortTarget_of_controlWait (by rw [hq, hh]), abort_completes hne (by rw [hq, hh]) rfl rfl rfl rfl]
    case bind =>
      subst hst hbody haborted
      have hport : (executing q pos h (.abort t tag) s).port p = s.port p := State.port_setHead ..
      obtain ⟨hA, hB⟩ := setMirror_setSlot_fcount (s := executing q pos h (.abort t tag) s) (p := p) (j := j) n dir none
        { current := none, pending := none }
      have hw := withdrawSlot_changes p j (executing q pos h (.abort t tag) s)
      rw [withdrawSlot_of_bind (by rw [hport]; exact hslot)] at hw
      rw [abortTarget_of_parked (by rw [hq, hh]), abortParked, withdrawSlot_of_bind (by rw [hport]; exact hslot),
        abort_completes hne (by rw [hw.queue rfl, hq, hh]) (hw.queue rfl q) (hw.cu rfl) hA hB, hport]
    case unbind =>
      subst hst hbody haborted
      have hport : (executing q pos h (.abort t tag) s).port p = s.port p := State.port_setHead ..
      obtain ⟨hA, hB⟩ := setMirror_setSlot_fcount (s := executing q pos h (.abort t tag) s) (p := p) (j := j) n dir
        (some ⟨p, j, .current⟩) { current := some (dir, n), pending := none }
      have hw := withdrawSlot_changes p j (executing q pos h (.abort t tag) s)
      rw [withdrawSlot_of_unbind (by rw [hport]; exact hslot)] at hw
      rw [abortTarget_of_parked (by rw [hq, hh]), abortParked, withdrawSlot_of_unbind (by rw [hport]; exact hslot),
        abort_completes hne (by rw [hw.queue rfl, hq, hh]) (hw.queue rfl q) (hw.cu rfl) hA hB, hport]
    case chain =>
      subst hst hbody haborted
      have hwithdrawn : withdrawWaiter t (executing q pos h (.abort t tag) s) = u := by
        rw [hu]
        simp only [withdrawWaiter, ne_eq, decide_not, decide_eq_nil]
        rfl
      have hw := withdrawWaiter_changes t (executing q pos h (.abort t tag) s)
      rw [hwithdrawn] at hw
      have hut : (u.queue t).head = .control tpos th (.chainControl action addr) .parked := by rw [hw.queue rfl, hq, hh]
      have huq : (u.queue q).head = .control pos h (.abort t tag) .executing := by rw [hw.queue rfl, executing_head]
      have hkeept : (retryJobPlace u).queue t = u.queue t := retryJobPlace_queue u (by rw [hut]; rfl)
      have hkeepq : (retryJobPlace u).queue q = u.queue q := retryJobPlace_queue u (by rw [huq]; rfl)
      have hr := hw.trans (retryJobPlace_changes u)
      have hdone' := abort_completes (s := s) (pos := pos) (h := h) (tag := tag) hne (by rw [hkeept, hut])
        (by rw [hkeepq, hw.queue rfl]) (hr.cu rfl) (by rw [hr.portA rfl]; rfl) (by rw [hr.portB rfl]; rfl)
      have hall := congrArg (Host.Outcome.next (φ := Fault) (ρ := Refusal)) hdone'
      rw [abortTarget_of_parked (by rw [hq, hh]), abortParked, hwithdrawn]
      refine ⟨hall, fun hnone => ?_⟩
      have hstill : retryJobPlace u = u := by
        refine retryJobPlace_of_no_start fun r => ?_
        rw [hw.queue rfl]
        by_cases hr : r = q
        · subst hr
          rw [executing_head]
          rfl
        · rw [executing_queue_ne s pos h _ hr]
          exact hnone r
      rw [hstill] at hall ⊢
      exact hall
end Sys2Proof.Machine
end

section
/-! SUPPORT. Ticks, wait timers and the change notices that re-examine the heads (R55 to R58). -/

namespace Sys2Proof.Machine

open Sys2Proof

/-! ### The tick (R57) -/

theorem tickQueues_of_faulted {s : State} (hf : s.eng.st = .faulted) : tickQueues s = s := if_pos hf

theorem tickQueues_queue {s : State} (hf : s.eng.st ≠ .faulted) (q : Fin 4) :
    (tickQueues s).queue q = tickQueue (s.queue q) := by
  rw [tickQueues, if_neg hf]
  fin_cases q <;> rfl

theorem tickQueue_of_running_timer {r : QueueRec} {pos : Nat} {h : Header} {j : JobRec} (hh : r.head = .data pos h j)
    (hj : j.trun = true) : tickQueue r = { r with head := .data pos h { j with timer := j.timer.map (fun t => t - 1) } } := by
  simp only [tickQueue, hh, tickHead, tickJob, hj, if_true]

/-- A head without a running timer stays as it is. -/
theorem tickQueue_of_no_timer {r : QueueRec} (hr : ∀ pos h j, r.head = .data pos h j → j.trun = false) : tickQueue r = r := by
  have hhead : tickHead r.head = r.head := by
    cases hh : r.head with
    | data pos h j => simp only [tickHead, tickJob, hr pos h j hh, Bool.false_eq_true, if_false]
    | _ => rfl
  rw [tickQueue, hhead]

/-! ### The order of the heads (log 4) -/

theorem queueIds_nodup : queueIds.Nodup := by simp [queueIds]

theorem mem_inOrder_iff (order xs : List (Fin 4)) (q : Fin 4) : q ∈ inOrder order xs ↔ q ∈ xs := by
  by_cases hq : q ∈ order <;> simp [inOrder, hq]

theorem inOrder_nodup (order : List (Fin 4)) {xs : List (Fin 4)} (hxs : xs.Nodup) : (inOrder order xs).Nodup := by
  refine List.Nodup.append (order.nodup_dedup.filter _) (hxs.filter _) ?_
  intro q hq hrest
  have hin := List.mem_dedup.mp (List.mem_of_mem_filter hq)
  simp [hin] at hrest

theorem inOrder_perm (order : List (Fin 4)) {xs : List (Fin 4)} (hxs : xs.Nodup) : (inOrder order xs).Perm xs :=
  (List.perm_ext_iff_of_nodup (inOrder_nodup order hxs) hxs).mpr (mem_inOrder_iff order xs)

theorem inOrder_of_nodup {order xs : List (Fin 4)} (h : order.Nodup) (hsub : ∀ q ∈ order, q ∈ xs) :
    inOrder order xs = order ++ xs.filter (fun q => decide (q ∉ order)) := by
  have hall : order.filter (fun q => xs.contains q) = order :=
    List.filter_eq_self.mpr fun q hq => List.contains_iff_mem.mpr (hsub q hq)
  rw [inOrder, h.dedup, hall]
  simp

/-! ### Re-examination of one head (R55) -/

/-- A head the notices of a stream do not touch. -/
def Untouched (n : Fin 48) (h : Head) : Prop :=
  ∀ pos hd j, h = .data pos hd j → j.jstate = .waiting ∨ j.jstate = .ready → n ∉ namedStreams j.data

theorem mem_namedStreams_iff (d : DataRec) (n : Fin 48) : n ∈ namedStreams d ↔ ∃ role, (n, role) ∈ streamRoles d := by
  simp [namedStreams]

/-- The roles a job gives one stream. -/
def rolesOf (d : DataRec) (n : Fin 48) : List (Fin 48 × Role) := (streamRoles d).filter (fun x => decide (x.1 = n))

theorem rolesOf_ne_nil_iff (d : DataRec) (n : Fin 48) : rolesOf d n ≠ [] ↔ n ∈ namedStreams d := by
  simp [rolesOf, mem_namedStreams_iff]

theorem mem_rolesOf {d : DataRec} {n : Fin 48} {x : Fin 48 × Role} :
    x ∈ rolesOf d n ↔ x ∈ streamRoles d ∧ x.1 = n := by
  simp [rolesOf]

section

variable {s : State} {n : Fin 48} {q : Fin 4} {pos : Nat} {h : Header} {j : JobRec}

theorem recheckStream_eq_some_iff (d : DataRec) (st : Status) : recheckStream s d n = some st ↔
    ∃ before x after, rolesOf d n = before ++ x :: after ∧ streamCheck (s.stream n) x.2 d.n = some st ∧
      ∀ y ∈ before, streamCheck (s.stream n) y.2 d.n = none := by
  have hcongr : recheckStream s d n = (rolesOf d n).findSome? (fun x => streamCheck (s.stream x.1) x.2 d.n) := rfl
  rw [hcongr, List.findSome?_eq_some_iff]
  refine exists_congr fun before => exists_congr fun x => exists_congr fun after => and_congr_right fun hsplit => ?_
  have hfst : ∀ y ∈ before ++ x :: after, y.1 = n := fun y hy => (mem_rolesOf.mp (hsplit ▸ hy)).2
  rw [hfst x (by simp)]
  exact and_congr_right fun _ => forall₂_congr fun y hy => by rw [hfst y (List.mem_append_left _ hy)]

theorem recheckStream_eq_none_iff (d : DataRec) : recheckStream s d n = none ↔
    ∀ y ∈ rolesOf d n, streamCheck (s.stream n) y.2 d.n = none := by
  have hcongr : recheckStream s d n = (rolesOf d n).findSome? (fun x => streamCheck (s.stream x.1) x.2 d.n) := rfl
  rw [hcongr, List.findSome?_eq_none_iff]
  exact forall₂_congr fun y hy => by rw [(mem_rolesOf.mp hy).2]

theorem reexamine_of_untouched (hu : Untouched n (s.queue q).head) : reexamine n q s = s := by
  unfold reexamine
  split
  · next hh => exact if_neg fun hin => hu _ _ _ hh hin.1 hin.2
  · rfl

theorem reexamine_of_recheck_some {st : Status} (hh : (s.queue q).head = .data pos h j)
    (hj : j.jstate = .waiting ∨ j.jstate = .ready) (hn : n ∈ namedStreams j.data) (hst : recheckStream s j.data n = some st) :
    reexamine n q s = completeHead q { completion s q h st with waited := j.waited, chainHit := j.chainHit } s := by
  simp only [reexamine, hh, if_pos (And.intro hj hn), hst, completeJob_of_data hh, jobCompletion]

theorem reexamine_of_recheck_none (hh : (s.queue q).head = .data pos h j) (hj : j.jstate = .waiting ∨ j.jstate = .ready)
    (hn : n ∈ namedStreams j.data) (hst : recheckStream s j.data n = none) :
    reexamine n q s = s.setHead q (.data pos h (examinedJob s j)) := by
  simp only [reexamine, hh, if_pos (And.intro hj hn), hst, setJob_of_data hh]

theorem reexamine_of_failed (hh : (s.queue q).head = .data pos h j) (hj : j.jstate = .waiting ∨ j.jstate = .ready)
    {before after : List (Fin 48 × Role)} {x : Fin 48 × Role} {st : Status} (hroles : rolesOf j.data n = before ++ x :: after)
    (hbefore : ∀ y ∈ before, streamCheck (s.stream n) y.2 j.data.n = none)
    (hx : streamCheck (s.stream n) x.2 j.data.n = some st) :
    reexamine n q s = completeHead q { completion s q h st with waited := j.waited, chainHit := j.chainHit } s := by
  have hn : n ∈ namedStreams j.data := (rolesOf_ne_nil_iff ..).mp (by simp [hroles])
  exact reexamine_of_recheck_some hh hj hn ((recheckStream_eq_some_iff ..).mpr ⟨before, x, after, hroles, hx, hbefore⟩)

theorem reexamine_of_passed (hh : (s.queue q).head = .data pos h j) (hj : j.jstate = .waiting ∨ j.jstate = .ready)
    (hn : n ∈ namedStreams j.data) (hpass : ∀ y ∈ rolesOf j.data n, streamCheck (s.stream n) y.2 j.data.n = none) :
    reexamine n q s = s.setHead q (.data pos h (examinedJob s j)) :=
  reexamine_of_recheck_none hh hj hn ((recheckStream_eq_none_iff ..).mpr hpass)

theorem examinedJob_of_ready (hr : ∀ x ∈ streamRoles j.data, streamReady (s.stream x.1) x.2 j.data.n = true) :
    examinedJob s j = { j with jstate := .ready } :=
  if_pos (List.all_eq_true.mpr hr)

theorem examinedJob_of_unready (hr : ∃ x ∈ streamRoles j.data, streamReady (s.stream x.1) x.2 j.data.n = false) :
    examinedJob s j = { j with jstate := .waiting, waited := true } := by
  obtain ⟨x, hx, hfalse⟩ := hr
  refine if_neg fun hall => ?_
  have := List.all_eq_true.mp hall x hx
  rw [hfalse] at this
  exact Bool.false_ne_true this

end

/-! ### Re-examination of every head -/

theorem reexamineAll_of_untouched {n : Fin 48} {l : List (Fin 4)} {s : State}
    (hu : ∀ q ∈ l, Untouched n (s.queue q).head) : reexamineAll n l s = s := by
  induction l with
  | nil => rfl
  | cons q rest ih =>
    rw [reexamineAll, reexamine_of_untouched (hu q (by simp)), ih fun k hk => hu k (by simp [hk])]

/-- Where the notice touches one head alone, that head alone is re-examined. -/
theorem reexamineAll_of_one {n : Fin 48} {q : Fin 4} {l : List (Fin 4)} {s : State} (hnd : l.Nodup) (hq : q ∈ l)
    (hu : ∀ k, k ≠ q → Untouched n (s.queue k).head) : reexamineAll n l s = reexamine n q s := by
  induction l with
  | nil => cases hq
  | cons x rest ih =>
    obtain ⟨hx, hrest⟩ := List.nodup_cons.mp hnd
    rw [reexamineAll]
    by_cases heq : x = q
    · subst heq
      refine reexamineAll_of_untouched fun k hk => ?_
      have hne : k ≠ x := fun e => hx (e ▸ hk)
      rw [reexamine_queue_ne n s hne]
      exact hu k hne
    · rw [reexamine_of_untouched (hu x heq), ih hrest ((List.mem_cons.mp hq).resolve_left fun e => heq e.symm)]

theorem exec_changeNotice_of_sent {s : State} {n : Fin 48} (ha : awake s) (hn : n ∈ s.notices) (order : List (Fin 4)) :
    exec (.changeNotice n order) s =
      .next (reexamineAll n (inOrder order queueIds) { s with notices := s.notices.erase n }) := by
  simp only [exec, execChangeNotice, taken_eq ha, List.contains_iff_mem.mpr hn, if_true]

theorem exec_changeNotice_of_not_sent {s : State} {n : Fin 48} (ha : awake s) (hn : n ∉ s.notices) (order : List (Fin 4)) :
    exec (.changeNotice n order) s = .next s := by
  simp only [exec, execChangeNotice, taken_eq ha, List.contains_iff_mem, if_neg hn]

theorem timerDue_of_data {pos : Nat} {h : Header} {j : JobRec} : timerDue (.data pos h j) = true ↔
    (j.jstate = .waiting ∨ j.jstate = .ready) ∧ j.timer = some 0 := by
  simp [timerDue]

/-- Settles O47: the tick, the expiry, the order, one head's re-examination, and a notice that touches at most one head. -/
theorem timersAndNoticesRule : Obligations.TimersAndNoticesRule := by
  refine ⟨⟨fun s ha hf => ?held, fun s ha hf => ?tick⟩, fun s q pos h j ha hh => ⟨fun hlive hj ht => ?expiry, fun hno => ?none⟩,
    fun s n order q rest ha => ⟨fun hn => exec_changeNotice_of_sent ha hn order, rfl, rfl⟩,
    fun order => ⟨inOrder_perm order queueIds_nodup, rfl,
      fun h => inOrder_of_nodup h fun q _ => mem_queueIds q⟩,
    fun s n q => ⟨reexamine_of_untouched, ?one⟩, ?notice⟩
  case held => simp only [exec, execTick, taken_eq ha, tickQueues_of_faulted hf]
  case tick =>
    refine ⟨_, taken_eq ha, ?_, fun q => ?_⟩
    · simp only [tickQueues, if_neg hf]
    · have hqueue := tickQueues_queue hf q
      exact ⟨fun pos h j hh hj => hqueue.trans (tickQueue_of_running_timer hh hj),
        fun hnone => hqueue.trans (tickQueue_of_no_timer hnone)⟩
  case expiry =>
    have hdue : timerDue (s.queue q).head = true := by rw [hh]; exact timerDue_of_data.mpr ⟨hj, ht⟩
    simp only [exec, execWaitTimerExpiry, taken_eq ha, hlive, hdue, Bool.and_self, if_true, completeJob_of_data hh, jobCompletion]
  case none =>
    have hnot : ¬ (live s && timerDue (s.queue q).head) = true := by
      rw [Bool.and_eq_true, hh, timerDue_of_data]
      rintro ⟨hlive, hj, ht⟩
      obtain hf | hstart | hrun | htimer := hno
      · rw [live_iff, hf] at hlive
        simp at hlive
      · rw [hstart] at hj
        simp at hj
      · rw [hrun] at hj
        simp at hj
      · exact htimer ht
    simp only [exec, execWaitTimerExpiry, taken_eq ha, if_neg hnot]
  case one =>
    rintro pos h j roles hh hj rfl hne
    exact ⟨fun before x after st hroles hbefore hx => reexamine_of_failed hh hj hroles hbefore hx, fun hpass =>
      have hmoved := reexamine_of_passed hh hj ((rolesOf_ne_nil_iff ..).mp hne) hpass
      ⟨fun hready => by rw [hmoved, examinedJob_of_ready hready],
        fun hunready => by rw [hmoved, examinedJob_of_unready hunready]⟩⟩
  case notice =>
    rintro s n order u ha rfl
    refine ⟨fun hn => exec_changeNotice_of_not_sent ha hn order, fun hn hnone => ?untouched,
      fun hn q pos h j role hh hj hrole honly hothers => ?touched⟩
    case untouched =>
      rw [exec_changeNotice_of_sent ha hn,
        reexamineAll_of_untouched (s := { s with notices := s.notices.erase n }) fun q _ => hnone q]
    case touched =>
      have hone := exec_changeNotice_of_sent ha hn order
      rw [reexamineAll_of_one (s := { s with notices := s.notices.erase n }) (inOrder_nodup order queueIds_nodup)
        ((mem_inOrder_iff order _ q).mpr (mem_queueIds q))
        fun k hk pos' h' j' => hothers k pos' h' j' hk] at hone
      have hroles : ∀ y ∈ rolesOf j.data n, y = (n, role) := fun ⟨m, r⟩ hy => by
        obtain ⟨hmem, rfl⟩ := mem_rolesOf.mp hy
        rw [honly r hmem]
      have hnamed : n ∈ namedStreams j.data := (mem_namedStreams_iff ..).mpr ⟨role, hrole⟩
      refine ⟨fun st hst => ?_, fun hpass => ?_⟩
      · obtain ⟨x, rest, hsplit⟩ := List.exists_cons_of_ne_nil ((rolesOf_ne_nil_iff ..).mpr hnamed)
        exact hone.trans (congrArg _ (reexamine_of_failed (s := { s with notices := s.notices.erase n }) hh hj (before := [])
          hsplit (by simp) (by rw [hroles x (by simp [hsplit])]; exact hst)))
      · have hmoved := hone.trans (congrArg _ (reexamine_of_passed (s := { s with notices := s.notices.erase n }) hh hj hnamed
          fun y hy => by rw [hroles y hy]; exact hpass))
        exact ⟨fun hready => by rw [hmoved, examinedJob_of_ready (s := { s with notices := s.notices.erase n }) hready],
          fun hunready => by rw [hmoved, examinedJob_of_unready (s := { s with notices := s.notices.erase n }) hunready]⟩

end Sys2Proof.Machine
end

section
/-! SUPPORT. The stream checks, the arbiter, the claim, and the start of a job (R17, R52, R60 to R65, R106, R118). -/

namespace Sys2Proof.Machine

open Sys2Proof

/-! ### The stream checks (R17, R52) -/

theorem streamCheck_of_free {r : StreamRec} (hd : r.defined = false) (role : Role) (n : Nat) :
    streamCheck r role n = some .noStream ∧ streamReady r role n = false := by
  refine ⟨by simp [streamCheck, hd], ?_⟩
  cases role <;> simp [streamReady, hd]

theorem endpointKindOk_iff (r : StreamRec) (role : Role) : endpointKindOk r role = true ↔
    role = .input ∧ r.consumer = .job ∨ role = .output ∧ r.producer = .job := by
  cases role <;> simp [endpointKindOk]

theorem streamCheck_of_wrong_kind {r : StreamRec} {role : Role} (hd : r.defined = true) (hk : endpointKindOk r role = false)
    (n : Nat) : streamCheck r role n = some .wrongEndpoint := by
  simp [streamCheck, hd, hk]

theorem streamCheck_of_kind {r : StreamRec} {role : Role} (hd : r.defined = true) (hk : endpointKindOk r role = true)
    (n : Nat) : streamCheck r role n = if r.length - r.hist < n then some .blockTooLong else none := by
  simp [streamCheck, hd, hk]

/-! ### The claim (R12) -/

theorem claimOne_eq_granted_iff (r : StreamRec) (role : Role) (n : Nat) :
    claimOne r role n = .granted ↔ streamCheck r role n = none ∧ streamReady r role n = true := by
  cases hc : streamCheck r role n <;> cases hr : streamReady r role n <;> simp [claimOne, hc, hr]

/-- A claim answers what its first stream that is not granted answers. -/
theorem claimAll_of_first {s : State} {n : Nat} {before after : List (Fin 48 × Role)} {x : Fin 48 × Role}
    (hbefore : ∀ y ∈ before, claimOne (s.stream y.1) y.2 n = .granted) (hx : claimOne (s.stream x.1) x.2 n ≠ .granted) :
    claimAll s n (before ++ x :: after) = claimOne (s.stream x.1) x.2 n := by
  induction before with
  | nil =>
    rw [List.nil_append, claimAll]
    split
    · next h => exact absurd h hx
    · rfl
  | cons y rest ih =>
    rw [List.cons_append, claimAll, hbefore y (by simp)]
    exact ih fun z hz => hbefore z (by simp [hz])

theorem claimAll_of_granted {s : State} {n : Nat} {l : List (Fin 48 × Role)}
    (hl : ∀ y ∈ l, claimOne (s.stream y.1) y.2 n = .granted) : claimAll s n l = .granted := by
  induction l with
  | nil => rfl
  | cons y rest ih =>
    rw [claimAll, hl y (by simp)]
    exact ih fun z hz => hl z (by simp [hz])

theorem claimResult_congr {s t : State} (h : t.streams = s.streams) (d : DataRec) : claimResult t d = claimResult s d := by
  have hall : ∀ l, claimAll t d.n l = claimAll s d.n l := by
    intro l
    induction l with
    | nil => rfl
    | cons x rest ih => simp only [claimAll, State.stream, h, ih]
  exact hall _

theorem setClaims_setHead (b : Bool) (ns : List (Fin 48)) (s : State) (q : Fin 4) (h : Head) :
    setClaims b ns (s.setHead q h) = (setClaims b ns s).setHead q h := by
  induction ns generalizing s with
  | nil => rfl
  | cons n rest ih =>
    exact ih (s.setStream n { s.stream n with claimed := b })

theorem setClaims_record (b : Bool) (ns : List (Fin 48)) (s : State) (n : Fin 48) :
    (setClaims b ns s).stream n = { s.stream n with claimed := if n ∈ ns then b else (s.stream n).claimed } := by
  rw [setClaims_stream]
  split <;> rfl

/-! ### The arbiter (R60) -/

/-- The first queue after `t` that satisfies a property. -/
theorem find?_queuesAfter {p : Fin 4 → Bool} {t q : Fin 4} (hq : p q = true)
    (hbefore : ∀ d : Fin 4, d < q - t - 1 → p (t + 1 + d) = false) : (queuesAfter t).find? p = some q := by
  obtain ⟨k, hk⟩ : ∃ k, k = q - t - 1 := ⟨_, rfl⟩
  have hqk : q = t + 1 + k := by rw [hk, sub_sub, add_sub_cancel]
  have hlist : queuesAfter t = [t + 1 + 0, t + 1 + 1, t + 1 + 2, t + 1 + 3] := by
    rw [queuesAfter, add_zero, add_assoc t 1 1, add_assoc t 1 2, add_assoc t 1 3]
    exact congrArg (fun x => [_, _, _, x]) (add_zero t).symm
  rw [← hk] at hbefore
  clear hk
  subst hqk
  rw [hlist]
  have h0 := hbefore 0
  have h1 := hbefore 1
  have h2 := hbefore 2
  fin_cases k <;> simp_all [List.find?]

section

variable {s : State} {q : Fin 4}

theorem arbiterChoice_of_turn (hready : headIn .ready (s.queue s.turn).head = true) (hcredit : 0 < s.credit) :
    arbiterChoice s = some s.turn ∧ arbiterMove s.turn s = { s with credit := s.credit - 1 } :=
  ⟨if_pos ⟨hready, hcredit⟩, if_pos ⟨hready, hcredit⟩⟩

theorem arbiterChoice_of_next (hturn : headIn .ready (s.queue s.turn).head = false ∨ s.credit = 0)
    (hready : headIn .ready (s.queue q).head = true)
    (hbefore : ∀ d : Fin 4, d < q - s.turn - 1 → headIn .ready (s.queue (s.turn + 1 + d)).head = false) :
    arbiterChoice s = some q ∧ arbiterMove q s = { s with turn := q, credit := (s.queue q).weight - 1 } := by
  have hnot : ¬ (headIn .ready (s.queue s.turn).head = true ∧ 0 < s.credit) := by
    rintro ⟨hr, hc⟩
    obtain h | h := hturn
    · exact Bool.false_ne_true (h.symm.trans hr)
    · omega
  exact ⟨(if_neg hnot).trans (find?_queuesAfter hready hbefore), if_neg hnot⟩

theorem arbiterChoice_of_none (hnone : ∀ r : Fin 4, headIn .ready (s.queue r).head = false) : arbiterChoice s = none := by
  rw [arbiterChoice, hnone, if_neg (fun h => Bool.false_ne_true h.1), List.find?_eq_none]
  exact fun r _ => by rw [hnone r]; exact Bool.false_ne_true

theorem mayGrant_iff (s : State) : mayGrant s = true ↔
    s.eng.st = .running ∧ ∀ r : Fin 4, jobActive (s.queue r).head = false := by
  rw [mayGrant, Bool.and_eq_true, decide_eq_true_iff, datapathIdle_iff]

theorem exec_grant_of_nothing (ha : awake s) (reads : List ReadChoice)
    (h : mayGrant s = false ∨ arbiterChoice s = none) : exec (.grant reads) s = .next s := by
  have hexec : exec (.grant reads) s = taken s _ := rfl
  rw [hexec, taken_eq ha]
  obtain h | h := h
  · rw [h, if_neg Bool.false_ne_true]
  · rw [h]
    exact congrArg _ (ite_self s)

theorem exec_grant_of_choice (ha : awake s) (reads : List ReadChoice) (hmay : mayGrant s = true)
    (hchoice : arbiterChoice s = some q) :
    exec (.grant reads) s = .next (startSequence q reads (enterStarting q (arbiterMove q s))) := by
  simp only [exec, execGrant, taken_eq ha, hmay, if_true, hchoice]

end

/-! ### The start sequence (R62) -/

section

variable {s : State} {q : Fin 4} {pos : Nat} {h : Header} {j : JobRec}

/-- The job record of a granted head. -/
def startingRec (j : JobRec) : JobRec := { j with jstate := .starting, trun := false }

theorem enterStarting_of_data (hh : (s.queue q).head = .data pos h j) :
    enterStarting q s = s.setHead q (.data pos h (startingRec j)) := by
  rw [enterStarting, headJob_of_data hh]
  exact setJob_of_data hh _

theorem claimResult_setHead (x : Head) (d : DataRec) : claimResult (s.setHead q x) d = claimResult s d :=
  claimResult_congr (s := s) (t := s.setHead q x) rfl d

theorem startSequence_of_failed {st : Status} (hc : claimResult s j.data = .failed st) (reads : List ReadChoice) :
    startSequence q reads (s.setHead q (.data pos h (startingRec j))) =
      completeHead q { completion s q h st with waited := j.waited, chainHit := j.chainHit } s := by
  have hh : ((s.setHead q (.data pos h (startingRec j))).queue q).head = .data pos h (startingRec j) := by
    rw [State.queue_setHead_self]
  rw [startSequence, headJob_of_data hh]
  dsimp only [startingRec] at hh ⊢
  rw [claimResult_setHead, hc]
  dsimp only
  rw [completeJob_of_data hh, completeHead_setHead]
  rfl

theorem startSequence_of_unready (hc : claimResult s j.data = .unready) (reads : List ReadChoice) :
    startSequence q reads (s.setHead q (.data pos h (startingRec j))) =
      s.setHead q (.data pos h { j with jstate := .waiting, waited := true, trun := true }) := by
  have hh : ((s.setHead q (.data pos h (startingRec j))).queue q).head = .data pos h (startingRec j) := by
    rw [State.queue_setHead_self]
  rw [startSequence, headJob_of_data hh]
  dsimp only [startingRec] at hh ⊢
  rw [claimResult_setHead, hc]
  dsimp only
  rw [setJob_of_data hh, State.setHead_setHead]

theorem startSequence_of_granted (hc : claimResult s j.data = .granted) (reads : List ReadChoice) :
    startSequence q reads (s.setHead q (.data pos h (startingRec j))) = chainStep q reads
      ((setClaims true (namedStreams j.data) s).setHead q
        (.data pos h { j with jstate := .starting, trun := false, claims := decide (namedStreams j.data ≠ []) })) := by
  have hh : ((s.setHead q (.data pos h (startingRec j))).queue q).head = .data pos h (startingRec j) := by
    rw [State.queue_setHead_self]
  have hclaims : (!(namedStreams j.data).isEmpty) = decide (namedStreams j.data ≠ []) := by
    rw [← decide_eq_nil, decide_not]
  rw [startSequence, headJob_of_data hh]
  dsimp only [startingRec] at hh ⊢
  rw [claimResult_setHead, hc]
  dsimp only
  rw [hclaims, setClaims_setHead, setJob_of_data (pos := pos) (h := h) (by rw [State.queue_setHead_self]), State.setHead_setHead]

end

/-! ### The entry to RUNNING (R65, R106, R118) -/

section

variable {s : State} {q : Fin 4} {pos : Nat} {h : Header} {j : JobRec}

theorem loadDelay_of_running {t : State} (hq : t.dp.jobq = q) (hh : (t.queue q).head = .data pos h j) :
    loadDelay t = { t with dp := { t.dp with delay := (jobDelay t j).map (fun x => x.getD 0) } } := by
  simp only [loadDelay, runningJob, hq, headJob_of_data hh]

theorem enterRunning_of_data (hh : (s.queue q).head = .data pos h j) (reads : List ReadChoice) :
    enterRunning q reads s = issueReads reads (loadDelay
      (({ holdContext j s with dp := freshDp s q j } : State).setHead q (.data pos h (runningRec s j)))) := by
  have hheld : (({ holdContext j s with dp := freshDp s q j } : State).queue q).head = .data pos h j :=
    (congrArg QueueRec.head ((holdContext_changes j s).queue rfl q)).trans hh
  simp only [enterRunning, headJob_of_data hh, setJob_of_data hheld]

/-- A job without a chain has no delay line. -/
theorem jobDelay_of_no_chain {t : State} (hj : j.chainEnt = none) : jobDelay t j = [] := by
  unfold jobDelay
  split
  · simp [jobStages, hj, chainTaps, delayLine]
  · rfl

/-- A MIX enters RUNNING without a context and without a chain. -/
theorem enterRunning_of_mix {gains : List Sample} (hh : (s.queue q).head = .data pos h j) (hkind : j.data.kind = .mix gains)
    (hchain : j.chainEnt = none) (htrun : j.trun = false) (reads : List ReadChoice) : enterRunning q reads s = issueReads reads
      (({ s with dp := { Datapath.idle with
            st := .compute
            jobq := q
            inputs := j.data.inputs.map (fun (e : Endpoint) => match e with
              | .stream _ => { rdnext := 0, words := [] }
              | .memory a => { rdnext := a.toNat, words := [] }) } } : State).setHead q
        (.data pos h { j with jstate := .running, timer := none, chainWait := .none, ctxReset := false })) := by
  have hcontext : jobContext j.data = none := by rw [jobContext, hkind]
  have hrec : runningRec s j = { j with jstate := .running, timer := none, chainWait := .none, ctxReset := false } := by
    rw [runningRec, startReset, hcontext, Option.isSome_none, Bool.false_and, htrun]
  have hinputs : (jobRegions s j).map freshInput = j.data.inputs.map (fun (e : Endpoint) => match e with
      | .stream _ => { rdnext := 0, words := [] }
      | .memory a => { rdnext := a.toNat, words := [] }) := by
    rw [jobRegions, List.map_map]
    refine List.map_congr_left fun e _ => ?_
    cases e <;> simp [jobStages, hchain, chainTaps, inputRegion, freshInput]
  have hfresh : freshDp s q j = { Datapath.idle with
      st := .compute, jobq := q, inputs := (jobRegions s j).map freshInput } := by
    simp only [freshDp, startState, hcontext]
    rfl
  rw [enterRunning_of_data hh, hrec, hfresh, hinputs, holdContext, hcontext,
    loadDelay_of_running (q := q) rfl (by rw [State.queue_setHead_self]), jobDelay_of_no_chain (by exact hchain)]
  rfl

end

/-- Settles O48: the stream checks, a grant that has nothing to do, the claims, and each way the start sequence goes. -/
theorem grantRule : Obligations.GrantRule := by
  refine ⟨fun r n => ⟨fun hd role => streamCheck_of_free hd role n, fun hd => ⟨fun hk => ?wrongIn, fun hk => ?wrongOut,
      fun role hk => ?kind, ?readyIn, ?readyOut⟩⟩, fun s reads ha hnone => ?nothing,
    fun b ns s => ⟨setClaims_frame b ns s, setClaims_record b ns s⟩, ?grant⟩
  case wrongIn => exact streamCheck_of_wrong_kind hd (by simpa [endpointKindOk] using hk) n
  case wrongOut => exact streamCheck_of_wrong_kind hd (by simpa [endpointKindOk] using hk) n
  case kind =>
    rw [streamCheck_of_kind hd ((endpointKindOk_iff r role).mpr hk)]
    exact ⟨fun hlt => if_pos hlt, fun hle => if_neg (Nat.not_lt.mpr hle)⟩
  case readyIn => simp [streamReady, hd]
  case readyOut => rw [streamReady, hd, Bool.true_and, decide_eq_true_iff, freeSpace]
  case nothing =>
    refine exec_grant_of_nothing ha reads ?_
    obtain hst | ⟨r, hr⟩ | hready := hnone
    · exact .inl (Bool.eq_false_iff.mpr fun hmay => hst ((mayGrant_iff s).mp hmay).1)
    · exact .inl (Bool.eq_false_iff.mpr fun hmay =>
        Bool.false_ne_true ((((mayGrant_iff s).mp hmay).2 r).symm.trans hr))
    · exact .inr (arbiterChoice_of_none hready)
  case grant =>
    intro s reads q pos h j u v ha hrun hidle hh hj hturn
    have hready : headIn .ready (s.queue q).head = true := by
      rw [hh, headIn, hj]
      rfl
    have hchosen : arbiterChoice s = some q ∧ arbiterMove q s = u := by
      obtain ⟨rfl, hcredit, rfl⟩ | ⟨hno, hbefore, rfl⟩ := hturn
      · exact arbiterChoice_of_turn hready hcredit
      · exact arbiterChoice_of_next hno hready hbefore
    have hmove : Changes [.arbiter] s u := hchosen.2 ▸ arbiterMove_changes q s
    have huh : (u.queue q).head = .data pos h j := by rw [hmove.queue rfl, hh]
    have hstart : exec (.grant reads) s =
        .next (startSequence q reads (u.setHead q (.data pos h (startingRec j)))) := by
      rw [exec_grant_of_choice ha reads ((mayGrant_iff s).mpr ⟨hrun, hidle⟩) hchosen.1, hchosen.2, enterStarting_of_data huh]
    have hclaim : claimResult u j.data = claimResult s j.data := claimResult_congr (hmove.streams rfl) _
    have hgranted : ∀ y : Fin 48 × Role, streamCheck (s.stream y.1) y.2 j.data.n = none ∧
        streamReady (s.stream y.1) y.2 j.data.n = true → claimOne (s.stream y.1) y.2 j.data.n = .granted :=
      fun y hy => (claimOne_eq_granted_iff ..).mpr hy
    refine ⟨fun before x after hroles hbefore => ⟨fun st hst => ?failed, fun hcheck hunready => ?unready⟩,
      fun hall k hk hv => ?granted⟩
    case failed =>
      have hone : claimOne (s.stream x.1) x.2 j.data.n = .failed st := by rw [claimOne, hst]
      have hfailed : claimResult u j.data = .failed st := by
        rw [hclaim, claimResult, hroles, claimAll_of_first (fun y hy => hgranted y (hbefore y hy))
          (by rw [hone]; exact nofun), hone]
      rw [hstart, startSequence_of_failed hfailed, completion_congr (s := s) (by rw [hmove.portA rfl]) (by rw [hmove.portB rfl])]
    case unready =>
      have hone : claimOne (s.stream x.1) x.2 j.data.n = .unready := by rw [claimOne, hcheck, hunready]; rfl
      have hfailed : claimResult u j.data = .unready := by
        rw [hclaim, claimResult, hroles, claimAll_of_first (fun y hy => hgranted y (hbefore y hy))
          (by rw [hone]; exact nofun), hone]
      rw [hstart, startSequence_of_unready hfailed]
    case granted =>
      have hyes : claimResult u j.data = .granted := by
        rw [hclaim]
        exact claimAll_of_granted fun y hy => hgranted y (hall y hy)
      have hchain : exec (.grant reads) s = .next (chainStep q reads v) := by
        rw [hstart, startSequence_of_granted hyes, hv, hk]
      have hvh : (v.queue q).head = .data pos h k := by rw [hv, State.queue_setHead_self]
      have hcache : v.cache = s.cache := by
        rw [hv, State.setHead_cache, (setClaims_changes ..).cache rfl, hmove.cache rfl]
      have hentry : ∀ x : Fin 8, v.entry x = s.entry x := fun x => by rw [State.entry, hcache, State.entry]
      have hkdata : k.data = j.data := by rw [hk]
      refine ⟨fun gains hkind hent => ?mix, fun addr context hkind => ⟨fun x hx haddr hunique => ?found, fun hmiss w hw => ?miss⟩⟩
      case mix =>
        have hkt : k.trun = false := by rw [hk]
        have hkent : k.chainEnt = none := by rw [hk, ← hent]
        have hstep : chainStep q reads v = enterRunning q reads v := by
          simp only [chainStep, headJob_of_data hvh, hkdata, hkind]
        have hmix := enterRunning_of_mix hvh (by rw [hkdata, hkind]) hkent hkt reads
        rw [← hkdata]
        exact hchain.trans (congrArg _ (hstep.trans hmix))
      case found =>
        have hfind : findEntry v addr = some x := findEntry_of_unique (by rw [hentry]; exact hx) (by rw [hentry]; exact haddr)
          (fun y => by rw [hentry]; exact hunique y)
        rw [hchain, chainStep_of_entry hvh (by rw [hkdata, hkind]) hfind, hentry]
        exact ⟨fun hvalid => by rw [if_pos hvalid],
          fun hfilling => by rw [if_neg (by rw [hfilling]; exact EState.noConfusion)]⟩
      case miss =>
        have hfind : findEntry v addr = none := (findEntry_eq_none_iff v addr).mpr fun y => by rw [hentry]; exact hmiss y
        have hreq : requested v addr = requested s addr := by rw [requested, hcache, requested]
        have hplace : placeFree v .job = placeFree s .job := by rw [placeFree, hcache, placeFree]
        rw [hchain, chainStep_of_miss hvh (by rw [hkdata, hkind]) hfind, hreq, hplace, ← hw]
        refine ⟨fun hin => ?_, fun hout hfree => ?_, fun hout htaken => ?_⟩
        · rw [(requested_iff ..).mpr hin, if_pos rfl]
        · have hwcache : w.cache = s.cache := by rw [hw, State.setHead_cache, hcache]
          rw [(requested_eq_false_iff ..).mpr hout, if_neg Bool.false_ne_true, (placeFree_iff ..).mpr hfree, if_pos rfl,
            placeRequest, hwcache]
        · rw [(requested_eq_false_iff ..).mpr hout, if_neg Bool.false_ne_true, (placeFree_eq_false_iff ..).mpr htaken,
            if_neg Bool.false_ne_true]

end Sys2Proof.Machine
end

section
/-! SUPPORT. The chain checks and the entry to RUNNING of a FILTER (R64, R65, R106, R118). -/

namespace Sys2Proof.Machine

open Sys2Proof

theorem chainTaps_of_not_fir {stages : List StageRec} (h : ∀ c rest, stages ≠ .fir c :: rest) : chainTaps stages = 0 := by
  unfold chainTaps
  split
  · exact absurd rfl (h _ _)
  · rfl

theorem chainHasBiquad_iff (stages : List StageRec) : chainHasBiquad stages = true ↔
    ∃ b0 b1 b2 a1 a2, .biquad b0 b1 b2 a1 a2 ∈ stages := by
  rw [chainHasBiquad, List.any_eq_true]
  constructor
  · rintro ⟨st, hmem, hst⟩
    cases st with
    | biquad b0 b1 b2 a1 a2 => exact ⟨b0, b1, b2, a1, a2, hmem⟩
    | fir c => exact absurd hst Bool.false_ne_true
    | gain g n => exact absurd hst Bool.false_ne_true
  · rintro ⟨b0, b1, b2, a1, a2, hmem⟩
    exact ⟨_, hmem, rfl⟩

theorem useEnd_eq (x : Fin 8) (s : State) : useEnd x s =
    s.setEntry x (if (s.entry x).stale = true then Entry.free else { s.entry x with inuse := false }) := by
  unfold useEnd
  split <;> rfl

theorem histPos_ringWord (r : StreamRec) (k : Nat) : ringWord r (histPos r k) = ringWord r (r.rdpos + r.length - k) := by
  rw [ringWord, histPos, Nat.mod_mod, ringWord]

/-- A FILTER of one input in its chain, where it holds its entry. -/
structure HoldsChain (s : State) (q : Fin 4) (pos : Nat) (h : Header) (j : JobRec) (context : Option (Fin 32)) (i : Endpoint)
    (x : Fin 8) : Prop where
  head : (s.queue q).head = .data pos h j
  context : jobContext j.data = context
  inputs : j.data.inputs = [i]
  entry : j.chainEnt = some x

section

variable {s : State} {q : Fin 4} {pos : Nat} {h : Header} {j : JobRec} {context : Option (Fin 32)} {i : Endpoint} {x : Fin 8}

theorem HoldsChain.stages (hc : HoldsChain s q pos h j context i x) : jobStages s j = (s.entry x).stages := by
  simp only [jobStages, hc.entry]

theorem historyShort_iff (s : State) (taps : Nat) (i : Endpoint) : historyShort s taps i = true ↔
    ∃ n, i = .stream n ∧ (s.stream n).hist + 1 < taps := by
  cases i with
  | stream n =>
    simp only [historyShort, decide_eq_true_iff, Endpoint.stream.injEq, exists_eq_left']
    omega
  | memory a => simp [historyShort]

theorem chainCheck_of_needsContext (hc : HoldsChain s q pos h j context i x) (hnone : context = none)
    (hbiquad : chainHasBiquad (s.entry x).stages = true) : chainCheck s j = some .needsContext := by
  simp [chainCheck, hc.stages, hc.context, hnone, hbiquad]

theorem chainCheck_of_context (hc : HoldsChain s q pos h j context i x)
    (hok : context ≠ none ∨ chainHasBiquad (s.entry x).stages = false) : chainCheck s j =
      if historyShort s (chainTaps (s.entry x).stages) i = true then some .historyShort else none := by
  have hfirst : (context.isNone && chainHasBiquad (s.entry x).stages) = false := by
    obtain h | h := hok
    · rw [Option.isNone_eq_false_iff.mpr (Option.isSome_iff_ne_none.mpr h), Bool.false_and]
    · rw [h, Bool.and_false]
  simp only [chainCheck, hc.stages, hc.context, hfirst, hc.inputs, List.any_cons, List.any_nil, Bool.or_false,
    Bool.false_eq_true, if_false]

/-- A chain check that fails gives up the claims and the entry (R64). -/
theorem startWithChain_of_failed (hc : HoldsChain s q pos h j context i x) {st : Status} (hst : chainCheck s j = some st)
    (reads : List ReadChoice) : startWithChain q reads s =
      completeHead q { completion s q h st with waited := j.waited, chainHit := j.chainHit }
        (useEnd x (if j.claims then releaseStreams j.data s else s)) := by
  have hgiven : Changes [.streams, .notices] s (if j.claims then releaseStreams j.data s else s) := by
    split
    · exact releaseStreams_changes j.data s
    · exact Changes.refl _ s
  have huse : useEndOf j (if j.claims then releaseStreams j.data s else s) =
      useEnd x (if j.claims then releaseStreams j.data s else s) := by
    simp only [useEndOf, hc.entry]
  have hended := hgiven.trans (useEndOf_changes j _)
  simp only [startWithChain, headJob_of_data hc.head, hst]
  rw [failStart_of_data hc.head, completeJob_of_data (by rw [hended.queue rfl, hc.head]),
    jobCompletion_congr (s := s) (by rw [hended.portA rfl]) (by rw [hended.portB rfl]), huse, jobCompletion]

/-- A job that passes the checks enters RUNNING with its context read (R65, R118). -/
theorem startWithChain_of_passed (hc : HoldsChain s q pos h j context i x) (hpass : chainCheck s j = none)
    (reads : List ReadChoice) : startWithChain q reads s = issueReads reads (loadDelay
      (({ holdContext j s with dp := freshDp s q j } : State).setHead q (.data pos h (runningRec s j)))) := by
  simp only [startWithChain, headJob_of_data hc.head, hpass]
  exact enterRunning_of_data hc.head reads

theorem startContext_of_none (hc : HoldsChain s q pos h j none i x) :
    holdContext j s = s ∧ startState s j = bqZero ∧ startReset s j = false := by
  simp [holdContext, startState, startReset, hc.context]

theorem contextMatches_eq_decide {c : Fin 32} (hc : HoldsChain s q pos h j (some c) i x) :
    contextMatches s j = decide ((s.context c).binding = some (s.entry x).addr) := by
  have hchain : jobChain s j = some (s.entry x).addr := by rw [jobChain, hc.entry, Option.map_some]
  simp only [contextMatches, hc.context, hchain]
  by_cases hb : (s.context c).binding = some (s.entry x).addr <;> simp [hb]

theorem holdContext_of_some {c : Fin 32} (hc : HoldsChain s q pos h j (some c) i x) :
    holdContext j s = s.setContext c { s.context c with held := true } := by
  simp only [holdContext, hc.context]

theorem startState_of_match {c : Fin 32} (hc : HoldsChain s q pos h j (some c) i x)
    (hb : (s.context c).binding = some (s.entry x).addr) :
    startState s j = (s.context c).sstate ∧ startReset s j = false := by
  have hm : contextMatches s j = true := by rw [contextMatches_eq_decide hc, hb, decide_eq_true_iff]
  simp [startState, startReset, hc.context, hm]

theorem startState_of_mismatch {c : Fin 32} (hc : HoldsChain s q pos h j (some c) i x)
    (hb : (s.context c).binding ≠ some (s.entry x).addr) : startState s j = bqZero ∧ startReset s j = true := by
  have hm : contextMatches s j = false := by rw [contextMatches_eq_decide hc, decide_eq_false_iff_not]; exact hb
  simp [startState, startReset, hc.context, hm]

/-- DELAY before sample 0 of a job that has just entered RUNNING. -/
theorem loadDelay_of_holdsChain (hc : HoldsChain s q pos h j context i x) {t : State} {inp : DpInput} (ht : t.dp.jobq = q)
    (hin : t.dp.inputs = [inp]) (hhead : (t.queue q).head = .data pos h (runningRec s j)) (hent : t.entry x = s.entry x) :
    loadDelay t = { t with dp := { t.dp with
      delay := (delayLine t i inp (chainTaps (s.entry x).stages)).map (fun w => w.getD 0) } } := by
  have hstages : jobStages t (runningRec s j) = (s.entry x).stages := by
    rw [← hent]
    simp only [jobStages, runningRec, hc.entry]
  have hinputs : (runningRec s j).data.inputs = [i] := hc.inputs
  rw [loadDelay_of_running ht hhead, jobDelay, hinputs, hin, hstages]

end

/-- Settles O49: each failing check, then the entry to RUNNING with the delay line of a stream and of memory. -/
theorem entryToRunningRule : Obligations.EntryToRunningRule := by
  refine ⟨fun coefs stages => ⟨rfl, chainTaps_of_not_fir, chainHasBiquad_iff stages⟩, useEnd_eq, ?_⟩
  rintro s q pos h j addr context x i taps reads hh hkind hinputs hent rfl
  have hc : HoldsChain s q pos h j context i x := ⟨hh, by rw [jobContext, hkind], hinputs, hent⟩
  refine ⟨fun st hst => startWithChain_of_failed hc ?failed reads,
    fun hok hhist u bq reset hnone hsome dp hdp run hrun => ?enter⟩
  case failed =>
    obtain ⟨rfl, hnone, hbiquad⟩ | ⟨rfl, hok, hshort⟩ := hst
    · exact chainCheck_of_needsContext hc hnone hbiquad
    · rw [chainCheck_of_context hc hok, if_pos ((historyShort_iff ..).mpr hshort)]
  case enter =>
    have hpass : chainCheck s j = none := by
      rw [chainCheck_of_context hc hok, if_neg]
      rintro hshort
      obtain ⟨n, hi, hlt⟩ := (historyShort_iff ..).mp hshort
      exact absurd (hhist n hi) (Nat.not_le.mpr hlt)
    have hcontext : holdContext j s = u ∧ startState s j = bq ∧ startReset s j = reset := by
      cases context with
      | none =>
        obtain ⟨rfl, rfl, rfl⟩ := hnone rfl
        exact startContext_of_none hc
      | some c =>
        obtain ⟨rfl, ⟨hb, rfl, rfl⟩ | ⟨hb, rfl, rfl⟩⟩ := hsome c rfl
        · exact ⟨holdContext_of_some hc, startState_of_match hc hb⟩
        · exact ⟨holdContext_of_some hc, startState_of_mismatch hc hb⟩
    obtain ⟨hheld, hstate, hreset⟩ := hcontext
    have hu : Changes [.contexts] s u := hheld ▸ holdContext_changes j s
    have hrec : runningRec s j = { j with jstate := .running, timer := none, trun := false, chainWait := .none, ctxReset := reset } := by
      rw [runningRec, hreset]
    have hfresh : freshDp s q j = { dp with
        inputs := [freshInput (inputRegion i j.data.n (chainTaps (s.entry x).stages))] } := by
      rw [freshDp, jobRegions, hinputs, hc.stages, hstate, hdp]
      rfl
    have hstart : startWithChain q reads s = issueReads reads (loadDelay (run { dp with
        inputs := [freshInput (inputRegion i j.data.n (chainTaps (s.entry x).stages))] })) := by
      rw [startWithChain_of_passed hc hpass, hheld, hfresh, hrun, hrec]
    have hdelay : ∀ inp, loadDelay (run { dp with inputs := [inp] }) = run { dp with
        inputs := [inp]
        delay := (delayLine (run { dp with inputs := [inp] }) i inp (chainTaps (s.entry x).stages)).map (fun w => w.getD 0) } := by
      intro inp
      have hrunq : ((run { dp with inputs := [inp] }).queue q).head = .data pos h (runningRec s j) := by
        rw [hrun, hrec, State.queue_setHead_self]
      rw [loadDelay_of_holdsChain hc (inp := inp) (by rw [hrun, hdp]; rfl) (by rw [hrun]; rfl) hrunq
        (by rw [hrun]; exact hu.entry rfl x), hrun, hrun]
      rfl
    rw [hdelay] at hstart
    refine ⟨fun n hi => ?stream, fun a hi => ?memory⟩
    case stream =>
      subst hi
      have hwords : ∀ inp, (delayLine (run { dp with inputs := [inp] }) (.stream n) inp (chainTaps (s.entry x).stages)).map
          (fun w => w.getD 0) = (List.range (chainTaps (s.entry x).stages - 1)).map (fun k => storeRead s.store
            (ringWord (s.stream n) ((s.stream n).rdpos + (s.stream n).length - (k + 1)))) := by
        intro inp
        have hstream : (run { dp with inputs := [inp] }).stream n = s.stream n := by rw [hrun]; exact hu.stream rfl n
        have hstore : (run { dp with inputs := [inp] }).store = s.store := by rw [hrun]; exact hu.store rfl
        rw [delayLine, List.map_map]
        refine List.map_congr_left fun k _ => ?_
        simp only [Function.comp_apply, delaySample, Option.getD_some, hstream, hstore, histPos_ringWord]
      rw [hwords] at hstart
      exact hstart
    case memory =>
      subst hi
      have hzero : ∀ t : State, (delayLine t (.memory a) (freshInput (inputRegion (.memory a) j.data.n
          (chainTaps (s.entry x).stages))) (chainTaps (s.entry x).stages)).map (fun w => w.getD 0) =
          List.replicate (chainTaps (s.entry x).stages - 1) 0 := by
        intro t
        rw [delayLine, List.map_map, List.eq_replicate_iff]
        refine ⟨by rw [List.length_map, List.length_range], fun w hw => ?_⟩
        obtain ⟨k, -, rfl⟩ := List.mem_map.mp hw
        simp only [Function.comp_apply, delaySample, inputRegion, freshInput, inputWord, List.lookup_nil]
        split <;> rfl
      rw [hzero] at hstart
      exact hstart

end Sys2Proof.Machine
end

section
/-! SUPPORT. The loader: the victim of a fill, its beginning, and the looks of those who wait for a place (R81, R82, R90). -/

namespace Sys2Proof.Machine

open Sys2Proof

/-! ### The victim (R82) -/

/-- The first member of a sorted list with a property. -/
theorem find?_of_sorted {p : Fin 8 → Bool} {l : List (Fin 8)} {e : Fin 8} (hl : l.Pairwise (· < ·)) (he : e ∈ l)
    (hp : p e = true) (hbefore : ∀ f < e, p f = false) : l.find? p = some e := by
  induction l with
  | nil => cases he
  | cons x rest ih =>
    obtain ⟨hlt, hrest⟩ := List.pairwise_cons.mp hl
    obtain rfl | hmem := List.mem_cons.mp he
    · exact List.find?_cons_of_pos hp
    · rw [List.find?_cons_of_neg (by rw [hbefore x (hlt e hmem)]; exact Bool.false_ne_true), ih hrest hmem]

/-- An entry that is neither PINNED nor in use. -/
def replaceable (x : Entry) : Bool := !x.pinned && !x.inuse

theorem replaceable_eq_false_iff (x : Entry) : replaceable x = false ↔ x.pinned = true ∨ x.inuse = true := by
  cases hp : x.pinned <;> simp [replaceable, hp]

theorem chooseVictim_of_empty {s : State} {e : Fin 8} (he : (s.entry e).estate = .empty)
    (hbefore : ∀ f < e, (s.entry f).estate ≠ .empty) : chooseVictim s = some e := by
  have hfind : entryIds.find? (fun e => decide ((s.entry e).estate = .empty)) = some e :=
    find?_of_sorted (by simp [entryIds]) (mem_entryIds e) (by simp [he]) fun f hf => by simp [hbefore f hf]
  simp only [chooseVictim, hfind]

theorem chooseVictim_of_full {s : State} (hfull : ∀ f : Fin 8, (s.entry f).estate ≠ .empty) :
    chooseVictim s = s.cache.lru.find? (fun e => replaceable (s.entry e)) := by
  have hfind : entryIds.find? (fun e => decide ((s.entry e).estate = .empty)) = none :=
    List.find?_eq_none.mpr fun f _ => by simp [hfull f]
  simp only [chooseVictim, hfind]
  rfl

theorem chooseVictim_of_lru {s : State} {e : Fin 8} {before after : List (Fin 8)}
    (hfull : ∀ f : Fin 8, (s.entry f).estate ≠ .empty) (hlru : s.cache.lru = before ++ e :: after)
    (hpin : (s.entry e).pinned = false) (huse : (s.entry e).inuse = false)
    (hbefore : ∀ f ∈ before, (s.entry f).pinned = true ∨ (s.entry f).inuse = true) : chooseVictim s = some e := by
  rw [chooseVictim_of_full hfull, hlru, List.find?_eq_some_iff_append]
  refine ⟨by simp [replaceable, hpin, huse], before, after, rfl, fun f hf => ?_⟩
  rw [(replaceable_eq_false_iff _).mpr (hbefore f hf)]
  rfl

theorem chooseVictim_of_none {s : State} (hfull : ∀ f : Fin 8, (s.entry f).estate ≠ .empty)
    (hlru : ∀ f ∈ s.cache.lru, (s.entry f).pinned = true ∨ (s.entry f).inuse = true) : chooseVictim s = none := by
  rw [chooseVictim_of_full hfull, List.find?_eq_none]
  exact fun f hf => by rw [(replaceable_eq_false_iff _).mpr (hlru f hf)]; exact Bool.false_ne_true

theorem chooseVictim_congr {s t : State} (he : t.cache.entries = s.cache.entries) (hl : t.cache.lru = s.cache.lru) :
    chooseVictim t = chooseVictim s := by
  have hentry : ∀ e, t.entry e = s.entry e := fun e => by rw [State.entry, he, State.entry]
  simp only [chooseVictim, hentry, hl]

theorem fillAddressOk_iff (addr : Word) : fillAddressOk addr = true ↔ addr.toNat % 16 = 0 ∧ addr.toNat + 112 ≤ 2 ^ 32 := by
  rw [fillAddressOk, Bool.and_eq_true, decide_eq_true_iff, decide_eq_true_iff]
  exact Iff.rfl

/-! ### Who waits for a place looks again (R81, R90) -/

/-- The control unit's work taken away. -/
def freeUnit (s : State) : State := { s with cu := { s.cu with work := none } }

section

variable {s : State} {q : Fin 4} {pos : Nat} {h : Header} {body : ControlRec} {st : CtlState} {addr : Word}

theorem parkControl_freeUnit (hh : (s.queue q).head = .control pos h body st) :
    parkControl q (freeUnit s) = parkControl q s := by
  have hf : ((freeUnit s).queue q).head = .control pos h body st := hh
  simp only [parkControl, hh, hf]
  rfl

/-- A LOAD that finds its place free acts as if the unit had been idle. -/
theorem chainLoad_freeUnit (hh : (s.queue q).head = .control pos h body st) (hplace : placeFree s .control = true) (pin : Bool) :
    chainLoad q pin addr (freeUnit s) = chainLoad q pin addr s := by
  cases hf : findEntry s addr with
  | none =>
    have hf' : findEntry (freeUnit s) addr = none := hf
    cases href : pinRefused s pin addr with
    | true =>
      rw [chainLoad_of_refused hf href, chainLoad_of_refused hf' href]
      rfl
    | false =>
      cases hreq : requested s addr with
      | true =>
        rw [chainLoad_of_requested hf href hreq, chainLoad_of_requested hf' href hreq]
        exact parkControl_freeUnit (s := joinRequest addr q s) hh
      | false =>
        rw [chainLoad_of_place hf href hreq hplace, chainLoad_of_place hf' href hreq hplace]
        exact parkControl_freeUnit (s := placeRequest addr .control q s) hh
  | some x =>
    have hf' : findEntry (freeUnit s) addr = some x := hf
    cases hstale : (s.entry x).stale with
    | true =>
      rw [chainLoad_of_stale hf hstale, chainLoad_of_stale hf' hstale]
      rfl
    | false =>
      by_cases hfits : pinRefused s pin addr = false ∨ (s.entry x).pinned = true
      · by_cases hvalid : (s.entry x).estate = .valid
        · rw [chainLoad_of_hit hf hstale hvalid hfits, chainLoad_of_hit hf' hstale hvalid hfits]
          rfl
        · have hpark : ∀ t : State, findEntry t addr = some x → t.entry x = s.entry x → pinRefused t pin addr = pinRefused s pin addr →
              chainLoad q pin addr t = parkControl q (joinFill q t) := by
            intro t htf hte htp
            have hno : (!(s.entry x).pinned && pinRefused s pin addr) = false := by
              obtain h | h := hfits <;> simp [h]
            simp only [chainLoad_of_found htf, hte, htp, hstale, hno, hvalid, decide_false, if_false, Bool.false_eq_true]
          rw [hpark s hf rfl rfl, hpark (freeUnit s) hf' rfl rfl]
          exact parkControl_freeUnit (s := joinFill q s) hh
      · obtain ⟨href, hpin⟩ := not_or.mp hfits
        rw [chainLoad_of_refused_entry hf hstale (Bool.eq_false_iff.mpr hpin) (Bool.not_eq_false _ ▸ href),
          chainLoad_of_refused_entry hf' hstale (Bool.eq_false_iff.mpr hpin) (Bool.not_eq_false _ ▸ href)]
        rfl

theorem chainUnpin_freeUnit (s : State) (q : Fin 4) (addr : Word) : chainUnpin q addr (freeUnit s) = chainUnpin q addr s := by
  cases hf : findEntry s addr with
  | none =>
    have hf' : findEntry (freeUnit s) addr = none := hf
    simp only [chainUnpin, hf, hf']
    rfl
  | some x =>
    have hf' : findEntry (freeUnit s) addr = some x := hf
    have he : (freeUnit s).entry x = s.entry x := rfl
    simp only [chainUnpin, hf, hf', he]
    split <;> rfl

theorem chainInvalidate_freeUnit (s : State) (q : Fin 4) (addr : Word) :
    chainInvalidate q addr (freeUnit s) = chainInvalidate q addr s := by
  cases hf : findEntry s addr with
  | none =>
    have hf' : findEntry (freeUnit s) addr = none := hf
    simp only [chainInvalidate, hf, hf']
    rfl
  | some x =>
    have hf' : findEntry (freeUnit s) addr = some x := hf
    simp only [chainInvalidate, hf, hf', invalidate_eq]
    rfl

theorem chainInvalidateAll_freeUnit (s : State) (q : Fin 4) :
    chainInvalidateAll q (freeUnit s) = chainInvalidateAll q s := by
  simp only [chainInvalidateAll, invalidateAll_eq entryIds_nodup]
  rfl

theorem chainControl_freeUnit (hh : (s.queue q).head = .control pos h body st) (hplace : placeFree s .control = true)
    (action : ChainAction) : chainControl q action addr (freeUnit s) = chainControl q action addr s := by
  cases action with
  | load => exact chainLoad_freeUnit hh hplace false
  | loadPin => exact chainLoad_freeUnit hh hplace true
  | unpin => exact chainUnpin_freeUnit s q addr
  | invalidate => exact chainInvalidate_freeUnit s q addr
  | invalidateAll => exact chainInvalidateAll_freeUnit s q

theorem retryControlPlace_of_not_waiting (hw : ∀ q, s.cu.work ≠ some (.placeWait q)) : retryControlPlace s = s := by
  unfold retryControlPlace
  split
  · next h => exact absurd h (hw _)
  · rfl

theorem retryControlPlace_of_waiting {action : ChainAction} (hh : (s.queue q).head = .control pos h (.chainControl action addr) st)
    (hw : s.cu.work = some (.placeWait q)) :
    retryControlPlace s = if placeFree s .control then chainControl q action addr s else s := by
  simp only [retryControlPlace, hw, hh]

/-- No STARTING job waits unlisted for the JOB place (R81). -/
theorem retryJobPlace_of_none (hw : ∀ q : Fin 4, headIn .starting (s.queue q).head = true →
      (∃ pos h j, (s.queue q).head = .data pos h j ∧ j.chainWait ≠ .requested) ∨ ∃ r ∈ s.cache.reqs, q ∈ r.waiters) :
    retryJobPlace s = s := by
  have hnone : queueIds.find? (fun q => headIn .starting (s.queue q).head
      && decide ((headJob (s.queue q).head).map (fun j => j.chainWait) = some .requested)
      && !s.cache.reqs.any (fun r => r.waiters.contains q)) = none := by
    refine List.find?_eq_none.mpr fun q _ hq => ?_
    simp only [Bool.and_eq_true, decide_eq_true_iff, Bool.not_eq_true', List.any_eq_false, List.contains_iff_mem] at hq
    obtain ⟨⟨hstart, hreq⟩, hlist⟩ := hq
    obtain ⟨pos, h, j, hh, hne⟩ | ⟨r, hr, hmem⟩ := hw q hstart
    · rw [headJob_of_data hh] at hreq
      exact hne (Option.some.inj hreq)
    · exact hlist r hr hmem
  unfold retryJobPlace
  rw [hnone]

end

/-! ### The beginning of a fill (R82) -/

section

variable {s : State} {q : Fin 4} {pos : Nat} {h : Header} {j : JobRec}

theorem markFilling_cons_of_data (hh : (s.queue q).head = .data pos h j) (rest : List (Fin 4)) : markFilling (q :: rest) s =
    markFilling rest (s.setHead q (.data pos h { j with chainWait := .filling })) := by
  rw [markFilling, headJob_of_data hh]
  exact congrArg _ (setJob_of_data hh _)

theorem markFilling_cons_of_not_data (hh : ∀ pos h j, (s.queue q).head ≠ .data pos h j) (rest : List (Fin 4)) :
    markFilling (q :: rest) s = markFilling rest s := by
  have hnone : headJob (s.queue q).head = none := by
    cases he : (s.queue q).head with
    | data pos h j => exact absurd he (hh pos h j)
    | _ => rfl
  rw [markFilling, hnone]

/-- The state a request leaves with its waiters marked. -/
def takenRequest (r : Request) (rest : List Request) (s : State) : State :=
  markFilling r.waiters { s with cache := { s.cache with reqs := rest } }

theorem takenRequest_cache (r : Request) (rest : List Request) (s : State) :
    (takenRequest r rest s).cache = { s.cache with reqs := rest } := (markFilling_changes ..).cache rfl

theorem exec_fillBegin_of_request {r : Request} {rest : List Request} (ha : awake s) (hfill : s.cache.fill = none)
    (hreqs : s.cache.reqs = r :: rest) (order : List (Fin 4)) : exec (.fillBegin order) s =
      .next (checkDrain (retryControlPlace (retryJobPlace (beginFill r rest order s)))) := by
  simp only [exec, execFillBegin, taken_eq ha, hfill, hreqs]

/-- The cases of R82 in which an entry is the victim. -/
def IsVictim (s : State) (e : Fin 8) : Prop :=
  ((s.entry e).estate = .empty ∧ ∀ f < e, (s.entry f).estate ≠ .empty) ∨
    ((∀ f : Fin 8, (s.entry f).estate ≠ .empty) ∧ ∃ before after, s.cache.lru = before ++ e :: after ∧
      (s.entry e).pinned = false ∧ (s.entry e).inuse = false ∧
      ∀ f ∈ before, (s.entry f).pinned = true ∨ (s.entry f).inuse = true)

theorem chooseVictim_of_isVictim {e : Fin 8} (he : IsVictim s e) : chooseVictim s = some e := by
  obtain ⟨hempty, hbefore⟩ | ⟨hfull, before, after, hlru, hpin, huse, hbefore⟩ := he
  · exact chooseVictim_of_empty hempty hbefore
  · exact chooseVictim_of_lru hfull hlru hpin huse hbefore

theorem chooseVictim_takenRequest (r : Request) (rest : List Request) (s : State) :
    chooseVictim (takenRequest r rest s) = chooseVictim s := by
  have hc := takenRequest_cache r rest s
  exact chooseVictim_congr (by rw [hc]) (by rw [hc])

theorem beginFill_of_victim {r : Request} {rest : List Request} {e : Fin 8} (hok : fillAddressOk r.addr = true)
    (he : IsVictim s e) (order : List (Fin 4)) {v : State}
    (hv : v = (lruDrop e (takenRequest r rest s)).setEntry e { Entry.free with estate := .filling, addr := r.addr }) :
    beginFill r rest order s = { v with cache := { v.cache with fill := some (newFill r e) } } := by
  have hvictim : chooseVictim (markFilling r.waiters { s with cache := { s.cache with reqs := rest } }) = some e :=
    (chooseVictim_takenRequest r rest s).trans (chooseVictim_of_isVictim he)
  simp only [beginFill, hok, hvictim, Bool.not_true, Bool.false_eq_true, if_false, hv]
  rfl

theorem beginFill_of_bad_address {r : Request} {rest : List Request} (hbad : fillAddressOk r.addr = false)
    (order : List (Fin 4)) : beginFill r rest order s =
      serveFailedAll .chainInvalid (inOrder order r.waiters) (takenRequest r rest s) := by
  simp only [beginFill, hbad, Bool.not_false, if_true]
  rfl

theorem beginFill_of_no_victim {r : Request} {rest : List Request} (hok : fillAddressOk r.addr = true)
    (hnone : chooseVictim s = none) (order : List (Fin 4)) : beginFill r rest order s =
      serveFailedAll .chainNoRoom (inOrder order r.waiters) (takenRequest r rest s) := by
  have hvictim : chooseVictim (markFilling r.waiters { s with cache := { s.cache with reqs := rest } }) = none :=
    (chooseVictim_takenRequest r rest s).trans hnone
  simp only [beginFill, hok, hvictim, Bool.not_true, Bool.false_eq_true, if_false]
  rfl

/-- A request that fails at once, by its address or for want of a victim. -/
theorem beginFill_of_failed {r : Request} {rest : List Request} {st : Status}
    (hst : (¬ (r.addr.toNat % 16 = 0 ∧ r.addr.toNat + 112 ≤ 2 ^ 32) ∧ st = .chainInvalid) ∨
      ((r.addr.toNat % 16 = 0 ∧ r.addr.toNat + 112 ≤ 2 ^ 32) ∧ (∀ f : Fin 8, (s.entry f).estate ≠ .empty) ∧
        (∀ f ∈ s.cache.lru, (s.entry f).pinned = true ∨ (s.entry f).inuse = true) ∧ st = .chainNoRoom))
    (order : List (Fin 4)) :
    beginFill r rest order s = serveFailedAll st (inOrder order r.waiters) (takenRequest r rest s) := by
  obtain ⟨hbad, rfl⟩ | ⟨hok, hfull, hlru, rfl⟩ := hst
  · exact beginFill_of_bad_address (Bool.eq_false_iff.mpr fun h => hbad ((fillAddressOk_iff _).mp h)) order
  · exact beginFill_of_no_victim ((fillAddressOk_iff _).mpr hok) (chooseVictim_of_none hfull hlru) order

/-! ### Serving one waiter of a failed fill (R85) -/

theorem releaseStreams_setHead (d : DataRec) (s : State) (q : Fin 4) (h : Head) :
    releaseStreams d (s.setHead q h) = (releaseStreams d s).setHead q h := by
  rw [releaseStreams, setClaims_setHead]
  rfl

theorem serveFailed_of_parked {body : ControlRec} (hh : (s.queue q).head = .control pos h body .parked) (st : Status) :
    serveFailed st q s = completeHead q (completion s q h st) s := by
  have hnot : waiterIsJob s q = false := by rw [waiterIsJob, hh]; rfl
  simp only [serveFailed, hnot, Bool.false_eq_true, if_false, completeParked, hh]
  rfl

theorem serveFailed_of_job (hh : (s.queue q).head = .data pos h j) (hj : j.jstate = .starting) (hent : j.chainEnt = none)
    (st : Status) : serveFailed st q s = completeHead q { completion s q h st with waited := j.waited, chainHit := j.chainHit }
      (if j.claims then releaseStreams j.data s else s) := by
  have hjob : waiterIsJob s q = true := by rw [waiterIsJob, hh, headIn, hj]; rfl
  have hgiven : Changes [.streams, .notices] s (if j.claims then releaseStreams j.data s else s) := by
    split
    · exact releaseStreams_changes j.data s
    · exact Changes.refl _ s
  rw [serveFailed, hjob, if_pos rfl, failStart_of_data hh, useEndOf_of_none hent,
    completeJob_of_data (by rw [hgiven.queue rfl, hh]),
    jobCompletion_congr (s := s) (by rw [hgiven.portA rfl]) (by rw [hgiven.portB rfl]), jobCompletion]

theorem inOrder_singleton (order : List (Fin 4)) (q : Fin 4) : inOrder order [q] = [q] :=
  List.perm_singleton.mp (inOrder_perm order (List.nodup_singleton q))

end

/-- Settles O50: nothing to begin, the two looks, the marks, and a begun or failed fill for any waiters and for one. -/
theorem fillBeginRule : Obligations.FillBeginRule := by
  refine ⟨fun s order hnone => ?nothing, fun s q pos h body action addr hbody =>
      ⟨fun hs => by subst hbody; exact exec_chainControl hs, fun st hh hw => ?control⟩,
    fun s => retryControlPlace_of_not_waiting, fun s => retryJobPlace_of_none,
    fun q rest s => ⟨rfl, fun pos h j hh => markFilling_cons_of_data hh rest,
      fun hh => markFilling_cons_of_not_data hh rest⟩,
    fun s order r rest u ha hfill hreqs hu => ?any, fun s order r rest q look ha hfill hreqs hone hlook u hu => ?single⟩
  case nothing =>
    have hsame : exec (.fillBegin order) s = taken s s := by
      simp only [exec, execFillBegin]
      split
      · next hfill hreqs =>
        obtain h | h := hnone
        · exact absurd hfill h
        · cases h.symm.trans hreqs
      · rfl
    rw [hsame, taken, ite_self]
  case control =>
    subst hbody
    rw [retryControlPlace_of_waiting hh hw]
    refine ⟨fun htaken => by rw [(placeFree_eq_false_iff ..).mpr htaken]; rfl, fun hfree => ?_⟩
    have hplace := (placeFree_iff ..).mpr hfree
    rw [hplace, if_pos rfl, ← chainControl_freeUnit hh hplace action]
    refine ⟨rfl, ?_⟩
    rintro rfl hmiss hreq
    have hhf : ((freeUnit s).queue q).head = .control pos h (.chainControl .load addr) st := hh
    rw [chainControl, chainLoad_of_place ((findEntry_eq_none_iff (freeUnit s) addr).mpr hmiss) rfl
      ((requested_eq_false_iff (freeUnit s) addr).mpr hreq) hplace]
    exact parkControl_idle (u := placeRequest addr .control q (freeUnit s)) hhf rfl
  case any =>
    have hbegin := exec_fillBegin_of_request ha hfill hreqs order
    have hu' : takenRequest r rest s = u := hu.symm
    refine ⟨fun e halign htop he v hv => ?_, fun st hst => ?_⟩
    · rw [hbegin, beginFill_of_victim ((fillAddressOk_iff _).mpr ⟨halign, htop⟩) he order (hu' ▸ hv)]
      rfl
    · rw [hbegin, beginFill_of_failed hst order, hu']
  case single =>
    have hbegin := exec_fillBegin_of_request ha hfill hreqs order
    rw [← hlook] at hbegin
    have hcontrol : ∀ pos h body st, (s.queue q).head = .control pos h body st → takenRequest r rest s = u := by
      intro pos h body st hh
      rw [takenRequest, hone, hu]
      exact markFilling_cons_of_not_data (s := { s with cache := { s.cache with reqs := rest } })
        (fun _ _ _ heq => by cases hh.symm.trans heq) []
    have hdata : ∀ pos h j, (s.queue q).head = .data pos h j →
        takenRequest r rest s = u.setHead q (.data pos h { j with chainWait := .filling }) := by
      intro pos h j hh
      rw [takenRequest, hone, hu]
      exact markFilling_cons_of_data (s := { s with cache := { s.cache with reqs := rest } }) hh []
    refine ⟨fun e halign htop he v hv f hf => ⟨fun pos h body st hh => ?begunControl, fun pos h j hh => ?begunJob⟩,
      fun st hst => ⟨fun pos h body hh => ?failedControl, fun pos h j hh hj hent => ?failedJob⟩⟩
    case begunControl =>
      rw [hbegin, beginFill_of_victim ((fillAddressOk_iff _).mpr ⟨halign, htop⟩) he order (v := v)
        (by rw [hcontrol pos h body st hh, hv]; rfl), hf, ← hone]
      rfl
    case begunJob =>
      rw [hbegin, beginFill_of_victim ((fillAddressOk_iff _).mpr ⟨halign, htop⟩) he order rfl, hdata pos h j hh, hv, hf, ← hone]
      rfl
    case failedControl =>
      have huh : (u.queue q).head = .control pos h body .parked := by rw [hu]; exact hh
      rw [hbegin, beginFill_of_failed hst order, hcontrol pos h body _ hh, hone, inOrder_singleton, serveFailedAll,
        serveFailed_of_parked huh, serveFailedAll, completion_congr (s := s) (by rw [hu]) (by rw [hu])]
    case failedJob =>
      have huh : ((u.setHead q (.data pos h { j with chainWait := .filling })).queue q).head =
          .data pos h { j with chainWait := .filling } := by rw [State.queue_setHead_self]
      have hrelease : ∀ x : Head, (if j.claims then releaseStreams j.data (u.setHead q x) else u.setHead q x) =
          (if j.claims then releaseStreams j.data u else u).setHead q x := by
        intro x
        split
        · exact releaseStreams_setHead ..
        · rfl
      rw [hbegin, beginFill_of_failed hst order, hdata pos h j hh, hone, inOrder_singleton, serveFailedAll,
        serveFailed_of_job huh hj hent, serveFailedAll, hrelease, completeHead_setHead,
        completion_congr (s := s) (by rw [hu]; rfl) (by rw [hu]; rfl)]

end Sys2Proof.Machine
end

section
/-! SUPPORT. The parts of a fill: the stage records and what an answer does (R83, R190). -/

namespace Sys2Proof.Machine

open Sys2Proof

/-! ### The stage records (R190) -/

section

variable {bs : List Byte} {k : Nat}

theorem decodeStage_of_fir (ht : num8 bs (16 * k) = 1) : decodeStage bs k =
    if k = 0 ∧ 1 ≤ num16 bs (16 * k + 2) ∧ num16 bs (16 * k + 2) ≤ 128 then some (.fir (num16 bs (16 * k + 2))) else none := by
  simp only [decodeStage, ht]

theorem decodeStage_of_biquad (ht : num8 bs (16 * k) = 2) : decodeStage bs k = some (.stage (.biquad (half bs (16 * k + 2))
    (half bs (16 * k + 4)) (half bs (16 * k + 6)) (half bs (16 * k + 8)) (half bs (16 * k + 10)))) := by
  simp only [decodeStage, ht]

theorem decodeStage_of_gain (ht : num8 bs (16 * k) = 3) : decodeStage bs k =
    if num8 bs (16 * k + 1) ≤ 7 then some (.stage (.gain (half bs (16 * k + 2)) (num8 bs (16 * k + 1)))) else none := by
  simp only [decodeStage, ht]

theorem decodeStage_of_no_type (ht : num8 bs (16 * k) = 0 ∨ 3 < num8 bs (16 * k)) : decodeStage bs k = none := by
  unfold decodeStage
  dsimp only
  generalize num8 bs (16 * k) = t at ht
  split
  · omega
  · omega
  · omega
  · rfl

theorem decodeStage_eq_none_iff (bs : List Byte) (k : Nat) : decodeStage bs k = none ↔
    num8 bs (16 * k) = 0 ∨ 3 < num8 bs (16 * k) ∨
      (num8 bs (16 * k) = 1 ∧ (k ≠ 0 ∨ num16 bs (16 * k + 2) = 0 ∨ 128 < num16 bs (16 * k + 2))) ∨
      (num8 bs (16 * k) = 3 ∧ 7 < num8 bs (16 * k + 1)) := by
  have hcases : num8 bs (16 * k) = 0 ∨ 3 < num8 bs (16 * k) ∨ num8 bs (16 * k) = 1 ∨ num8 bs (16 * k) = 2 ∨
      num8 bs (16 * k) = 3 := by omega
  obtain h | h | h | h | h := hcases
  · exact iff_of_true (decodeStage_of_no_type (.inl h)) (.inl h)
  · exact iff_of_true (decodeStage_of_no_type (.inr h)) (.inr (.inl h))
  · rw [decodeStage_of_fir h, ite_eq_right_iff]
    simp [-not_and, h]
    omega
  · rw [decodeStage_of_biquad h]
    exact iff_of_false nofun (by omega)
  · rw [decodeStage_of_gain h, ite_eq_right_iff]
    simp [h]

theorem decodeStages_eq_none_iff (bs : List Byte) (count : Nat) : decodeStages bs count = none ↔ ∃ k, k < count ∧
    (num8 bs (16 * k) = 0 ∨ 3 < num8 bs (16 * k) ∨
      (num8 bs (16 * k) = 1 ∧ (k ≠ 0 ∨ num16 bs (16 * k + 2) = 0 ∨ 128 < num16 bs (16 * k + 2))) ∨
      (num8 bs (16 * k) = 3 ∧ 7 < num8 bs (16 * k + 1))) := by
  rw [decodeStages, mapM_eq_none_iff]
  exact exists_congr fun k => and_congr List.mem_range (decodeStage_eq_none_iff bs k)

/-- Each stage record decodes from its own 16 bytes. -/
theorem decodeStages_eq_some {count : Nat} {raws : List RawStage} (h : decodeStages bs count = some raws) :
    raws.length = count ∧ ∀ k, k < count → raws[k]? = decodeStage bs k := by
  have hmap := (mapM_eq_some_iff _ _ _).mp h
  have hlen : raws.length = count := by simpa using (congrArg List.length hmap).symm
  refine ⟨hlen, fun k hk => ?_⟩
  have hat := congrArg (fun l => l[k]?) hmap
  simp only [List.getElem?_map, List.getElem?_range hk, Option.map_some] at hat
  rw [List.getElem?_eq_getElem (by omega)] at hat ⊢
  exact (Option.some.inj hat).symm

end

theorem rawTaps_map_stage (stages : List StageRec) : rawTaps (stages.map .stage) = none := by
  cases stages <;> rfl

theorem stageOfRaw_map_stage (stages : List StageRec) : (stages.map RawStage.stage).map stageOfRaw = stages := by
  rw [List.map_map]
  exact List.map_id stages

theorem coefTableOk_iff (f : Fill) (taps : Nat) : coefTableOk f taps = true ↔
    f.coefAdr.toNat % 2 = 0 ∧ f.coefAdr.toNat + 2 * taps ≤ 2 ^ 32 := by
  rw [coefTableOk, Bool.and_eq_true, decide_eq_true_iff, decide_eq_true_iff]
  exact Iff.rfl

/-! ### The answer of a read of the fill (R83) -/

/-- The loader is not at rest while a fill is under way. -/
theorem checkDrain_of_fill {s : State} {f : Fill} (hf : s.cache.fill = some f) : checkDrain s = s :=
  checkDrain_of_busy (.inr (by simp [atRest, loaderIdle, hf]))

section

variable {s : State} {off : Nat} {a : Answer} {order : List (Fin 4)} {reads : List ReadChoice} {f g : Fill}

theorem exec_fillReadAnswer_of_fits (ha : awake s) (hfill : s.cache.fill = some f)
    (hfits : answerFits f.buf off (answerLength a) = true) (hg : g = { f with buf := bufTake f.buf off a }) :
    exec (.fillReadAnswer off a order reads) s = .next (if bufDone g.buf then checkDrain (partDone g order reads s)
      else { s with cache := { s.cache with fill := some g } }) := by
  subst hg
  simp only [exec, execFillReadAnswer, taken_eq ha, hfill, hfits, if_true]

theorem stagesDone_of_failed (hd : decodeStages (bufBytes g.buf) g.count = none) :
    stagesDone g order reads s = fillFailed .chainInvalid g order s := by
  simp only [stagesDone, hd]

theorem stagesDone_of_stages {stages : List StageRec}
    (hd : decodeStages (bufBytes g.buf) g.count = some (stages.map RawStage.stage)) :
    stagesDone g order reads s = fillPassed g order reads (putStages g stages s) := by
  simp only [stagesDone, hd, rawTaps_map_stage, stageOfRaw_map_stage]

theorem stagesDone_of_fir {taps : Nat} {later : List StageRec}
    (hd : decodeStages (bufBytes g.buf) g.count = some (.fir taps :: later.map RawStage.stage)) :
    stagesDone g order reads s = if coefTableOk g taps then
        nextPart { g with taps := taps } .coefs (2 * taps) (putStages g (.fir [] :: later) s)
      else fillFailed .chainInvalid g order s := by
  simp only [stagesDone, hd, rawTaps, List.map_cons, stageOfRaw_map_stage, stageOfRaw]

end

/-- Settles O51: the stage records at their offsets, and each outcome of an answer by the part it completes. -/
theorem fillReadRule : Obligations.FillReadRule := by
  refine ⟨fun bs count => ⟨decodeStages_eq_none_iff bs count, fun raws hraws => ?records⟩,
    fun s off a order reads f g bs ha hfill hfits hg hbs r hr => ?answer⟩
  case records =>
    obtain ⟨hlen, hat⟩ := decodeStages_eq_some hraws
    have hsome : ∀ k, k < count → decodeStage bs k ≠ none := fun k hk hnone => by
      have hno := (decodeStages_eq_none_iff bs count).mpr ⟨k, hk, (decodeStage_eq_none_iff bs k).mp hnone⟩
      cases hno.symm.trans hraws
    refine ⟨hlen, fun k hk => ⟨fun ht => ?_, fun ht => ?_, fun ht => ?_⟩⟩
    · rw [hat k hk]
      have hne := hsome k hk
      rw [decodeStage_of_fir ht] at hne ⊢
      exact if_pos (by_contra fun hn => hne (if_neg hn))
    · rw [hat k hk, decodeStage_of_biquad ht]
    · rw [hat k hk]
      have hne := hsome k hk
      rw [decodeStage_of_gain ht] at hne ⊢
      exact if_pos (by_contra fun hn => hne (if_neg hn))
  case answer =>
    have hexec := exec_fillReadAnswer_of_fits (order := order) (reads := reads) ha hfill hfits hg
    rw [← hr] at hexec
    have hpart : g.part = f.part := by rw [hg]
    refine ⟨fun hopen => ?waiting, fun hdone herr => ?error, fun hdone hok => ?parts⟩
    case waiting => rw [hexec, hopen, if_neg Bool.false_ne_true]
    case error => rw [hexec, hdone, if_pos rfl, partDone, herr, if_pos rfl]
    case parts =>
      rw [hdone, if_pos rfl, partDone, hok, if_neg Bool.false_ne_true] at hexec
      refine ⟨fun hp hlow hhigh => ?header, fun hp hbad => ?badHeader, fun hp hd => ?badStages, fun hp stages hd => ?stages,
        fun hp taps later hd => ⟨fun htable => ?coefs, fun htable => ?badTable⟩, fun hp first later hstages => ?last⟩
      all_goals
        rw [hpart, hp] at hexec
        dsimp only at hexec
      case header =>
        rw [hexec, headerDone, ← hbs, if_pos ⟨hlow, hhigh⟩, checkDrain_of_fill rfl, hg]
        rfl
      case badHeader => rw [hexec, headerDone, ← hbs, if_neg (by omega)]
      case badStages => rw [hexec, stagesDone_of_failed (by rw [← hbs, hg]; exact hd)]
      case stages =>
        rw [hexec, stagesDone_of_stages (by rw [← hbs, hg]; exact hd), hg]
        rfl
      case coefs =>
        rw [hexec, stagesDone_of_fir (by rw [← hbs, hg]; exact hd),
          if_pos ((coefTableOk_iff g taps).mpr (by rw [hg]; exact htable)), checkDrain_of_fill rfl, hg]
        rfl
      case badTable =>
        rw [hexec, stagesDone_of_fir (by rw [← hbs, hg]; exact hd),
          if_neg (mt (coefTableOk_iff g taps).mp (by rw [hg]; exact htable))]
      case last =>
        have hentry : g.entry = f.entry := by rw [hg]
        have htaps : g.taps = f.taps := by rw [hg]
        rw [hexec, coefsDone, hentry, hstages, ← hbs, htaps, putStages, hentry]
        rfl

end Sys2Proof.Machine
end

section
/-! SUPPORT. The end of a fill and its waiters (R84, R85). -/

namespace Sys2Proof.Machine

open Sys2Proof

/-! ### The order of the waiters (log 4) -/

theorem inOrder_nil (order : List (Fin 4)) : inOrder order [] = [] := by simp [inOrder]

theorem nil_inOrder (ws : List (Fin 4)) : inOrder [] ws = ws := by simp [inOrder]

theorem inOrder_of_perm {order ws : List (Fin 4)} (hws : ws.Nodup) (h : order.Perm ws) : inOrder order ws = order := by
  rw [inOrder_of_nodup (h.nodup_iff.mpr hws) fun q hq => h.subset hq, List.filter_eq_nil_iff.mpr, List.append_nil]
  exact fun q hq => by simpa using h.symm.subset hq

/-! ### The entry a fill leaves (R84, R85) -/

theorem any_waiterIsJob_iff (s : State) (ws : List (Fin 4)) :
    ws.any (waiterIsJob s) = true ↔ ∃ w ∈ ws, headIn .starting (s.queue w).head = true := List.any_eq_true

theorem any_pendingPin_iff (s : State) (ws : List (Fin 4)) : ws.any (fun q => (pendingPin (s.queue q).head).isSome) = true ↔
    ∃ w ∈ ws, ∃ pos h a, (s.queue w).head = .control pos h (.chainControl .loadPin a) .parked := by
  simp only [List.any_eq_true, Option.isSome_iff_exists, pendingPin_eq_some_iff]
  refine exists_congr fun w => and_congr_right fun _ => ?_
  constructor
  · rintro ⟨a, pos, h, hh⟩
    exact ⟨pos, h, a, hh⟩
  · rintro ⟨pos, h, a, hh⟩
    exact ⟨a, pos, h, hh⟩

section

variable {s : State} {f : Fill} {job pin : Bool}

/-- A passed fill of an entry that is not stale. -/
theorem fillPassed_of_fresh (hstale : (s.entry f.entry).stale = false) (hjob : f.waiters.any (waiterIsJob s) = job)
    (hpin : f.waiters.any (fun q => (pendingPin (s.queue q).head).isSome) = pin) (order : List (Fin 4)) (reads : List ReadChoice) :
    fillPassed f order reads s = servePassedAll f.entry false reads (inOrder order f.waiters) (lruJoin f.entry
      ((noFill s).setEntry f.entry { s.entry f.entry with estate := .valid, pinned := pin, inuse := job })) := by
  simp only [fillPassed, hstale, hjob, hpin, filledEntry, Bool.false_eq_true, if_false]

theorem fillPassed_of_stale (hstale : (s.entry f.entry).stale = true) (hjob : f.waiters.any (waiterIsJob s) = job)
    (order : List (Fin 4)) (reads : List ReadChoice) : fillPassed f order reads s =
      servePassedAll f.entry true reads (inOrder order f.waiters) ((noFill s).setEntry f.entry
        (if job then { s.entry f.entry with estate := .valid, pinned := false, inuse := true } else Entry.free)) := by
  simp only [fillPassed, hstale, hjob, filledEntry, if_true]

end

/-! ### Serving one waiter (R84) -/

section

variable {s : State} {q : Fin 4} {pos : Nat} {h : Header} {j : JobRec} {body : ControlRec}

theorem servePassed_of_parked (hh : (s.queue q).head = .control pos h body .parked) (e : Fin 8) (stale : Bool)
    (reads : List ReadChoice) : servePassed e stale reads q s = completeHead q
      (if stale then completion s q h .notFound else { completion s q h .ok with detail := .entry e }) s := by
  cases stale with
  | false => simp only [servePassed, completeParked, hh, Bool.false_eq_true, if_false]
  | true =>
    simp only [servePassed, completeParked, hh, if_true]
    rfl

theorem servePassed_of_job (hh : (s.queue q).head = .data pos h j) (hj : j.jstate = .starting) (e : Fin 8) (stale : Bool)
    (reads : List ReadChoice) : servePassed e stale reads q s =
      startWithChain q reads (s.setHead q (.data pos h { j with chainEnt := some e, chainWait := .none })) := by
  simp only [servePassed, hh, hj, if_true, setJob_of_data hh]

end

/-- Settles O52: the entry a fill leaves, the order, one waiter's service, and a fill with a single waiter. -/
theorem fillEndRule : Obligations.FillEndRule := by
  refine ⟨fun s u f order reads x job pin hx hu hjob hpin => ?entry,
    fun order ws => ⟨inOrder_nil order, nil_inOrder ws, fun hws => ⟨inOrder_perm order hws, inOrder_of_perm hws⟩⟩,
    fun s e st stale reads q rest => ⟨rfl, rfl, fun pos h body hh => ⟨?okParked, ?staleParked, ?failedParked⟩,
      fun pos h j hh hj => ⟨?okJob, fun hent => ?failedJob⟩⟩,
    fun s u f order q x hone hx hu => ⟨fun pos h action addr hh => ?record, fun pos h j hh hj => ?job⟩⟩
  case okParked => rw [servePassedAll, servePassed_of_parked hh, if_neg Bool.false_ne_true]
  case staleParked => rw [servePassedAll, servePassed_of_parked hh, if_pos rfl]
  case failedParked => rw [serveFailedAll, serveFailed_of_parked hh]
  case okJob => rw [servePassedAll, servePassed_of_job hh hj]
  case failedJob => rw [serveFailedAll, serveFailed_of_job hh hj hent]
  case entry =>
    have hjob' : f.waiters.any (waiterIsJob s) = job := Bool.eq_iff_iff.mpr ((any_waiterIsJob_iff ..).trans hjob.symm)
    have hpin' : f.waiters.any (fun q => (pendingPin (s.queue q).head).isSome) = pin :=
      Bool.eq_iff_iff.mpr ((any_pendingPin_iff ..).trans hpin.symm)
    have hfailed : ∀ st, fillFailed st f order s = serveFailedAll st (inOrder order f.waiters) (u.setEntry f.entry Entry.free) :=
      fun st => by rw [hu]; rfl
    subst hx
    have hfresh : (s.entry f.entry).stale = false → _ := fun hstale => fillPassed_of_fresh hstale hjob' hpin' order reads
    have hold : (s.entry f.entry).stale = true → _ := fun hstale => fillPassed_of_stale hstale hjob' order reads
    have hno : noFill s = u := hu.symm
    rw [hno] at hfresh hold
    refine ⟨hfailed, hfresh, fun hstale hj => ?_, fun hstale hj => ?_, fun hnone => ?_⟩
    · rw [hold hstale, hj, if_pos rfl]
    · rw [hold hstale, hj, if_neg Bool.false_ne_true]
    · have hj : job = false := by rw [← hjob', hnone]; rfl
      have hp : pin = false := by rw [← hpin', hnone]; rfl
      rw [hnone, inOrder_nil, hj] at hold
      rw [hnone, inOrder_nil, hj, hp] at hfresh
      exact ⟨fun st => by rw [hfailed, hnone, inOrder_nil]; rfl, hfresh, hold⟩
  case record =>
    have hno : noFill s = u := hu.symm
    have hjob : f.waiters.any (waiterIsJob s) = false := by rw [hone, List.any_cons, waiterIsJob, hh]; rfl
    subst hx
    have huh : (u.queue q).head = .control pos h (.chainControl action addr) .parked := by rw [hu]; exact hh
    have hsame : ∀ x : Entry, completion (u.setEntry f.entry x) q h = completion s q h := fun x => by rw [hu]; rfl
    refine ⟨fun st => ?_, fun hstale hact reads => ?_, fun hstale reads => ?_⟩
    · rw [fillFailed, hone, inOrder_singleton, hno, serveFailedAll, serveFailed_of_parked (by exact huh), hsame]
      rfl
    · have hpin : f.waiters.any (fun q => (pendingPin (s.queue q).head).isSome) = decide (action = .loadPin) := by
        rw [hone, List.any_cons, hh]
        obtain rfl | rfl := hact <;> rfl
      rw [fillPassed_of_fresh hstale hjob hpin, hone, inOrder_singleton, hno, servePassedAll,
        servePassed_of_parked (by exact huh), if_neg Bool.false_ne_true]
      rw [hu]
      rfl
    · rw [fillPassed_of_stale hstale hjob, hone, inOrder_singleton, hno, servePassedAll,
        servePassed_of_parked (by exact huh), if_pos rfl, hsame]
      rfl
  case job =>
    have hno : noFill s = u := hu.symm
    have hjob : f.waiters.any (waiterIsJob s) = true := by rw [hone, List.any_cons, waiterIsJob, hh, headIn, hj]; rfl
    have hpin : f.waiters.any (fun q => (pendingPin (s.queue q).head).isSome) = false := by rw [hone, List.any_cons, hh]; rfl
    subst hx
    have huh : (u.queue q).head = .data pos h j := by rw [hu]; exact hh
    refine ⟨fun st hent => ?_, fun reads hstale => ?_, fun reads hstale => ?_⟩
    · have hsame : ∀ x : Entry, completion (u.setEntry f.entry x) q h = completion s q h := fun x => by rw [hu]; rfl
      rw [fillFailed, hone, inOrder_singleton, hno, serveFailedAll, serveFailed_of_job (by exact huh) hj hent, hsame]
      rfl
    · rw [fillPassed_of_fresh hstale hjob hpin, hone, inOrder_singleton, hno, servePassedAll,
        servePassed_of_job (by exact huh) hj]
      rfl
    · rw [fillPassed_of_stale hstale hjob, hone, inOrder_singleton, hno, servePassedAll, if_pos rfl,
        servePassed_of_job (by exact huh) hj]
      rfl

end Sys2Proof.Machine
end

section
/-! SUPPORT. Datapath arithmetic: sums in 40 bits, the rounding shift, the overflow policy, the monitor and the cascade (R96 to
R105). -/

namespace Sys2Proof.Machine

open Sys2Proof

/-! ### Sums (R96, R100, R104) -/

theorem abs_toInt_le (x : Sample) : |x.toInt| ≤ 2 ^ 15 :=
  abs_le.mpr ⟨BitVec.le_toInt x, (BitVec.toInt_lt (x := x)).le⟩

theorem abs_product_le (c x : Sample) : |product c x| ≤ 2 ^ 30 := by
  rw [product, abs_mul]
  calc |c.toInt| * |x.toInt| ≤ 2 ^ 15 * 2 ^ 15 :=
        mul_le_mul (abs_toInt_le c) (abs_toInt_le x) (abs_nonneg _) (by norm_num)
    _ = 2 ^ 30 := by norm_num

theorem abs_dot_le (cs xs : List Sample) : |dot cs xs| ≤ cs.length * 2 ^ 30 := by
  induction cs generalizing xs with
  | nil => simp [dot]
  | cons c cs ih =>
    cases xs with
    | nil => simp [dot]
    | cons x xs =>
      calc |dot (c :: cs) (x :: xs)| ≤ |product c x| + |dot cs xs| := abs_add_le _ _
        _ ≤ 2 ^ 30 + cs.length * 2 ^ 30 := add_le_add (abs_product_le c x) (ih xs)
        _ = ((c :: cs).length : Int) * 2 ^ 30 := by push_cast [List.length_cons]; ring

theorem dot_eq_zip_sum (cs xs : List Sample) : dot cs xs = ((cs.zip xs).map (fun p => p.1.toInt * p.2.toInt)).sum := by
  induction cs generalizing xs with
  | nil => simp [dot]
  | cons c cs ih => cases xs <;> simp [dot, ih, product]

/-- A list of samples past whose end stand zeroes. -/
theorem dot_eq_range_sum (cs xs : List Sample) :
    dot cs xs = ((List.range cs.length).map (fun k => (cs.getD k 0).toInt * (xs.getD k 0).toInt)).sum := by
  induction cs generalizing xs with
  | nil => rfl
  | cons c cs ih =>
    rw [List.length_cons, List.range_succ_eq_map, List.map_cons, List.map_map, List.sum_cons]
    cases xs with
    | nil => simp [dot, List.getD, Function.comp_def]
    | cons x xs =>
      rw [dot, ih]
      rfl

/-- A sum of at most 128 products, with any rounding constant of a stage, fits in 40 bits (R96). -/
theorem acc_in_range {acc : Int} {n k : Nat} (hacc : |acc| ≤ n * 2 ^ 30) (hn : n ≤ 128) (hk : k ≤ 15) :
    -2 ^ 39 ≤ acc ∧ acc + 2 ^ (k - 1) < 2 ^ 39 := by
  have hround : (2 : Int) ^ (k - 1) ≤ 2 ^ 14 := pow_le_pow_right₀ (by norm_num) (by omega)
  obtain ⟨hlow, hhigh⟩ := abs_le.mp hacc
  have hn' : (n : Int) * 2 ^ 30 ≤ 128 * 2 ^ 30 := mul_le_mul_of_nonneg_right (by exact_mod_cast hn) (by norm_num)
  norm_num at hlow hhigh hn' hround ⊢
  constructor <;> linarith

theorem abs_biquadAcc_le (b0 b1 b2 a1 a2 x : Sample) (delay : List Sample) (b : BqState) :
    |stageAcc (.biquad b0 b1 b2 a1 a2) x delay b| ≤ (5 : Nat) * 2 ^ 30 := by
  have h0 := abs_le.mp (abs_product_le b0 x)
  have h1 := abs_le.mp (abs_product_le b1 b.x1)
  have h2 := abs_le.mp (abs_product_le b2 b.x2)
  have h3 := abs_le.mp (abs_product_le a1 b.y1)
  have h4 := abs_le.mp (abs_product_le a2 b.y2)
  rw [stageAcc, abs_le]
  push_cast
  constructor <;> linarith

/-- The accumulator of a stage of the sizes a descriptor allows stays in 40 bits (R96). -/
theorem stageAcc_in_range (st : StageRec) (x : Sample) (delay : List Sample) (b : BqState)
    (hfir : ∀ coefs, st = .fir coefs → coefs.length ≤ 128) :
    -2 ^ 39 ≤ stageAcc st x delay b ∧ stageAcc st x delay b + 2 ^ (stageShift st - 1) < 2 ^ 39 := by
  cases st with
  | fir coefs => exact acc_in_range (abs_dot_le coefs (x :: delay)) (hfir coefs rfl) le_rfl
  | biquad b0 b1 b2 a1 a2 =>
    exact acc_in_range (abs_biquadAcc_le b0 b1 b2 a1 a2 x delay b) (by norm_num) (by rw [stageShift]; norm_num)
  | gain g shift =>
    refine acc_in_range (n := 1) ?_ (by norm_num) (by rw [stageShift]; omega)
    rw [stageAcc, Nat.cast_one, one_mul]
    exact abs_product_le g x

/-! ### Rounding and the overflow policy (R98, R99) -/

theorem floor_bounds (k : Nat) (acc : Int) : acc / 2 ^ k * 2 ^ k ≤ acc ∧ acc < (acc / 2 ^ k + 1) * 2 ^ k :=
  ⟨Int.ediv_mul_le acc (by positivity), Int.lt_ediv_add_one_mul_self acc (by positivity)⟩

theorem toInt_ofInt_of_range {v : Int} (hlow : -32768 ≤ v) (hhigh : v ≤ 32767) : (BitVec.ofInt 16 v).toInt = v := by
  rw [BitVec.toInt_ofInt, Int.bmod_def]
  split <;> omega

theorem toInt_ofInt_sub_emod (v : Int) : ((BitVec.ofInt 16 v).toInt - v) % 65536 = 0 := by
  rw [BitVec.toInt_ofInt, Int.bmod_def]
  split <;> omega

theorem applyPolicy_of_range {v : Int} (hlow : -32768 ≤ v) (hhigh : v ≤ 32767) (policy : OvfPolicy) :
    applyPolicy policy v = .out (BitVec.ofInt 16 v) false := if_pos ⟨hlow, hhigh⟩

theorem applyPolicy_of_overflow {v : Int} (h : v < -32768 ∨ 32767 < v) :
    applyPolicy .saturate v = .out (if 32767 < v then 0x7FFF#16 else 0x8000#16) true ∧
    applyPolicy .wrap v = .out (BitVec.ofInt 16 v) true ∧ applyPolicy .trap v = .trapped := by
  have hnot : ¬ (-32768 ≤ v ∧ v ≤ 32767) := by omega
  exact ⟨if_neg hnot, if_neg hnot, if_neg hnot⟩

theorem ite_satSucc (clipped : Bool) (clips : Nat) : (if clipped then satSucc clips else clips) =
    if clipped = true ∧ clips < 65535 then clips + 1 else clips := by
  cases clipped with
  | false => simp
  | true =>
    simp only [true_and, if_true]
    rfl

theorem runMix_of_out {policy : OvfPolicy} {mode : Rounding} {gains xs : List Sample} {y : Sample} {clipped : Bool}
    (h : applyPolicy policy (roundShift mode 15 (dot gains xs)) = .out y clipped) (bq : Vector BqState 6) (clips : Nat) :
    runMix policy mode gains xs bq clips = .out y bq (if clipped = true ∧ clips < 65535 then clips + 1 else clips) := by
  simp only [runMix, stageResult, h, ite_satSucc]

theorem runMix_of_trapped {policy : OvfPolicy} {mode : Rounding} {gains xs : List Sample}
    (h : applyPolicy policy (roundShift mode 15 (dot gains xs)) = .trapped) (bq : Vector BqState 6) (clips : Nat) :
    runMix policy mode gains xs bq clips = .trapped 0 := by
  simp only [runMix, stageResult, h]

/-! ### The monitor (R105) -/

section

variable {monitor : Bool} {thresh : Nat} {dp r : Datapath} {ys : List Sample} {y : Sample}

theorem finishSamples_append (xs ys : List Sample) (dp : Datapath) : finishSamples monitor thresh (xs ++ ys) dp =
    finishSamples monitor thresh ys (finishSamples monitor thresh xs dp) := by
  induction xs generalizing dp with
  | nil => rfl
  | cons x xs ih => exact ih _

theorem finishSample_of_smaller (hle : magnitude y ≤ dp.peak) (hne : dp.finished ≠ 0) :
    finishSample true thresh dp y = { dp with
      finished := dp.finished + 1, overCnt := dp.overCnt + if thresh ≤ magnitude y then 1 else 0 } := by
  have hsmall : (decide (dp.peak < magnitude y) || decide (dp.finished = 0)) = false := by
    simp [Nat.not_lt.mpr hle, hne]
  simp only [finishSample, if_true, hsmall, Bool.false_eq_true, if_false]
  split <;> rfl

theorem finishSample_of_larger (h : dp.peak < magnitude y ∨ dp.finished = 0) :
    finishSample true thresh dp y = { dp with
      finished := dp.finished + 1, peak := magnitude y, peakIdx := dp.finished
      overCnt := dp.overCnt + if thresh ≤ magnitude y then 1 else 0 } := by
  have hlarge : (decide (dp.peak < magnitude y) || decide (dp.finished = 0)) = true := by
    simpa using h
  simp only [finishSample, if_true, hlarge]
  split <;> rfl

theorem finishSamples_of_no_monitor (thresh : Nat) (ys : List Sample) (dp : Datapath) :
    finishSamples false thresh ys dp = { dp with finished := dp.finished + ys.length } := by
  induction ys generalizing dp with
  | nil => rfl
  | cons y ys ih =>
    rw [finishSamples, ih, finishSample, if_neg Bool.false_ne_true, List.length_cons, Nat.add_right_comm, Nat.add_assoc]

/-- The measures after samples were finished from a fresh record: the largest magnitude, its first index, and the count of
those at the threshold. -/
structure Measured (thresh start : Nat) (ys : List Sample) (r : Datapath) : Prop where
  finished : r.finished = ys.length
  peakAt : ys ≠ [] → ys[r.peakIdx]?.map magnitude = some r.peak
  largest : ys ≠ [] → ∀ y ∈ ys, magnitude y ≤ r.peak
  first : ys ≠ [] → ∀ i y, ys[i]? = some y → i < r.peakIdx → magnitude y < r.peak
  overs : r.overCnt = start + (ys.filter (fun y => decide (thresh ≤ y.toInt.natAbs))).length

theorem overs_concat (ys : List Sample) (y : Sample) :
    ((ys ++ [y]).filter (fun y => decide (thresh ≤ y.toInt.natAbs))).length =
      (ys.filter (fun y => decide (thresh ≤ y.toInt.natAbs))).length + if thresh ≤ magnitude y then 1 else 0 := by
  rw [List.filter_append, List.length_append]
  have hmag : magnitude y = y.toInt.natAbs := rfl
  rw [hmag]
  by_cases h : thresh ≤ y.toInt.natAbs <;> simp [h]

/-- A new largest magnitude is measured at its own index. -/
theorem Measured.concat_larger {start : Nat} (hm : Measured thresh start ys r) (h : r.peak < magnitude y ∨ r.finished = 0) :
    Measured thresh start (ys ++ [y]) (finishSample true thresh r y) := by
  have hbefore : ∀ z ∈ ys, magnitude z < magnitude y := by
    intro z hz
    obtain hlt | hzero := h
    · exact lt_of_le_of_lt (hm.largest (List.ne_nil_of_mem hz) z hz) hlt
    · rw [hm.finished, List.length_eq_zero_iff] at hzero
      rw [hzero] at hz
      cases hz
  rw [finishSample_of_larger h]
  refine ⟨by simp [hm.finished], fun _ => by simp [hm.finished], fun _ z hz => ?_, fun _ i z hz hi => ?_, ?_⟩
  · obtain hz | hz := List.mem_append.mp hz
    · exact (hbefore z hz).le
    · rw [List.mem_singleton.mp hz]
  · dsimp only at hi
    rw [hm.finished] at hi
    rw [List.getElem?_append_left hi] at hz
    exact hbefore z (List.mem_of_getElem? hz)
  · dsimp only
    rw [hm.overs, overs_concat, Nat.add_assoc]

/-- A magnitude no larger than the peak leaves it where it is. -/
theorem Measured.concat_smaller {start : Nat} (hm : Measured thresh start ys r) (hle : magnitude y ≤ r.peak)
    (hne : r.finished ≠ 0) : Measured thresh start (ys ++ [y]) (finishSample true thresh r y) := by
  have hys : ys ≠ [] := fun h => hne (by rw [hm.finished, h]; rfl)
  have hidx : r.peakIdx < ys.length := by
    have hat := hm.peakAt hys
    by_contra hout
    rw [List.getElem?_eq_none (Nat.not_lt.mp hout)] at hat
    cases hat
  rw [finishSample_of_smaller hle hne]
  refine ⟨by simp [hm.finished], fun _ => ?_, fun _ z hz => ?_, fun _ i z hz hi => ?_, ?_⟩
  · dsimp only
    rw [List.getElem?_append_left hidx]
    exact hm.peakAt hys
  · obtain hz | hz := List.mem_append.mp hz
    · exact hm.largest hys z hz
    · rw [List.mem_singleton.mp hz]
      exact hle
  · rw [List.getElem?_append_left (lt_trans hi hidx)] at hz
    exact hm.first hys i z hz hi
  · dsimp only
    rw [hm.overs, overs_concat, Nat.add_assoc]

theorem measured_finishSamples (thresh : Nat) (ys : List Sample) (hfresh : dp.finished = 0) :
    Measured thresh dp.overCnt ys (finishSamples true thresh ys dp) := by
  induction ys using List.reverseRecOn with
  | nil => exact ⟨hfresh, fun h => absurd rfl h, fun h => absurd rfl h, fun h => absurd rfl h, rfl⟩
  | append_singleton ys y ih =>
    rw [finishSamples_append, finishSamples, finishSamples]
    by_cases h : (finishSamples true thresh ys dp).peak < magnitude y ∨ (finishSamples true thresh ys dp).finished = 0
    · exact ih.concat_larger h
    · obtain ⟨hle, hne⟩ := not_or.mp h
      exact ih.concat_smaller (Nat.not_lt.mp hle) hne

end

/-- Settles O53: the sums and their range, the shift, the policies, and the monitor's measures. -/
theorem arithmeticRule : Obligations.ArithmeticRule := by
  refine ⟨fun coefs x delay b => dot_eq_range_sum coefs (x :: delay), fun b0 b1 b2 a1 a2 x y delay b => ⟨rfl, rfl⟩,
    fun g x y shift coefs delay b => ⟨rfl, rfl, rfl⟩, fun st x delay b hfir _ => ⟨?shiftFir, ?shiftBiquad, ?shiftGain,
      stageAcc_in_range st x delay b hfir⟩,
    fun policy mode k acc => rfl, fun policy mode gains xs bq clips acc hacc => ?mix, fun k acc _ => ?rounding,
    fun v => ⟨fun hlow hhigh policy => ?inside, fun hhigh => ?above, fun hlow => ?below, fun hout => ?outside⟩,
    fun y => rfl, fun monitor thresh xs ys y dp => ⟨rfl, finishSamples_append xs ys dp, rfl, finishSample_of_smaller,
      finishSample_of_larger⟩, fun thresh ys dp r hr hfresh hne => ?measures, finishSamples_of_no_monitor⟩
  case shiftFir => exact fun coefs h => h ▸ rfl
  case shiftBiquad => exact fun b0 b1 b2 a1 a2 h => h ▸ rfl
  case shiftGain => exact fun g shift h => h ▸ rfl
  case mix =>
    rw [← dot_eq_zip_sum] at hacc
    subst hacc
    exact ⟨fun hlen => acc_in_range (k := 15) (abs_dot_le gains xs) (le_trans hlen (by norm_num)) le_rfl,
      fun y clipped h => runMix_of_out h bq clips, fun h => runMix_of_trapped h bq clips⟩
  case rounding =>
    obtain ⟨hlow, hhigh⟩ := floor_bounds k acc
    obtain ⟨hlow', hhigh'⟩ := floor_bounds k (acc + 2 ^ (k - 1))
    exact ⟨hlow, hhigh, hlow', hhigh'⟩
  case inside => exact ⟨_, applyPolicy_of_range hlow hhigh policy, toInt_ofInt_of_range hlow hhigh⟩
  case above => exact ⟨_, (applyPolicy_of_overflow (.inr hhigh)).1, by rw [if_pos hhigh]; rfl⟩
  case below => exact ⟨_, (applyPolicy_of_overflow (.inl hlow)).1, by rw [if_neg (by omega)]; rfl⟩
  case outside =>
    obtain ⟨-, hwrap, htrap⟩ := applyPolicy_of_overflow hout
    exact ⟨htrap, _, hwrap, toInt_ofInt_sub_emod v⟩
  case measures =>
    have hm := measured_finishSamples thresh ys hfresh
    rw [← hr] at hm
    exact ⟨hm.finished, hm.peakAt hne, hm.largest hne, hm.first hne, hm.overs⟩

/-! ### The cascade (R97, R99) -/

section

variable {policy : OvfPolicy} {mode : Rounding} {delay : List Sample}

theorem bqAt_bqSet_self (bq : Vector BqState 6) {i : Nat} (hi : i < 6) (b : BqState) : bqAt (bqSet bq i b) i = b := by
  rw [bqAt, dif_pos hi, bqSet, dif_pos hi, Vector.getElem_set_self]

theorem bqAt_bqSet_ne (bq : Vector BqState 6) {i k : Nat} (hi : i < 6) (hk : k ≠ i) (b : BqState) :
    bqAt (bqSet bq i b) k = bqAt bq k := by
  rw [bqSet, dif_pos hi]
  by_cases hk6 : k < 6
  · rw [bqAt, dif_pos hk6, bqAt, dif_pos hk6, Vector.getElem_set_ne _ _ hk.symm]
  · rw [bqAt, dif_neg hk6, bqAt, dif_neg hk6]

/-- A part of the cascade that gives an output hands it to the rest. -/
theorem runStages_append {before rest : List StageRec} {i clips : Nat} {x y : Sample} {bq bq' : Vector BqState 6} {clips' : Nat}
    (h : runStages policy mode delay before i x bq clips = .out y bq' clips') :
    runStages policy mode delay (before ++ rest) i x bq clips =
      runStages policy mode delay rest (i + before.length) y bq' clips' := by
  induction before generalizing i x bq clips with
  | nil =>
    cases h
    rfl
  | cons st before ih =>
    rw [List.cons_append, runStages]
    cases hout : stageResult policy mode (stageShift st) (stageAcc st x delay (bqAt bq i)) with
    | trapped =>
      rw [runStages, hout] at h
      cases h
    | out z clipped =>
      rw [runStages, hout] at h
      dsimp only at h ⊢
      rw [ih h, List.length_cons]
      congr 1
      omega

end

/-- Settles O54: one stage's output or trap, its state alone replaced, and a cascade cut in two. -/
theorem cascadeRule : Obligations.CascadeRule := by
  intro policy mode delay st before rest i clips x bq
  refine ⟨rfl, fun y clipped b hout hi hb => ⟨?_, bqAt_bqSet_self bq hi b, fun k hk => bqAt_bqSet_ne bq hi hk b⟩,
    fun k => dif_pos k.isLt, fun htrap => ?_, fun y bq' clips' h => runStages_append h⟩
  · rw [runStages, hout]
    dsimp only
    rw [← hb, ← ite_satSucc]
  · rw [runStages, htrap]

end Sys2Proof.Machine
end

section
/-! SUPPORT. The datapath's reads, its words, GATHER, and one COMPUTE_SAMPLE step (R97, R101, R107 to R111). -/

namespace Sys2Proof.Machine

open Sys2Proof

/-! ### What the working record keeps -/

/-- Finishing samples moves the monitor's measures and FINISHED alone. -/
theorem finishSamples_eq (monitor : Bool) (thresh : Nat) (ys : List Sample) (dp : Datapath) :
    finishSamples monitor thresh ys dp = { dp with
      finished := (finishSamples monitor thresh ys dp).finished
      peak := (finishSamples monitor thresh ys dp).peak
      peakIdx := (finishSamples monitor thresh ys dp).peakIdx
      overCnt := (finishSamples monitor thresh ys dp).overCnt } := by
  induction ys generalizing dp with
  | nil => rfl
  | cons y ys ih =>
    rw [finishSamples, ih]
    cases monitor <;> rfl

theorem finishSample_eq (monitor : Bool) (thresh : Nat) (dp : Datapath) (y : Sample) :
    finishSample monitor thresh dp y = { dp with
      finished := (finishSample monitor thresh dp y).finished
      peak := (finishSample monitor thresh dp y).peak
      peakIdx := (finishSample monitor thresh dp y).peakIdx
      overCnt := (finishSample monitor thresh dp y).overCnt } :=
  finishSamples_eq monitor thresh [y] dp

theorem settle_of_not_settle {s : State} (h : s.dp.st ≠ .settle) : settle s = s := if_neg fun hs => h hs.1

theorem settle_of_compute {s : State} (h : s.dp.st = .compute) : settle s = s :=
  settle_of_not_settle (by rw [h]; exact nofun)

/-! ### Reads ahead of need (R108) -/

section

variable {s : State} {pos : Nat} {h : Header} {j : JobRec}

theorem issueRead_eq (regions : List (Option (Nat × Nat))) (dp : Datapath) (c : ReadChoice) : issueRead regions dp c =
    { dp with reads := (issueRead regions dp c).reads, inputs := (issueRead regions dp c).inputs } := by
  unfold issueRead
  split
  · dsimp only
    split <;> rfl
  · rfl

theorem foldl_issueRead_eq (regions : List (Option (Nat × Nat))) (l : List ReadChoice) (dp : Datapath) :
    l.foldl (issueRead regions) dp = { dp with
      reads := (l.foldl (issueRead regions) dp).reads, inputs := (l.foldl (issueRead regions) dp).inputs } := by
  induction l generalizing dp with
  | nil => rfl
  | cons c l ih =>
    rw [List.foldl_cons, ih, issueRead_eq]

/-- Reads change RDOUT and the progress of the inputs alone. -/
theorem issueReads_eq (reads : List ReadChoice) (s : State) : issueReads reads s = { s with dp := { s.dp with
    reads := (issueReads reads s).dp.reads, inputs := (issueReads reads s).dp.inputs } } := by
  unfold issueReads
  split
  · split
    · rw [foldl_issueRead_eq]
    · rfl
  · rfl

theorem issueReads_of_job (hh : (s.queue s.dp.jobq).head = .data pos h j) (reads : List ReadChoice) : issueReads reads s =
    if s.dp.st = .compute then { s with dp := reads.foldl (issueRead (jobRegions s j)) s.dp } else s := by
  simp only [issueReads, runningJob, headJob_of_data hh]

theorem issueReads_of_not_compute (hst : s.dp.st ≠ .compute) (reads : List ReadChoice) : issueReads reads s = s := by
  unfold issueReads
  split
  · exact if_neg hst
  · rfl

theorem runningJob_issueReads (reads : List ReadChoice) (s : State) : runningJob (issueReads reads s) = runningJob s := by
  rw [issueReads_eq]
  rfl

theorem issueReads_nil (s : State) : issueReads [] s = s := by
  unfold issueReads
  split
  · split <;> rfl
  · rfl

theorem issueReads_cons (c : ReadChoice) (rest : List ReadChoice) (s : State) :
    issueReads (c :: rest) s = issueReads rest (issueReads [c] s) := by
  cases hj : runningJob s with
  | none =>
    have hstay : ∀ l, issueReads l s = s := fun l => by simp only [issueReads, hj]
    rw [hstay, hstay, hstay]
  | some j =>
    by_cases hst : s.dp.st = .compute
    · have hone : issueReads [c] s = { s with dp := issueRead (jobRegions s j) s.dp c } := by
        simp only [issueReads, hj, if_pos hst, List.foldl_cons, List.foldl_nil]
      have hst' : (issueReads [c] s).dp.st = .compute := by rw [issueReads_eq]; exact hst
      have hj' : runningJob (issueReads [c] s) = some j := (runningJob_issueReads [c] s).trans hj
      rw [issueReads, hj, issueReads, hj']
      dsimp only
      rw [if_pos hst, if_pos hst', hone]
      rfl
    · rw [issueReads_of_not_compute hst, issueReads_of_not_compute hst, issueReads_of_not_compute hst]

theorem jobRegions_getElem? (s : State) (j : JobRec) (i : Nat) : (jobRegions s j)[i]? =
    j.data.inputs[i]?.map (fun e => inputRegion e j.data.n (chainTaps (jobStages s j))) := by
  rw [jobRegions, List.getElem?_map]

/-- The last word of a region lies at the end of its block, whatever part of the delay line precedes it. -/
theorem region_end (a : Word) (n taps : Nat) :
    a.toNat - 2 * min (taps - 1) (a.toNat / 2) + 2 * (min (taps - 1) (a.toNat / 2) + n) = a.toNat + 2 * n := by
  have : min (taps - 1) (a.toNat / 2) ≤ a.toNat / 2 := Nat.min_le_right ..
  omega

theorem issueRead_of_no_region {regions : List (Option (Nat × Nat))} {dp : Datapath} {c : ReadChoice}
    (h : regions[c.input]? = none ∨ regions[c.input]? = some none) : issueRead regions dp c = dp := by
  obtain h | h := h <;> simp only [issueRead, h]

theorem issueRead_of_memory {regions : List (Option (Nat × Nat))} {dp : Datapath} {c : ReadChoice} {a : Word} {n taps : Nat}
    {inp : DpInput} (hr : regions[c.input]? = some (inputRegion (.memory a) n taps)) (hi : dp.inputs[c.input]? = some inp)
    {w : Nat} (hw : w = min c.words (min ((a.toNat + 2 * n - inp.rdnext) / 2) ((32 - inp.rdnext % 32) / 2))) :
    issueRead regions dp c = if w = 0 then dp else { dp with
      reads := dp.reads ++ [{ input := c.input, addr := inp.rdnext, words := w }]
      inputs := dp.inputs.set c.input { inp with rdnext := inp.rdnext + 2 * w } } := by
  have hlen : readLength (a.toNat - 2 * min (taps - 1) (a.toNat / 2), min (taps - 1) (a.toNat / 2) + n) inp.rdnext c.words =
      w := by
    rw [readLength, region_end, hw]
  simp only [issueRead, hr, inputRegion, hi, hlen]

end

/-! ### The words of the inputs (R101, R107) -/

/-- A map over two lists of one length gives each element from the two at its place. -/
theorem zip_mapM_eq_some_iff {α β γ : Type} {f : α × β → Option γ} {as : List α} {bs : List β} {xs : List γ}
    (hlen : bs.length = as.length) : (as.zip bs).mapM f = some xs ↔
      xs.length = as.length ∧ ∀ (k : Nat) a b, as[k]? = some a → bs[k]? = some b → xs[k]? = f (a, b) := by
  rw [mapM_eq_some_iff]
  constructor
  · intro hmap
    refine ⟨by simpa [hlen] using (congrArg List.length hmap).symm, fun k a b ha hb => ?_⟩
    have hat := congrArg (fun l => l[k]?) hmap
    have hz : (as.zip bs)[k]? = some (a, b) := List.getElem?_zip_eq_some.mpr ⟨ha, hb⟩
    simp only [List.getElem?_map, hz, Option.map_some] at hat
    cases hx : xs[k]? with
    | none => rw [hx] at hat; cases hat
    | some x =>
      rw [hx, Option.map_some] at hat
      exact (Option.some.inj hat).symm
  · rintro ⟨hxs, hat⟩
    refine List.ext_getElem? fun k => ?_
    by_cases hk : k < as.length
    · have hz : (as.zip bs)[k]? = some (as[k], bs[k]'(hlen ▸ hk)) :=
        List.getElem?_zip_eq_some.mpr ⟨List.getElem?_eq_getElem hk, List.getElem?_eq_getElem (hlen ▸ hk)⟩
      have hx := hat k _ _ (List.getElem?_eq_getElem hk) (List.getElem?_eq_getElem (hlen ▸ hk))
      rw [List.getElem?_map, hz, List.getElem?_map, Option.map_some, ← hx, List.getElem?_eq_getElem (hxs ▸ hk), Option.map_some]
    · rw [List.getElem?_eq_none (by simp; omega), List.getElem?_eq_none (by simp; omega)]

theorem inputSamples_eq_some_iff {s : State} {d : DataRec} {i : Nat} {xs : List Sample}
    (hlen : s.dp.inputs.length = d.inputs.length) : inputSamples s d i = some xs ↔
      xs.length = d.inputs.length ∧ ∀ (k : Nat) (inp : DpInput), s.dp.inputs[k]? = some inp →
        (∀ n, d.inputs[k]? = some (Endpoint.stream n) →
          xs[k]? = some (storeRead s.store (((s.stream n).base + ((s.stream n).rdpos + i) % (s.stream n).length) % 2 ^ 15))) ∧
        (∀ a, d.inputs[k]? = some (Endpoint.memory a) → xs[k]? = inp.words.lookup (a.toNat + 2 * i)) := by
  rw [inputSamples, zip_mapM_eq_some_iff hlen]
  refine and_congr_right fun _ => ⟨fun h k inp hinp => ⟨fun n hn => h k _ inp hn hinp, fun a ha => h k _ inp ha hinp⟩,
    fun h k e inp he hinp => ?_⟩
  obtain ⟨hstream, hmemory⟩ := h k inp hinp
  cases e with
  | stream n => exact hstream n he
  | memory a => exact hmemory a he

theorem wordsReady_iff (s : State) (j : JobRec) : wordsReady s j = true ↔
    inputSamples s j.data s.dp.next ≠ none ∧ (s.dp.next ≠ 0 ∨ ∀ x ∈ jobDelay s j, x ≠ none) := by
  simp only [wordsReady, Bool.and_eq_true, Bool.or_eq_true, Option.isSome_iff_ne_none, decide_eq_true_iff, List.all_eq_true]

theorem jobDelay_of_chain {s : State} {j : JobRec} {e : Endpoint} {es : List Endpoint} {inp : DpInput} {inps : List DpInput}
    {x : Fin 8} (hes : j.data.inputs = e :: es) (hinps : s.dp.inputs = inp :: inps) (hx : j.chainEnt = some x) :
    jobDelay s j = delayLine s e inp (chainTaps (s.entry x).stages) := by
  simp only [jobDelay, hes, hinps, jobStages, hx]

/-! ### GATHER (R109) -/

section

variable {s : State} {d : DataRec} {dp : Datapath} {j : JobRec}

theorem gatherDue_of_stream {n : Fin 48} (ho : d.output = .stream n) : gatherDue d dp = false := by
  simp only [gatherDue, ho]

theorem gatherDue_of_memory {b : Word} (ho : d.output = .memory b) : gatherDue d dp = true ↔
    dp.gather ≠ [] ∧ (dp.gather.length = 16 ∨ (b.toNat + 2 * dp.next) % 32 = 0 ∨ dp.next = d.n) := by
  have hmax : Config.gatherMax = 16 := rfl
  simp only [gatherDue, ho, hmax, Bool.and_eq_true, Bool.or_eq_true, Bool.not_eq_true', List.isEmpty_eq_false_iff,
    decide_eq_true_iff, or_assoc]

theorem gatherDue_of_empty (hg : dp.gather = []) : gatherDue d dp = false := by
  cases ho : d.output with
  | stream n => exact gatherDue_of_stream ho
  | memory b =>
    refine Bool.eq_false_iff.mpr fun h => ?_
    exact ((gatherDue_of_memory ho).mp h).1 hg

theorem gatherDue_iff (d : DataRec) (dp : Datapath) : gatherDue d dp = true ↔ dp.gather ≠ [] ∧ ∃ b, d.output = .memory b ∧
    (dp.gather.length = 16 ∨ (b.toNat + 2 * dp.next) % 32 = 0 ∨ dp.next = d.n) := by
  cases ho : d.output with
  | stream n => simp [gatherDue_of_stream ho]
  | memory b =>
    rw [gatherDue_of_memory ho]
    simp

theorem issueGather_of_empty (hg : dp.gather = []) : issueGather d dp = dp := by
  unfold issueGather
  split
  · next h => cases hg.symm.trans h
  · rfl

theorem issueGather_of_stream {n : Fin 48} (ho : d.output = .stream n) : issueGather d dp = dp := by
  simp only [issueGather, ho]

theorem issueGather_of_memory {b : Word} (ho : d.output = .memory b) (hg : dp.gather ≠ []) : issueGather d dp =
    finishSamples d.monitor d.thresh dp.gather { dp with
      gather := []
      clipsDone := dp.clips
      writes := dp.writes ++ [{ addr := b.toNat + 2 * dp.finished, data := dp.gather }] } := by
  obtain ⟨y, ys, hy⟩ := List.exists_cons_of_ne_nil hg
  simp only [issueGather, ho, hy]

/-- Issuing GATHER keeps the job, its state and its progress, and leaves nothing gathered for memory. -/
theorem issueGather_keeps (d : DataRec) (dp : Datapath) : (issueGather d dp).st = dp.st ∧ (issueGather d dp).jobq = dp.jobq ∧
    (issueGather d dp).next = dp.next := by
  cases ho : d.output with
  | stream n => rw [issueGather_of_stream ho]; exact ⟨rfl, rfl, rfl⟩
  | memory b =>
    by_cases hg : dp.gather = []
    · rw [issueGather_of_empty hg]; exact ⟨rfl, rfl, rfl⟩
    · rw [issueGather_of_memory ho hg, finishSamples_eq]; exact ⟨rfl, rfl, rfl⟩

theorem issueGather_gather {b : Word} (ho : d.output = .memory b) (dp : Datapath) : (issueGather d dp).gather = [] := by
  by_cases hg : dp.gather = []
  · rw [issueGather_of_empty hg, hg]
  · rw [issueGather_of_memory ho hg, finishSamples_eq]

theorem wordUnread_iff (s : State) (j : JobRec) (addr : Nat) : wordUnread (jobRegions s j) s.dp.inputs addr = true ↔
    ∃ (i : Nat) (a : Word) (inp : DpInput), j.data.inputs[i]? = some (Endpoint.memory a) ∧ s.dp.inputs[i]? = some inp ∧
      inp.words.lookup addr = none ∧ a.toNat - 2 * min (chainTaps (jobStages s j) - 1) (a.toNat / 2) ≤ addr ∧
      addr < a.toNat + 2 * j.data.n := by
  rw [wordUnread, List.any_eq_true]
  constructor
  · rintro ⟨⟨region, inp⟩, hmem, hunread⟩
    obtain ⟨i, hi⟩ := List.mem_iff_getElem?.mp hmem
    obtain ⟨hregion, hinp⟩ := List.getElem?_zip_eq_some.mp hi
    rw [jobRegions_getElem?] at hregion
    obtain ⟨e, he, hregion⟩ := Option.map_eq_some_iff.mp hregion
    dsimp only at hregion hinp hunread
    cases e with
    | stream n =>
      rw [← hregion] at hunread
      cases hunread
    | memory a =>
      rw [← hregion] at hunread
      simp only [inputRegion, Bool.and_eq_true, decide_eq_true_iff, Option.isNone_iff_eq_none, region_end] at hunread
      obtain ⟨⟨hlow, hhigh⟩, hnone⟩ := hunread
      exact ⟨i, a, inp, he, hinp, hnone, hlow, hhigh⟩
  · rintro ⟨i, a, inp, he, hinp, hnone, hlow, hhigh⟩
    refine ⟨(inputRegion (.memory a) j.data.n (chainTaps (jobStages s j)), inp), ?_, ?_⟩
    · exact List.mem_iff_getElem?.mpr
        ⟨i, List.getElem?_zip_eq_some.mpr ⟨by rw [jobRegions_getElem?, he, Option.map_some], hinp⟩⟩
    · simp only [inputRegion, Bool.and_eq_true, decide_eq_true_iff, Option.isNone_iff_eq_none, region_end]
      exact ⟨⟨hlow, hhigh⟩, hnone⟩

theorem gatherHeld_iff {b : Word} (ho : j.data.output = .memory b) : gatherHeld s j = true ↔
    ∃ k, k < s.dp.gather.length ∧
      wordUnread (jobRegions s j) s.dp.inputs (b.toNat + 2 * (s.dp.finished + k)) = true := by
  simp only [gatherHeld, ho, List.any_eq_true, List.mem_range]

theorem pushGather_of_not_due (hd : gatherDue j.data s.dp = false) : pushGather j s = s := by
  rw [pushGather, hd, Bool.false_and, if_neg Bool.false_ne_true]

theorem pushGather_of_held (hh : gatherHeld s j = true) : pushGather j s = s := by
  rw [pushGather, hh, Bool.not_true, Bool.and_false, if_neg Bool.false_ne_true]

theorem pushGather_of_due (hd : gatherDue j.data s.dp = true) (hh : gatherHeld s j = false) :
    pushGather j s = { s with dp := issueGather j.data s.dp } := by
  rw [pushGather, hd, hh, Bool.not_false, Bool.and_self, if_pos rfl]

end

/-! ### One step (R107) -/

section

variable {s : State} {pos : Nat} {h : Header} {j : JobRec}

theorem exec_computeSample_of_computes (hc : Computes s pos h j) (reads : List ReadChoice) :
    exec (.computeSample reads) s = .next (settle (computeNext j (pushGather j (issueReads reads s)))) := by
  simp only [exec, execComputeSample, taken_eq hc.awake, computeStep, runningJob, headJob_of_data hc.head, if_pos hc.compute]

theorem computes_issueGather (hc : Computes s pos h j) : Computes { s with dp := issueGather j.data s.dp } pos h j := by
  obtain ⟨hst, hq, -⟩ := issueGather_keeps j.data s.dp
  exact ⟨hc.awake, hst.trans hc.compute, (congrArg (fun q => (s.queue q).head) hq).trans hc.head⟩

/-- A step's reads come first, and the step goes on as one without reads. -/
theorem exec_computeSample_reads (ha : awake s) (reads : List ReadChoice) :
    exec (.computeSample reads) s = exec (.computeSample []) (issueReads reads s) := by
  have heng : (issueReads reads s).eng = s.eng := (issueReads_changes reads s).eng rfl
  have ha' : awake (issueReads reads s) := by rw [awake, heng]; exact ha
  have hst : (issueReads reads s).dp.st = s.dp.st := by rw [issueReads_eq]
  simp only [exec, execComputeSample, taken_eq ha, taken_eq ha', computeStep, runningJob_issueReads, hst, issueReads_nil]
  cases hj : runningJob s with
  | none => simp only [issueReads, hj]
  | some j =>
    by_cases hs : s.dp.st = .compute
    · simp only [if_pos hs]
    · simp only [if_neg hs, issueReads_of_not_compute hs]

theorem computeNext_of_due (hd : gatherDue j.data s.dp = true) : computeNext j s = s := by
  rw [computeNext, hd, Bool.true_or, if_pos rfl]

theorem computeNext_of_not_ready (hw : wordsReady s j = false) : computeNext j s = s := by
  rw [computeNext, hw, Bool.not_false, Bool.or_true, if_pos rfl]

theorem computeNext_of_trapped {xs : List Sample} {stage : Nat} (hd : gatherDue j.data s.dp = false)
    (hw : wordsReady s j = true) (hx : inputSamples s j.data s.dp.next = some xs) (ho : computeOut s j xs = .trapped stage) :
    computeNext j s = trapEnd j stage s := by
  simp only [computeNext, hd, hw, hx, ho, Bool.not_true, Bool.or_self, Bool.false_eq_true, if_false]

theorem computeNext_of_out {xs : List Sample} {y : Sample} {bq : Vector BqState 6} {clips : Nat}
    (hd : gatherDue j.data s.dp = false) (hw : wordsReady s j = true) (hx : inputSamples s j.data s.dp.next = some xs)
    (ho : computeOut s j xs = .out y bq clips) :
    computeNext j s = afterSample j (handOn j s.dp.next y { s with dp := advanceDp s j xs bq clips }) := by
  simp only [computeNext, hd, hw, hx, ho, Bool.not_true, Bool.or_self, Bool.false_eq_true, if_false]

/-- A step that computes: its reads are none, and no write of GATHER is due. -/
theorem exec_computeSample_of_idle_gather (hc : Computes s pos h j) (hd : gatherDue j.data s.dp = false) :
    exec (.computeSample []) s = .next (settle (computeNext j s)) := by
  rw [exec_computeSample_of_computes hc, issueReads_nil, pushGather_of_not_due hd]

/-- After the last sample the job ends OK; otherwise it goes on, with GATHER written where it is due. -/
theorem afterSample_of_last (hl : s.dp.next = j.data.n) :
    afterSample j s = { s with dp := takeEnd .ok (issueGather j.data s.dp) } := if_pos hl

theorem afterSample_of_more (hl : s.dp.next ≠ j.data.n) : afterSample j s = pushGather j s := if_neg hl

end

/-- The working record of a sample handed on to its ring keeps the job and its progress. -/
theorem settle_finished {u : State} {monitor : Bool} {thresh : Nat} {dp : Datapath} {y : Sample}
    (hu : u.dp = finishSample monitor thresh dp y) (hst : dp.st = .compute) : settle u = u :=
  settle_of_compute (by rw [hu, finishSample_eq]; exact hst)

/-- Settles O55: the reads, the words, GATHER, and the step by what sample NEXT gives. -/
theorem computeSampleRule : Obligations.ComputeSampleRule := by
  refine ⟨fun s reads ha => exec_computeSample_reads ha reads,
    fun s c rest => ⟨issueReads_nil s, issueReads_cons c rest s⟩,
    fun s pos h j c hh => ⟨fun hno => ?noRead, fun a inp w hst he hinp hw => ?read⟩,
    fun s j => ⟨fun hj => by simp only [jobStages, hj], fun x hx => by simp only [jobStages, hx]⟩,
    fun s j xs => ⟨fun addr context x hk hx => ?filter, fun gains hk => by simp only [computeOut, hk]⟩,
    fun s d i xs => inputSamples_eq_some_iff, wordsReady_iff, fun s j e es inp inps x hes hinps hx => ?delay,
    fun d dp => ⟨gatherDue_iff d dp, ?gatherNone, fun b => issueGather_of_memory⟩, fun s j b taps ho ht => ?held,
    fun s pos h j hc hd => ⟨fun hheld => ?waits, fun hheld => ?writes⟩,
    fun s pos h j hc hd r hr => ⟨fun hw => ?notReady, fun xs hw hx => ⟨fun stage ho => ?trap,
      fun y bq clips dp ho hdp => ⟨fun n u hout hu => ?ring, fun b u hout hu written hwritten => ?memory⟩⟩⟩⟩
  case noRead =>
    obtain hst | hnone | ⟨n, hn⟩ := hno
    · exact issueReads_of_not_compute hst _
    all_goals
      rw [issueReads_of_job hh, List.foldl_cons, List.foldl_nil, issueRead_of_no_region]
      · exact ite_self s
    · exact .inl (by rw [jobRegions_getElem?, hnone]; rfl)
    · exact .inr (by rw [jobRegions_getElem?, hn]; rfl)
  case read =>
    have hone : issueReads [c] s = { s with dp := issueRead (jobRegions s j) s.dp c } := by
      rw [issueReads_of_job hh, if_pos hst]
      rfl
    rw [hone, issueRead_of_memory (by rw [jobRegions_getElem?, he, Option.map_some]) hinp hw]
    exact ⟨fun h0 => by rw [if_pos h0], fun h0 => by rw [if_neg h0]⟩
  case filter => simp only [computeOut, hk, jobStages, hx]
  case delay =>
    rw [jobDelay_of_chain hes hinps hx, delayLine]
    refine List.map_congr_left fun k _ => ?_
    cases e with
    | stream n => exact congrArg (fun p => some (storeRead s.store p)) (histPos_ringWord ..)
    | memory a => rfl
  case gatherNone =>
    rintro (hg | ⟨n, hn⟩)
    · exact issueGather_of_empty hg
    · exact issueGather_of_stream hn
  case held =>
    subst ht
    rw [gatherHeld_iff ho]
    constructor
    · rintro ⟨k, hk, hunread⟩
      obtain ⟨i, a, inp, he, hinp, hnone, hlow, hhigh⟩ := (wordUnread_iff ..).mp hunread
      exact ⟨k, i, a, inp, _, hk, rfl, he, hinp, hnone, hlow, hhigh⟩
    · rintro ⟨k, i, a, inp, _, hk, rfl, he, hinp, hnone, hlow, hhigh⟩
      exact ⟨k, hk, (wordUnread_iff ..).mpr ⟨i, a, inp, he, hinp, hnone, hlow, hhigh⟩⟩
  case waits =>
    rw [exec_computeSample_of_computes hc, issueReads_nil, pushGather_of_held hheld, computeNext_of_due hd,
      settle_of_compute hc.compute]
  case writes =>
    obtain ⟨-, b, ho, -⟩ := (gatherDue_iff ..).mp hd
    rw [exec_computeSample_of_computes hc, issueReads_nil, pushGather_of_due hd hheld,
      exec_computeSample_of_idle_gather (computes_issueGather hc) (gatherDue_of_empty (issueGather_gather ho s.dp))]
  case notReady => rw [hr, exec_computeSample_of_idle_gather hc hd, computeNext_of_not_ready hw, settle_of_compute hc.compute]
  case trap => rw [hr, exec_computeSample_of_idle_gather hc hd, computeNext_of_trapped hd hw hx ho, trapEnd, takeEnd]
  case ring =>
    have hstep : r = .next (settle (afterSample j u)) := by
      rw [hr, exec_computeSample_of_idle_gather hc hd, computeNext_of_out hd hw hx ho, handOn, hout, hu, hdp]
      rfl
    have hu' : u.dp = finishSample j.data.monitor j.data.thresh { dp with clipsDone := clips } y := by rw [hu]
    have hnext : u.dp.next = s.dp.next + 1 := by rw [hu', finishSample_eq, hdp]
    have hst : dp.st = .compute := by rw [hdp]; exact hc.compute
    refine ⟨fun hmore => ?_, fun hlast => ?_⟩
    · rw [hstep, afterSample_of_more (hnext ▸ hmore), pushGather_of_not_due (gatherDue_of_stream hout),
        settle_finished hu' hst]
    · rw [hstep, afterSample_of_last (hnext.trans hlast), issueGather_of_stream hout]
      rfl
  case memory =>
    have hstep : r = .next (settle (afterSample j u)) := by
      rw [hr, exec_computeSample_of_idle_gather hc hd, computeNext_of_out hd hw hx ho, handOn, hout, hu, hdp]
      rfl
    have hnext : u.dp.next = s.dp.next + 1 := by rw [hu, hdp]
    have hst : u.dp.st = .compute := by rw [hu, hdp]; exact hc.compute
    have hgather : u.dp.gather ≠ [] := by rw [hu]; simp
    have hissue : issueGather j.data u.dp = written := by
      rw [issueGather_of_memory hout hgather, hwritten, hu, hdp]
    refine ⟨fun hlast => ?_, fun hmore => ⟨fun hlen halign => ?_, fun hdue => ?_⟩⟩
    · rw [hstep, afterSample_of_last (hnext.trans hlast), hissue]
      rfl
    all_goals rw [hstep, afterSample_of_more (hnext ▸ hmore)]
    · rw [pushGather_of_not_due, settle_of_compute hst]
      refine Bool.eq_false_iff.mpr fun hyes => ?_
      obtain ⟨-, h | h | h⟩ := (gatherDue_of_memory hout).mp hyes
      · exact hlen h
      · exact halign (hnext ▸ h)
      · exact hmore (hnext ▸ h)
    · have hyes : gatherDue j.data u.dp = true :=
        (gatherDue_of_memory hout).mpr ⟨hgather, hdue.imp id fun h => .inl (by rw [hnext]; exact h)⟩
      refine ⟨fun hheld => ?_, fun hheld => ?_⟩
      · rw [pushGather_of_held hheld, settle_of_compute hst]
      · rw [pushGather_of_due hyes hheld, hissue, settle_of_compute]
        rw [← hissue]
        exact (issueGather_keeps ..).1.trans hst

end Sys2Proof.Machine
end

section
/-! SUPPORT. Memory answers at the datapath and the stop request (R108, R109, R112 to R115). -/

namespace Sys2Proof.Machine

open Sys2Proof

/-! ### Answers to reads -/

section

variable {s : State} {k : Nat} {a : DpRead} {data : List Byte} {reads : List ReadChoice}

theorem exec_dpReadAnswer_of_settle (ha : awake s) (hk : s.dp.reads[k]? = some a) (hlen : data.length = 2 * a.words)
    (hst : s.dp.st = .settle) : exec (.dpReadAnswer k data reads) s =
      .next (settle { s with dp := { s.dp with reads := s.dp.reads.eraseIdx k } }) := by
  have hno : ¬ s.dp.st = .compute := by rw [hst]; exact nofun
  simp only [exec, execDpReadAnswer, taken_eq ha, hk, hlen, ne_eq, not_true_eq_false, if_false, if_neg hno]

theorem exec_dpReadAnswer_of_compute (ha : awake s) (hk : s.dp.reads[k]? = some a) (hlen : data.length = 2 * a.words)
    (hst : s.dp.st = .compute) : exec (.dpReadAnswer k data reads) s =
      .next (settle (takeWords a data reads { s with dp := { s.dp with reads := s.dp.reads.eraseIdx k } })) := by
  simp only [exec, execDpReadAnswer, taken_eq ha, hk, hlen, ne_eq, not_true_eq_false, if_false, if_pos hst]

theorem exec_dpReadError_of_read (ha : awake s) (hk : s.dp.reads[k]? = some a) : exec (.dpReadError k) s =
    .next (settle { s with dp := if s.dp.st = .compute then busErrorEnd { s.dp with reads := s.dp.reads.eraseIdx k }
      else { s.dp with reads := s.dp.reads.eraseIdx k } }) := by
  simp only [exec, execDpReadError, taken_eq ha, hk]

/-- An answer's words stand with the others of its input. -/
theorem addWords_of_input {inputs : List DpInput} {inp : DpInput} (hi : inputs[a.input]? = some inp) (data : List Byte) :
    addWords inputs a data = inputs.set a.input { inp with
      words := inp.words ++ (List.range a.words).map (fun i => (a.addr + 2 * i, half data (2 * i))) } := by
  simp only [addWords, hi, answerWords]

/-- The words of an answer in COMPUTE: DELAY is loaded before sample 0, GATHER may go, and reads are issued. -/
theorem takeWords_of_computes {pos : Nat} {h : Header} {j : JobRec} (hc : Computes s pos h j) {u v : State}
    (hu : u = { s with dp := { s.dp with inputs := addWords s.dp.inputs a data } })
    (hlater : s.dp.next ≠ 0 → v = u)
    (hfirst : s.dp.next = 0 → v = { u with dp := { u.dp with delay := (jobDelay u j).map (fun x => x.getD 0) } }) :
    takeWords a data reads s = issueReads reads (pushGather j v) ∧ Computes v pos h j := by
  have huc : Computes u pos h j := by
    rw [hu]
    exact ⟨hc.awake, hc.compute, hc.head⟩
  by_cases h0 : s.dp.next = 0
  · have hload : loadDelay u = v := (loadDelay_of_running rfl huc.head).trans (hfirst h0).symm
    have hvc : Computes v pos h j := by
      rw [hfirst h0]
      exact ⟨huc.awake, huc.compute, huc.head⟩
    have hrun : runningJob v = some j := headJob_of_data hvc.head
    refine ⟨?_, hvc⟩
    unfold takeWords
    dsimp only
    rw [if_pos h0, ← hu, hload, hrun]
  · have hvu : v = u := hlater h0
    have hrun : runningJob u = some j := headJob_of_data huc.head
    refine ⟨?_, hvu ▸ huc⟩
    unfold takeWords
    dsimp only
    rw [if_neg h0, ← hu, hrun, hvu]

theorem settle_issueReads_pushGather {j : JobRec} (hst : s.dp.st = .compute) :
    settle (issueReads reads (pushGather j s)) = issueReads reads (pushGather j s) := by
  have hpush : (pushGather j s).dp.st = .compute := by
    rw [pushGather]
    split
    · exact (issueGather_keeps ..).1.trans hst
    · exact hst
  exact settle_of_compute (by rw [issueReads_eq]; exact hpush)

end

/-! ### Answers to writes -/

section

variable {s : State} {k : Nat} {w : DpWrite}

theorem exec_dpWriteAnswer_of_write (ha : awake s) (hk : s.dp.writes[k]? = some w) : exec (.dpWriteAnswer k) s =
    .next (settle { s with dp := { s.dp with writes := s.dp.writes.eraseIdx k } }) := by
  simp only [exec, execDpWriteAnswer, taken_eq ha, hk]

theorem exec_dpWriteError_of_write (ha : awake s) (hk : s.dp.writes[k]? = some w) : exec (.dpWriteError k) s =
    .next (settle { s with dp :=
      if s.dp.st = .compute then busErrorEnd { s.dp with writes := s.dp.writes.eraseIdx k }
      else if s.dp.endStat = .ok then { s.dp with writes := s.dp.writes.eraseIdx k, endStat := .busError }
      else { s.dp with writes := s.dp.writes.eraseIdx k } }) := by
  simp only [exec, execDpWriteError, taken_eq ha, hk]

end

/-! ### The stop request (R114) -/

section

variable {s : State} {pos : Nat} {h : Header} {j : JobRec}

theorem exec_stopRequest_of_none (ha : awake s) (hno : s.stopReq = false) : exec .stopRequest s = .next s := by
  simp only [exec, execStopRequest, taken_eq ha, hno, Bool.false_eq_true, if_false]

theorem exec_stopRequest_of_idle (ha : awake s) (hst : s.dp.st ≠ .compute) :
    exec .stopRequest s = .next { s with stopReq := false } := by
  by_cases hreq : s.stopReq = true
  · have hexec : exec .stopRequest s = taken s _ := rfl
    rw [hexec, taken_eq ha, if_pos hreq]
    dsimp only
    split
    · rw [if_neg fun hc => hst hc.1]
    · rfl
  · have hno := Bool.eq_false_iff.mpr hreq
    rw [exec_stopRequest_of_none ha hno, ← hno]

theorem exec_stopRequest_of_computes (hc : Computes s pos h j) (hreq : s.stopReq = true) (hend : s.dp.endStat = .none) :
    exec .stopRequest s = .next (settle { s with stopReq := false, dp := stopEnd j.data s.dp }) := by
  have hrun : runningJob { s with stopReq := false } = some j := headJob_of_data hc.head
  simp only [exec, execStopRequest, taken_eq hc.awake, hreq, if_true, hrun, hc.compute, hend, and_self]

end

/-- Settles O56: the read answers by DPSTATE, the write answers, and the stop request. -/
theorem datapathAnswersRule : Obligations.DatapathAnswersRule := by
  refine ⟨fun s k a data dp ha hk hdp => ⟨fun reads hst hlen => ?settled, fun hst => ?errorSettle, fun hst => ?errorCompute,
      fun pos h j inp u v reads hc hlen hinp hu hlater hfirst => ?words⟩,
    fun s k w dp ha hk hdp => ⟨?written, fun hst => ?failCompute, fun hst hend => ?failOk, fun hst hend => ?failOther⟩,
    fun s ha => ⟨exec_stopRequest_of_none ha, exec_stopRequest_of_idle ha, fun pos h j hc hreq hend =>
      ⟨fun hg => ?stopEmpty, fun b ho hg => ?stopGather⟩⟩⟩
  case settled =>
    subst hdp
    exact exec_dpReadAnswer_of_settle ha hk hlen hst
  case errorSettle =>
    subst hdp
    rw [exec_dpReadError_of_read ha hk, if_neg (by rw [hst]; exact nofun)]
  case errorCompute =>
    subst hdp
    rw [exec_dpReadError_of_read ha hk, if_pos hst]
    rfl
  case words =>
    subst hdp
    have hc' : Computes { s with dp := { s.dp with reads := s.dp.reads.eraseIdx k } } pos h j :=
      ⟨hc.awake, hc.compute, hc.head⟩
    obtain ⟨htake, hv⟩ := takeWords_of_computes (a := a) (data := data) (reads := reads) hc'
      (by rw [hu, addWords_of_input hinp]) hlater hfirst
    have hexec := exec_dpReadAnswer_of_compute (reads := reads) ha hk hlen hc.compute
    rw [htake, settle_issueReads_pushGather hv.compute] at hexec
    refine ⟨fun hstay => ?_, fun hdue hheld => by rw [hexec, pushGather_of_due hdue hheld]⟩
    rw [hexec]
    obtain hd | hh := hstay
    · rw [pushGather_of_not_due hd]
    · rw [pushGather_of_held hh]
  case written =>
    subst hdp
    exact exec_dpWriteAnswer_of_write ha hk
  case failCompute =>
    subst hdp
    rw [exec_dpWriteError_of_write ha hk, if_pos hst]
    rfl
  case failOk =>
    subst hdp
    rw [exec_dpWriteError_of_write ha hk, if_neg (by rw [hst]; exact nofun), if_pos hend]
  case failOther =>
    subst hdp
    rw [exec_dpWriteError_of_write ha hk, if_neg (by rw [hst]; exact nofun), if_neg hend]
  case stopEmpty => rw [exec_stopRequest_of_computes hc hreq hend, stopEnd, issueGather_of_empty hg, takeEnd]
  case stopGather => rw [exec_stopRequest_of_computes hc hreq hend, stopEnd, issueGather_of_memory ho hg, takeEnd]

end Sys2Proof.Machine
end

section
/-! SUPPORT. Commit and release stream by stream, and the end-of-job sequence (R14, R16, R115, R120 to R124). -/

namespace Sys2Proof.Machine

open Sys2Proof

/-! ### Commit and release (R14, R16) -/

theorem commitRoles_append (k : Nat) (l m : List (Fin 48 × Role)) (s : State) :
    commitRoles k (l ++ m) s = commitRoles k m (commitRoles k l s) := by
  induction l generalizing s with
  | nil => rfl
  | cons x l ih => exact ih _

/-- Each input is committed once. -/
theorem commitRoles_inputs_stream (k : Nat) {ns : List (Fin 48)} (hns : ns.Nodup) (s : State) (m : Fin 48) :
    (commitRoles k (ns.map (fun n => (n, Role.input))) s).stream m =
      if m ∈ ns then commitInput k (s.stream m) else s.stream m := by
  induction ns generalizing s with
  | nil => simp [commitRoles]
  | cons n ns ih =>
    obtain ⟨hn, hrest⟩ := List.nodup_cons.mp hns
    rw [List.map_cons, commitRoles, ih hrest, State.stream_setStream]
    by_cases hm : m = n
    · subst hm
      simp [hn, commitRole]
    · simp [hm]

theorem commitRoles_output_stream (k : Nat) (o : Option (Fin 48)) (s : State) (m : Fin 48) :
    (commitRoles k ((o.map (fun n => (n, Role.output))).toList) s).stream m =
      if o = some m then commitOutput k (s.stream m) else s.stream m := by
  cases o with
  | none => simp [commitRoles]
  | some n =>
    rw [Option.map_some, Option.toList_some, commitRoles, commitRoles, State.stream_setStream]
    by_cases hm : m = n
    · subst hm
      simp [commitRole]
    · simp [hm, Ne.symm hm]

theorem endpointStream_eq_some_iff (e : Endpoint) (n : Fin 48) : endpointStream e = some n ↔ e = .stream n := by
  cases e <;> simp [endpointStream]

theorem mem_namedStreams_iff_endpoint (d : DataRec) (m : Fin 48) :
    m ∈ namedStreams d ↔ m ∈ streamInputs d ∨ d.output = .stream m := by
  rw [← endpointStream_eq_some_iff]
  simp [namedStreams, streamRoles, eq_comm]

/-- The streams of a job after their commit. -/
theorem commitRoles_stream {d : DataRec} (hd : (streamInputs d).Nodup) (s : State) (n : Fin 48) :
    (commitRoles d.n (streamRoles d) s).stream n = { s.stream n with
      rdpos := if n ∈ streamInputs d then ((s.stream n).rdpos + d.n) % (s.stream n).length else (s.stream n).rdpos
      wrpos := if d.output = .stream n then ((s.stream n).wrpos + d.n) % (s.stream n).length else (s.stream n).wrpos
      fill := (if n ∈ streamInputs d then (s.stream n).fill - d.n else (s.stream n).fill) +
        (if d.output = .stream n then d.n else 0) } := by
  rw [streamRoles, commitRoles_append, commitRoles_output_stream, commitRoles_inputs_stream d.n hd]
  simp only [endpointStream_eq_some_iff]
  by_cases hin : n ∈ streamInputs d <;> by_cases hout : d.output = .stream n <;>
    simp [hin, hout, commitInput, commitOutput]

theorem releaseStreams_stream (d : DataRec) (s : State) (n : Fin 48) : (releaseStreams d s).stream n = { s.stream n with
    claimed := if n ∈ streamInputs d ∨ d.output = .stream n then false else (s.stream n).claimed } := by
  have hstreams : (releaseStreams d s).stream n = (setClaims false (namedStreams d) s).stream n := rfl
  rw [hstreams, setClaims_record]
  simp only [mem_namedStreams_iff_endpoint]

theorem commitStreams_stream {d : DataRec} (hd : (streamInputs d).Nodup) (s : State) (n : Fin 48) :
    (commitStreams d s).stream n = { s.stream n with
      rdpos := if n ∈ streamInputs d then ((s.stream n).rdpos + d.n) % (s.stream n).length else (s.stream n).rdpos
      wrpos := if d.output = .stream n then ((s.stream n).wrpos + d.n) % (s.stream n).length else (s.stream n).wrpos
      fill := (if n ∈ streamInputs d then (s.stream n).fill - d.n else (s.stream n).fill) +
        (if d.output = .stream n then d.n else 0)
      claimed := if n ∈ streamInputs d ∨ d.output = .stream n then false else (s.stream n).claimed } := by
  rw [commitStreams, releaseStreams_stream, commitRoles_stream hd]

theorem releaseStreams_notices (d : DataRec) (s : State) : (releaseStreams d s).notices = s.notices ++ namedStreams d := by
  rw [releaseStreams_frame]

theorem commitStreams_notices (d : DataRec) (s : State) : (commitStreams d s).notices = s.notices ++ namedStreams d := by
  rw [commitStreams_frame]

/-! ### The end-of-job sequence (R120 to R124) -/

section

variable {s u : State} {q : Fin 4} {j : JobRec} {dp : Datapath}

theorem endContext_of_none (hc : jobContext j.data = none) : endContext j dp u = u := by simp only [endContext, hc]

theorem endContext_of_ok {k : Fin 32} (hc : jobContext j.data = some k) (hok : dp.endStat = .ok) : endContext j dp u =
    u.setContext k { binding := jobChain u j, sstate := dp.bq, held := false } := by
  simp only [endContext, hc, if_pos hok]

theorem endContext_of_not_ok {k : Fin 32} (hc : jobContext j.data = some k) (hno : dp.endStat ≠ .ok) : endContext j dp u =
    u.setContext k { u.context k with held := false } := by
  simp only [endContext, hc, if_neg hno]

/-- An ABORT that waits for another head, or none, is left. -/
theorem endAbort_of_none (hw : ∀ a, s.cu.work ≠ some (.abortWait a q)) : endAbort q s = s := by
  unfold endAbort
  split
  · next a t h =>
    refine if_neg fun ht => hw a ?_
    rw [h, ht]
  · rfl

theorem endAbort_of_waiting {a : Fin 4} (hw : s.cu.work = some (.abortWait a q)) :
    endAbort q s = finishControl a .ok 0 .none false s := by
  simp only [endAbort, hw, if_true]

theorem settle_of_done (hst : s.dp.st = .settle) (hr : s.dp.reads = []) (hw : s.dp.writes = []) : settle s = endOfJob s :=
  if_pos ⟨hst, hr, hw⟩

theorem endOfJob_of_data {pos : Nat} {h : Header} (hh : (s.queue s.dp.jobq).head = .data pos h j) : endOfJob s =
    checkDrain (endAbort s.dp.jobq (completeHead s.dp.jobq
      (endCompletion (useEndOf j (endContext j s.dp (endStreams j s.dp { s with dp := Datapath.idle, stopReq := false })))
        s.dp.jobq h j s.dp)
      (useEndOf j (endContext j s.dp (endStreams j s.dp { s with dp := Datapath.idle, stopReq := false }))))) := by
  simp only [endOfJob, hh]

/-- DETAIL of a job that ended: the stage and the sample of its trap (R123). -/
theorem endDetail_eq (dp : Datapath) : endDetail dp = match dp.endStat, dp.trapAt with
    | .overflowTrap, some at_ => .trap at_.1 at_.2
    | _, _ => .none := by
  unfold endDetail
  cases dp.endStat <;> cases dp.trapAt <;> rfl

end

/-- Settles O57: commit and release stream by stream, then each part of the sequence. -/
theorem endOfJobRule : Obligations.EndOfJobRule := by
  refine ⟨fun s hno => ?waits, fun s d => ⟨?inputs, ?context, ?commitFrame, ?releaseFrame⟩,
    fun s d hd n => ⟨commitStreams_stream hd s n, releaseStreams_stream d s n, commitStreams_notices d s,
      releaseStreams_notices d s, mem_namedStreams_iff_endpoint d, List.nodup_dedup _⟩, ?ending⟩
  case waits =>
    refine if_neg fun ⟨hst, hr, hw⟩ => ?_
    obtain h | h | h := hno
    · exact h hst
    · exact h hr
    · exact h hw
  case inputs =>
    refine List.filterMap_congr fun e _ => ?_
    cases e <;> rfl
  case context => unfold jobContext; cases d.kind <;> rfl
  case commitFrame => rw [commitStreams_frame]
  case releaseFrame => rw [releaseStreams_frame]
  case ending =>
    rintro s pos h j q u v w c hst hr hwr rfl hh hu hvnone hvsome hwnone hwsome st hend hc
    have hu' : endStreams j s.dp { s with dp := Datapath.idle, stopReq := false } = u := hu.symm
    have hchanged : Changes [.dp, .stopReq, .streams, .notices] s u := by
      have h0 : Changes [.dp, .stopReq] s { s with dp := Datapath.idle, stopReq := false } :=
        (changes_dp (s := s) Datapath.idle).trans (changes_stopReq (s := { s with dp := Datapath.idle }) false)
      rw [← hu']
      exact (h0.trans (endStreams_changes ..)).mono rfl
    have hv : endContext j s.dp u = v := by
      cases hk : jobContext j.data with
      | none => rw [endContext_of_none hk, hvnone hk]
      | some k =>
        obtain ⟨hok, hno⟩ := hvsome k hk
        by_cases he : s.dp.endStat = .ok
        · have hchain : jobChain u j = j.chainEnt.map (fun x => (s.entry x).addr) := by
            simp only [jobChain, hchanged.entry rfl]
          rw [endContext_of_ok hk he, hchain, hok he]
        · rw [endContext_of_not_ok hk he, hchanged.context rfl, hno he]
    have hvchanged : Changes [.dp, .stopReq, .streams, .notices, .contexts] s v := by
      rw [← hv]
      exact (hchanged.trans (endContext_changes ..)).mono rfl
    have hw : useEndOf j v = w := by
      cases hx : j.chainEnt with
      | none => rw [useEndOf_of_none hx, hwnone hx]
      | some x => rw [useEndOf_of_some hx, hvchanged.entry rfl, hwsome x hx]
    have hwchanged : Changes [.dp, .stopReq, .streams, .notices, .contexts, .cache] s w := by
      rw [← hw]
      exact (hvchanged.trans (useEndOf_changes ..)).mono rfl
    have hstatus : endStatus s.dp.endStat = st := by
      obtain ⟨he, rfl⟩ | ⟨he, rfl⟩ | ⟨he, rfl⟩ | ⟨he, rfl⟩ := hend <;> rw [he] <;> rfl
    have hrec : endCompletion w s.dp.jobq h j s.dp = c := by
      rw [endCompletion, completion_congr (s := s) (by rw [hwchanged.portA rfl]) (by rw [hwchanged.portB rfl]), hstatus,
        endDetail_eq, hc] <;> rfl
    have hsettle : settle s = checkDrain (endAbort s.dp.jobq (completeHead s.dp.jobq c w)) := by
      rw [settle_of_done hst hr hwr, endOfJob_of_data hh, hu', hv, hw, hrec]
    have hcu : (completeHead s.dp.jobq c w).cu = s.cu := by rw [completeHead_cu, hwchanged.cu rfl]
    refine ⟨fun hnone => ?_, fun a apos ah abody ast hne habort hah => ?_⟩
    · rw [hsettle, endAbort_of_none (by rw [hcu]; exact hnone)]
    · have hahead : ((completeHead s.dp.jobq c w).queue a).head = .control apos ah abody ast := by
        rw [completeHead_queue_ne c w hne, hwchanged.queue rfl, hah]
      have hdone := hwchanged.trans (completeHead_changes s.dp.jobq c w)
      rw [hsettle, endAbort_of_waiting (by rw [hcu]; exact habort), finishControl_eq hahead, hcu,
        completion_congr (s := s) (by rw [hdone.portA rfl]) (by rw [hdone.portB rfl])]
      rfl

end Sys2Proof.Machine
end

section
/-! SUPPORT. Setup: the cut of the reads into answers, the record's fields, its twelve checks, and what it loads (R172 to
R176, R185). -/

namespace Sys2Proof.Machine

open Sys2Proof

/-! ### Putting an answer into its region -/

theorem cellsPut_nil (cs : List (Option Byte)) (off : Nat) : cellsPut cs off [] = cs := by cases cs <;> rfl

theorem cellsPut_succ (c : Option Byte) (cs : List (Option Byte)) (off : Nat) (xs : List Byte) :
    cellsPut (c :: cs) (off + 1) xs = c :: cellsPut cs off xs := by
  cases xs with
  | nil => rw [cellsPut_nil, cellsPut_nil]
  | cons x xs => rfl

/-- The bytes of an answer stand from its offset on; every other byte is as it was. -/
theorem cellsPut_getElem? (cs : List (Option Byte)) (off : Nat) (xs : List Byte) (k : Nat) : (cellsPut cs off xs)[k]? =
    if off ≤ k ∧ k < off + xs.length ∧ k < cs.length then xs[k - off]?.map some else cs[k]? := by
  induction cs generalizing off xs k with
  | nil => simp [cellsPut]
  | cons c cs ih =>
    cases off with
    | succ off =>
      rw [cellsPut_succ]
      cases k with
      | zero => simp
      | succ k =>
        rw [List.getElem?_cons_succ, ih, List.getElem?_cons_succ, List.length_cons]
        simp only [Nat.add_le_add_iff_right, Nat.add_right_comm off 1, Nat.add_lt_add_iff_right, Nat.add_sub_add_right]
    | zero =>
      cases xs with
      | nil => simp [cellsPut_nil]
      | cons x xs =>
        rw [cellsPut]
        cases k with
        | zero => simp
        | succ k =>
          rw [List.getElem?_cons_succ, ih, List.getElem?_cons_succ, List.length_cons, List.length_cons]
          simp only [Nat.zero_le, true_and, Nat.zero_add, Nat.sub_zero, Nat.add_lt_add_iff_right, List.getElem?_cons_succ]

theorem cellsPut_length (cs : List (Option Byte)) (off : Nat) (xs : List Byte) : (cellsPut cs off xs).length = cs.length := by
  induction cs generalizing off xs with
  | nil => rfl
  | cons c cs ih =>
    cases off with
    | succ off => rw [cellsPut_succ, List.length_cons, List.length_cons, ih]
    | zero =>
      cases xs with
      | nil => rw [cellsPut_nil]
      | cons x xs => rw [cellsPut, List.length_cons, List.length_cons, ih]

/-- The bytes an answer puts: those it brings, or zeroes for an error. -/
def answerBytes : Answer → List Byte
  | .ok data => data
  | .error n => List.replicate n 0

theorem answerBytes_length (a : Answer) : (answerBytes a).length = answerLength a := by
  cases a with
  | ok data => rfl
  | error n => exact List.length_replicate ..

theorem bufTake_cells (b : ReadBuf) (off : Nat) (a : Answer) : (bufTake b off a).cells = cellsPut b.cells off (answerBytes a) := by
  cases a <;> rfl

section

variable {b : ReadBuf} {off k : Nat} {a : Answer}

theorem bufTake_outside (hk : k < off ∨ off + answerLength a ≤ k) : (bufTake b off a).cells[k]? = b.cells[k]? := by
  rw [bufTake_cells, cellsPut_getElem?, answerBytes_length, if_neg (by omega)]

theorem bufTake_inside (hfit : off + answerLength a ≤ b.cells.length) (hk : k < answerLength a) :
    (bufTake b off a).cells[off + k]? = (answerBytes a)[k]?.map some := by
  rw [bufTake_cells, cellsPut_getElem?, answerBytes_length, if_pos (by omega), Nat.add_sub_cancel_left]

end

theorem answerFits_iff (b : ReadBuf) (off len : Nat) : answerFits b off len = true ↔ 1 ≤ len ∧ off + len ≤ b.cells.length ∧
    ∀ k, off ≤ k → k < off + len → b.cells[k]? = some none := by
  rw [answerFits, Bool.and_eq_true, Bool.and_eq_true, decide_eq_true_iff, decide_eq_true_iff, List.all_eq_true, and_assoc]
  refine and_congr_right fun _ => and_congr_right fun hfit => ⟨fun h k hlow hhigh => ?_, fun h c hc => ?_⟩
  · have hk : k < b.cells.length := by omega
    have hmem : b.cells[k] ∈ (b.cells.drop off).take len := by
      refine List.mem_iff_getElem?.mpr ⟨k - off, ?_⟩
      rw [List.getElem?_take, if_pos (by omega), List.getElem?_drop, Nat.add_sub_cancel' hlow, List.getElem?_eq_getElem hk]
    rw [List.getElem?_eq_getElem hk, Option.isNone_iff_eq_none.mp (h _ hmem)]
  · obtain ⟨i, hi⟩ := List.mem_iff_getElem?.mp hc
    rw [List.getElem?_take] at hi
    split at hi
    · next hlt =>
      rw [List.getElem?_drop, h (off + i) (by omega) (by omega)] at hi
      rw [← Option.some.inj hi]
      rfl
    · cases hi

theorem bufDone_iff (b : ReadBuf) : bufDone b = true ↔ none ∉ b.cells := by
  rw [bufDone, List.all_eq_true]
  constructor
  · intro h hn
    cases h none hn
  · intro h c hc
    cases c with
    | none => exact absurd hc h
    | some x => rfl

theorem bufBytes_getElem? {b : ReadBuf} {k : Nat} {x : Byte} (hk : b.cells[k]? = some (some x)) : (bufBytes b)[k]? = some x := by
  rw [bufBytes, List.getElem?_map, hk]
  rfl

/-! ### The twelve checks (R173, R174) -/

theorem queueChecks_eq (r : SetupRec) (q : Fin 4) : queueChecks r q = if r.queues[q.val].present = true then
    [⟨decide (r.queues[q.val].base.toNat % 64 = 0), .queueAlign, q.val⟩,
     ⟨decide (r.queues[q.val].size ∈ [16, 32, 64, 128, 256, 512, 1024]), .queueSize, q.val⟩,
     ⟨decide (1 ≤ r.queues[q.val].weight ∧ r.queues[q.val].weight ≤ 8), .queueWeight, q.val⟩,
     ⟨decide (r.queues[q.val].base.toNat + 64 * r.queues[q.val].size ≤ 2 ^ 32), .ringRange, q.val⟩] else [] := by
  have hsize : Config.queueSizes.contains r.queues[q.val].size =
      decide (r.queues[q.val].size ∈ [16, 32, 64, 128, 256, 512, 1024]) := List.contains_eq_mem ..
  rw [queueChecks, hsize, ← Bool.decide_and]
  rfl

theorem cqChecks_eq (r : SetupRec) : cqChecks r =
    [⟨decide (r.cqBase.toNat % 32 = 0), .cqAlign, 4⟩,
     ⟨decide (r.cqSize ∈ [16, 32, 64, 128, 256, 512, 1024, 2048, 4096]), .cqSize, 4⟩,
     ⟨decide (r.cqBase.toNat + 32 * r.cqSize ≤ 2 ^ 32), .ringRange, 4⟩,
     ⟨decide (1 ≤ r.cqThresh ∧ r.cqThresh ≤ 64 ∧ r.cqDelay ≤ 1023), .coalesce, 4⟩] := by
  have hsize : Config.cqSizes.contains r.cqSize =
      decide (r.cqSize ∈ [16, 32, 64, 128, 256, 512, 1024, 2048, 4096]) := List.contains_eq_mem ..
  rw [cqChecks, hsize, Bool.and_assoc, ← Bool.decide_and, ← Bool.decide_and]
  rfl

theorem portChecks_eq (r : SetupRec) (p : Fin 2) : portChecks r p =
    [⟨decide (r.ports[p.val].mode ≤ 2), .portMode, p.val⟩,
     ⟨decide (r.ports[p.val].mode = 0 ∨ 2 ≤ r.ports[p.val].slots ∧ r.ports[p.val].slots ≤ 32), .portSlots, p.val⟩,
     ⟨decide (r.ports[p.val].mode ≠ 1 ∨ 4 ≤ r.ports[p.val].div ∧ r.ports[p.val].div ≤ 1023), .portDivisor, p.val⟩] := by
  rw [portChecks, ← Bool.decide_and, ← Bool.decide_or, ← Bool.decide_and, ← Bool.decide_or]

theorem overlapChecks_length (before rings : List MemRing) : (overlapChecks before rings).length = rings.length := by
  induction rings generalizing before with
  | nil => rfl
  | cons x rest ih => rw [overlapChecks, List.length_cons, ih, List.length_cons]

/-- The check of a ring looks at every ring before it. -/
theorem overlapChecks_getElem? (first before after : List MemRing) (x : MemRing) :
    (overlapChecks first (before ++ x :: after))[before.length]? =
      some ⟨!(first ++ before).any (fun y => rangesMeet x.base x.bytes y.base y.bytes), .ringOverlap, x.unit⟩ := by
  induction before generalizing first with
  | nil => rw [List.nil_append, overlapChecks, List.append_nil]; rfl
  | cons y before ih =>
    rw [List.cons_append, overlapChecks, List.length_cons, List.getElem?_cons_succ, ih, List.append_assoc]
    rfl

theorem not_any_rangesMeet_iff (before : List MemRing) (x : MemRing) :
    (!before.any (fun y => rangesMeet x.base x.bytes y.base y.bytes)) = true ↔
      ∀ y ∈ before, y.base + y.bytes ≤ x.base ∨ x.base + x.bytes ≤ y.base := by
  rw [Bool.not_eq_true', List.any_eq_false]
  refine forall₂_congr fun y _ => ?_
  rw [rangesMeet, Bool.and_eq_true, decide_eq_true_iff, decide_eq_true_iff]
  omega

/-! ### What setup loads (R132, R175) -/

theorem setupAccept_queue (r : SetupRec) (s : State) (q : Fin 4) : (setupAccept r s).queue q = loadedQueue r.queues[q.val] := by
  fin_cases q <;> rfl

section

variable {s : State} {b : ReadBuf} {off : Nat} {a : Answer}

theorem exec_setupReadAnswer_of_fits (ha : awake s) (hb : s.eng.setup = some b)
    (hfits : answerFits b off (answerLength a) = true) (hblock : off / 64 = (off + answerLength a - 1) / 64) :
    exec (.setupReadAnswer off a) s = .next (if bufDone (bufTake b off a) then setupDone (bufTake b off a) s
      else { s with eng := { s.eng with setup := some (bufTake b off a) } }) := by
  have hrange : setupRangeOk off (answerLength a) = true := decide_eq_true hblock
  simp only [exec, execSetupReadAnswer, taken_eq ha, hb, hfits, hrange, Bool.and_self, if_true]

theorem setupDone_of_error (herr : b.err = true) : setupDone b s = setupFail .setupBus 0 s := by
  rw [setupDone, herr, if_pos rfl]

theorem setupDone_of_check {c : SetupCheck} (herr : b.err = false)
    (hc : (setupChecks (decodeSetup (bufBytes b))).find? (fun c => !c.ok) = some c) : setupDone b s = setupFail c.code c.idx s := by
  simp only [setupDone, herr, Bool.false_eq_true, if_false, hc]

theorem setupDone_of_passed (herr : b.err = false)
    (hc : (setupChecks (decodeSetup (bufBytes b))).find? (fun c => !c.ok) = none) :
    setupDone b s = setupAccept (decodeSetup (bufBytes b)) s := by
  simp only [setupDone, herr, Bool.false_eq_true, if_false, hc]

end

/-- Settles O35: the region's bytes, the fields, the checks, the loaded ports, and each outcome of an answer. -/
theorem setupAnswers : Obligations.SetupAnswers := by
  refine ⟨fun data n => ⟨rfl, rfl⟩, answerFits_iff, fun b off a hfit => ⟨?length, fun k hk => bufTake_outside hk, ?okBytes, ?errBytes⟩,
    fun b => ⟨bufDone_iff b, List.length_map .., fun k x => bufBytes_getElem?⟩, fun bs r hr => ⟨?queues, ?fields⟩,
    fun r rings hrings => ?checks, fun x r => ⟨fun h => ?off, fun h => ?master, fun h => ?follower⟩,
    fun s b off a ha hb hfits hblock => ?answer⟩
  case length => rw [bufTake_cells, cellsPut_length]
  case okBytes =>
    rintro data rfl
    exact ⟨rfl, fun k hk => bufTake_inside hfit hk⟩
  case errBytes =>
    rintro n rfl
    refine ⟨rfl, fun k hk => ⟨0, ?_⟩⟩
    rw [bufTake_inside hfit hk, answerBytes, List.getElem?_replicate, if_pos hk]
    rfl
  case queues =>
    subst hr
    intro q
    fin_cases q <;> rfl
  case fields =>
    subst hr
    refine ⟨rfl, rfl, rfl, rfl, fun p => ?_⟩
    fin_cases p <;> rfl
  case checks =>
    have hr : setupRings r = rings := hrings.symm
    refine ⟨overlapChecks [] rings, ?_, overlapChecks_length .., fun before x after hsplit =>
      ⟨⟨!before.any (fun y => rangesMeet x.base x.bytes y.base y.bytes), .ringOverlap, x.unit⟩, ?_, rfl, rfl, ?_⟩⟩
    · have hq : queueIds.flatMap (queueChecks r) = _ := congrArg queueIds.flatMap (funext (queueChecks_eq r))
      have hp : portChecks r 0 ++ portChecks r 1 = ([0, 1] : List (Fin 2)).flatMap (portChecks r) := by
        rw [List.flatMap_cons, List.flatMap_cons, List.flatMap_nil, List.append_nil]
      have hp' : ([0, 1] : List (Fin 2)).flatMap (portChecks r) = _ :=
        congrArg (List.flatMap · [0, 1]) (funext (portChecks_eq r))
      rw [setupChecks, List.append_assoc _ (portChecks r 0), hp, hp', hq, cqChecks_eq, hr]
      rfl
    · rw [hsplit, overlapChecks_getElem?, List.nil_append]
    · exact not_any_rangesMeet_iff before x
  case off => simp only [loadedPort, h]
  case master =>
    simp only [loadedPort, h]
    rfl
  case follower =>
    simp only [loadedPort, h]
    rfl
  case answer =>
    have hexec := exec_setupReadAnswer_of_fits ha hb hfits hblock
    refine ⟨fun hopen => ?waiting, fun hdone herr => ?busError, fun hdone hok r hr => ⟨fun before c after hsplit hbefore hc => ?failed,
      fun hall => ?passed⟩⟩
    case waiting => rw [hexec, hopen, if_neg Bool.false_ne_true]
    all_goals rw [hdone, if_pos rfl] at hexec
    case busError =>
      rw [hexec, setupDone_of_error herr]
      rfl
    case failed =>
      have hfind : (setupChecks r).find? (fun c => !c.ok) = some c := by
        rw [hsplit, List.find?_eq_some_iff_append]
        exact ⟨by rw [hc]; rfl, before, after, rfl, fun x hx => by rw [hbefore x hx]; rfl⟩
      rw [hexec, setupDone_of_check hok (by rw [← hr]; exact hfind)]
      rfl
    case passed =>
      have hfind : (setupChecks r).find? (fun c => !c.ok) = none :=
        List.find?_eq_none.mpr fun x hx => by rw [hall x hx]; exact Bool.false_ne_true
      refine ⟨setupAccept r s, ?_, rfl, setupAccept_queue r s, rfl, rfl, rfl, rfl, rfl, rfl, rfl, rfl, rfl, rfl, rfl, rfl, rfl,
        rfl, rfl, rfl, rfl, rfl⟩
      rw [hexec, setupDone_of_passed hok (by rw [← hr]; exact hfind), hr]

end Sys2Proof.Machine
end

section
/-! SUPPORT. A port's append and take (R6, R7, R9, R10). -/

namespace Sys2Proof.Machine

open Sys2Proof

section

variable {s : State} {n : Fin 48} {frame : Word} {x : Sample}

theorem portAppend_of_space (h : (s.stream n).fill + (s.stream n).hist < (s.stream n).length) : portAppend n frame x s =
    { s with store := storeWrite s.store (ringWord (s.stream n) (s.stream n).wrpos) x, notices := s.notices ++ [n] }.setStream n
      { s.stream n with
        wrpos := ((s.stream n).wrpos + 1) % (s.stream n).length, fill := (s.stream n).fill + 1, stamp := frame } := by
  have hfree : 1 ≤ freeSpace (s.stream n) := by
    rw [freeSpace]
    omega
  rw [portAppend]
  exact if_pos hfree

/-- The stream after an overrun that drops the new sample (R7). -/
def overrunCounted (r : StreamRec) (frame : Word) : StreamRec :=
  { r with ovrcnt := satSucc r.ovrcnt, stamp := frame, ovrarm := false }

theorem portAppend_of_full (h : (s.stream n).length ≤ (s.stream n).fill + (s.stream n).hist) {u : State} {reason : EvReason}
    (hreason : overrunReason (s.stream n) = reason)
    (hu : u = if reason = .oldDropped then
        { s.setStream n (overrunRec (s.stream n) frame) with
          store := storeWrite s.store (ringWord (s.stream n) (s.stream n).wrpos) x }
      else s.setStream n (overrunRec (s.stream n) frame)) :
    portAppend n frame x s = if (s.stream n).ovrarm then raiseEvent u .streamOverrun n.val reason else u := by
  have hfull : ¬ 1 ≤ freeSpace (s.stream n) := by
    rw [freeSpace]
    omega
  subst hreason
  rw [portAppend, hu]
  exact if_neg hfull

theorem overrunReason_of_dropNew {r : StreamRec} (h : r.policy = .dropNew) : overrunReason r = .newDropped := by
  rw [overrunReason, h]

theorem overrunReason_of_dropOld {r : StreamRec} (h : r.policy = .dropOld) :
    overrunReason r = if r.claimed then .newDroppedClaimed else .oldDropped := by
  rw [overrunReason, h]

theorem overrunRec_of_kept {r : StreamRec} (h : overrunReason r ≠ .oldDropped) : overrunRec r frame = overrunCounted r frame :=
  if_neg h

theorem overrunRec_of_oldDropped {r : StreamRec} (h : overrunReason r = .oldDropped) : overrunRec r frame =
    { overrunCounted r frame with rdpos := (r.rdpos + 1) % r.length, wrpos := (r.wrpos + 1) % r.length } := if_pos h

theorem takeSample_of_filled (h : 1 ≤ (s.stream n).fill) :
    takeSample s n = storeRead s.store (ringWord (s.stream n) (s.stream n).rdpos) := if_pos h

theorem takeSample_of_empty (h : (s.stream n).fill = 0) : takeSample s n = (s.stream n).idle :=
  if_neg (by omega)

theorem portTake_of_filled (h : 1 ≤ (s.stream n).fill) : portTake n frame s = { s with notices := s.notices ++ [n] }.setStream n
    { s.stream n with
      rdpos := ((s.stream n).rdpos + 1) % (s.stream n).length, fill := (s.stream n).fill - 1, stamp := frame } := by
  rw [portTake]
  exact if_pos h

theorem portTake_of_empty (h : (s.stream n).fill = 0) {u : State}
    (hu : u = s.setStream n { s.stream n with undcnt := satSucc (s.stream n).undcnt, stamp := frame, undarm := false }) :
    portTake n frame s = if (s.stream n).undarm then raiseEvent u .streamUnderrun n.val .empty else u := by
  rw [portTake, hu]
  exact if_neg (by omega)

end

/-- Settles O58: the store, an append with and without room by policy, and a take with and without a sample. -/
theorem appendAndTakeRule : Obligations.AppendAndTakeRule := by
  refine ⟨fun m a b v hm => storeRead_storeWrite hm a b v, fun r pos => rfl, ?_⟩
  rintro s n frame x r rfl
  refine ⟨portAppend_of_space, fun hfull d u reason hd hnew hclaimed hold => ?full,
    fun hfill => ⟨takeSample_of_filled hfill, portTake_of_filled hfill⟩,
    fun hempty => ⟨takeSample_of_empty hempty, fun u hu => portTake_of_empty hempty hu⟩⟩
  have hd' : overrunCounted (s.stream n) frame = d := hd.symm
  have hkept : overrunReason (s.stream n) = reason → reason ≠ .oldDropped → u = s.setStream n d →
      portAppend n frame x s = if (s.stream n).ovrarm then raiseEvent u .streamOverrun n.val reason else u := by
    intro hreason hne hu
    refine portAppend_of_full hfull hreason ?_
    rw [if_neg hne, overrunRec_of_kept (hreason ▸ hne), hd', hu]
  cases hp : (s.stream n).policy with
  | dropNew =>
    obtain ⟨hu, rfl⟩ := hnew hp
    exact hkept (overrunReason_of_dropNew hp) nofun hu
  | dropOld =>
    have hreason := overrunReason_of_dropOld hp
    cases hc : (s.stream n).claimed with
    | true =>
      obtain ⟨hu, rfl⟩ := hclaimed hp hc
      exact hkept (by rw [hreason, hc]; rfl) nofun hu
    | false =>
      obtain ⟨rfl, hu⟩ := hold hp hc
      have hdropped : overrunReason (s.stream n) = .oldDropped := by rw [hreason, hc]; rfl
      refine portAppend_of_full hfull hdropped ?_
      rw [if_pos rfl, overrunRec_of_oldDropped hdropped, hd', hu]
      rfl

end Sys2Proof.Machine
end

section
/-! SUPPORT. What the port operations do to the port's record, slot by slot, and the frame event (R134, R138, R147). -/

namespace Sys2Proof.Machine

open Sys2Proof

/-! ### A port's own record -/

theorem slotStream_eq_some_iff (r : PortRec) (dir : Dir) (j : Fin 32) (n : Fin 48) :
    slotStream r dir j = some n ↔ (r.slot j).current = some (dir, n) ∧ j.val < r.slots := by
  unfold slotStream
  cases hc : (r.slot j).current with
  | none => simp
  | some x =>
    obtain ⟨d, m⟩ := x
    dsimp only
    by_cases hd : d = dir ∧ j.val < r.slots
    · obtain ⟨rfl, hj⟩ := hd
      simp [hj]
    · rw [if_neg hd]
      simp only [reduceCtorEq, Option.some.injEq, Prod.mk.injEq, false_iff]
      exact fun ⟨⟨hdir, _⟩, hj⟩ => hd ⟨hdir, hj⟩

theorem slotStream_congr {r r' : PortRec} (hm : r'.map = r.map) (hs : r'.slots = r.slots) (dir : Dir) (j : Fin 32) :
    slotStream r' dir j = slotStream r dir j := by
  simp only [slotStream, PortRec.slot, hm, hs]

theorem PortRec.setTx_txhold (r : PortRec) (i j : Fin 32) (x : Option Sample) :
    (r.setTx i x).txhold[j.val] = if j = i then x else r.txhold[j.val] := by
  by_cases h : j = i
  · subst h
    simp [PortRec.setTx]
  · have hne : i.val ≠ j.val := fun e => h (Fin.ext e.symm)
    simp [PortRec.setTx, h, Vector.getElem_set_ne, hne]

theorem PortRec.slot_setSlot (r : PortRec) (i j : Fin 32) (x : Slot) :
    (r.setSlot i x).slot j = if j = i then x else r.slot j := by
  by_cases h : j = i
  · subst h
    simp
  · have hne : i.val ≠ j.val := fun e => h (Fin.ext e.symm)
    simp [PortRec.slot, PortRec.setSlot, h, Vector.getElem_set_ne, hne]

theorem PortRec.setSlot_slot (r : PortRec) (j : Fin 32) : r.setSlot j (r.slot j) = r := by
  simp [PortRec.slot, PortRec.setSlot]

/-- A slot after its pending change was applied (R147). -/
def settledSlot (x : Slot) : Slot :=
  match x.pending with
  | none => x
  | some (.bind dir n _) => { current := some (dir, n), pending := none }
  | some (.unbind _) => Slot.free

theorem settledSlot_of_none {x : Slot} (h : x.pending = none) : settledSlot x = x := by simp only [settledSlot, h]

theorem settledSlot_pending (x : Slot) : (settledSlot x).pending = none := by
  unfold settledSlot
  split
  · assumption
  · rfl
  · rfl

/-! ### One slot's take, append and change -/

section

variable {s : State} {p k : PortId} {frame : Word} {j : Fin 32}

theorem takeSlot_of_bound {n : Fin 48} (h : slotStream (s.port p) .tx j = some n) :
    takeSlot p frame j s = (portTake n frame s).setPort p ((s.port p).setTx j (some (takeSample s n))) := by
  simp only [takeSlot, h, (portTake_changes n frame s).port rfl]

theorem takeSlot_of_unbound (h : slotStream (s.port p) .tx j = none) :
    takeSlot p frame j s = s.setPort p ((s.port p).setTx j none) := by
  simp only [takeSlot, h]

theorem takeSlot_port_self : (takeSlot p frame j s).port p =
    (s.port p).setTx j ((slotStream (s.port p) .tx j).map (takeSample s)) := by
  cases h : slotStream (s.port p) .tx j with
  | none => rw [takeSlot_of_unbound h, State.port_setPort_self, Option.map_none]
  | some n => rw [takeSlot_of_bound h, State.port_setPort_self, Option.map_some]

theorem takeSlot_port_ne (hk : k ≠ p) : (takeSlot p frame j s).port k = s.port k := by
  cases h : slotStream (s.port p) .tx j with
  | none => rw [takeSlot_of_unbound h, State.port_setPort_ne _ _ hk]
  | some n => rw [takeSlot_of_bound h, State.port_setPort_ne _ _ hk, (portTake_changes n frame s).port rfl]

theorem applySlot_of_none (h : ((s.port p).slot j).pending = none) : applySlot p j s = s := by
  simp only [applySlot, h]

theorem applySlot_of_bind {dir : Dir} {n : Fin 48} {q : Fin 4} (h : ((s.port p).slot j).pending = some (.bind dir n q)) :
    applySlot p j s = setMirror n dir (some ⟨p, j, .current⟩)
      (s.setPort p ((s.port p).setSlot j { current := some (dir, n), pending := none })) := by
  simp only [applySlot, h]

theorem applySlot_of_unbind {dir : Dir} {n : Fin 48} {q : Fin 4} (h : ((s.port p).slot j).pending = some (.unbind q))
    (hc : ((s.port p).slot j).current = some (dir, n)) :
    applySlot p j s = setMirror n dir none (s.setPort p ((s.port p).setSlot j Slot.free)) := by
  simp only [applySlot, h, hc]

theorem applySlot_of_unbind_free {q : Fin 4} (h : ((s.port p).slot j).pending = some (.unbind q))
    (hc : ((s.port p).slot j).current = none) : applySlot p j s = s.setPort p ((s.port p).setSlot j Slot.free) := by
  simp only [applySlot, h, hc]

theorem applySlot_port_self : (applySlot p j s).port p = (s.port p).setSlot j (settledSlot ((s.port p).slot j)) := by
  cases h : ((s.port p).slot j).pending with
  | none => rw [applySlot_of_none h, settledSlot_of_none h, PortRec.setSlot_slot]
  | some c =>
    cases c with
    | bind dir n q => simp only [applySlot_of_bind h, setMirror_port, State.port_setPort_self, settledSlot, h]
    | unbind q =>
      cases hc : ((s.port p).slot j).current with
      | none => simp only [applySlot_of_unbind_free h hc, State.port_setPort_self, settledSlot, h]
      | some x => simp only [applySlot_of_unbind h hc, setMirror_port, State.port_setPort_self, settledSlot, h]

theorem applySlot_port_ne (hk : k ≠ p) : (applySlot p j s).port k = s.port k := by
  cases h : ((s.port p).slot j).pending with
  | none => rw [applySlot_of_none h]
  | some c =>
    cases c with
    | bind dir n q => rw [applySlot_of_bind h, setMirror_port, State.port_setPort_ne _ _ hk]
    | unbind q =>
      cases hc : ((s.port p).slot j).current with
      | none => rw [applySlot_of_unbind_free h hc, State.port_setPort_ne _ _ hk]
      | some x => rw [applySlot_of_unbind h hc, setMirror_port, State.port_setPort_ne _ _ hk]

end

/-! ### The slots in order -/

section

variable {p k : PortId} {frame : Word}

theorem takeSlots_eq_foldl (slots : List (Fin 32)) (s : State) :
    takeSlots p frame slots s = slots.foldl (fun x j => takeSlot p frame j x) s := by
  induction slots generalizing s with
  | nil => rfl
  | cons j rest ih => exact ih _

theorem appendSlots_eq_foldl (slots : List (Fin 32)) (s : State) :
    appendSlots p frame slots s = slots.foldl (fun x j => appendSlot p frame j x) s := by
  induction slots generalizing s with
  | nil => rfl
  | cons j rest ih => exact ih _

theorem applySlots_eq_foldl (slots : List (Fin 32)) (s : State) :
    applySlots p slots s = slots.foldl (fun x j => applySlot p j x) s := by
  induction slots generalizing s with
  | nil => rfl
  | cons j rest ih => exact ih _

/-- Takes change TXHOLD of their port alone. -/
theorem takeSlots_port_self (slots : List (Fin 32)) (s : State) : (takeSlots p frame slots s).port p =
    { s.port p with txhold := ((takeSlots p frame slots s).port p).txhold } := by
  induction slots generalizing s with
  | nil => rfl
  | cons j rest ih =>
    rw [takeSlots, ih, takeSlot_port_self]
    rfl

theorem takeSlots_port_ne (slots : List (Fin 32)) (s : State) (hk : k ≠ p) :
    (takeSlots p frame slots s).port k = s.port k := by
  induction slots generalizing s with
  | nil => rfl
  | cons j rest ih => rw [takeSlots, ih, takeSlot_port_ne hk]

/-- Applied changes change the slot map of their port alone. -/
theorem applySlots_port_self (slots : List (Fin 32)) (s : State) : (applySlots p slots s).port p =
    { s.port p with map := ((applySlots p slots s).port p).map } := by
  induction slots generalizing s with
  | nil => rfl
  | cons j rest ih =>
    rw [applySlots, ih, applySlot_port_self]
    rfl

theorem applySlots_port_ne (slots : List (Fin 32)) (s : State) (hk : k ≠ p) : (applySlots p slots s).port k = s.port k := by
  induction slots generalizing s with
  | nil => rfl
  | cons j rest ih => rw [applySlots, ih, applySlot_port_ne hk]

theorem applySlots_slot (slots : List (Fin 32)) (s : State) (j : Fin 32) : ((applySlots p slots s).port p).slot j =
    if j ∈ slots then settledSlot ((s.port p).slot j) else (s.port p).slot j := by
  induction slots generalizing s with
  | nil => rfl
  | cons i rest ih =>
    rw [applySlots, ih, applySlot_port_self, PortRec.slot_setSlot]
    by_cases hj : j = i
    · subst hj
      simp [settledSlot_of_none (settledSlot_pending _)]
    · simp [hj]

theorem slotIds_nodup : slotIds.Nodup := List.nodup_finRange 32

theorem mem_slotIds (j : Fin 32) : j ∈ slotIds := List.mem_finRange j

/-! ### What the takes leave in TXHOLD (R138) -/

theorem takeSample_congr {s t : State} {n : Fin 48} (hs : t.stream n = s.stream n) (hm : t.store = s.store) :
    takeSample t n = takeSample s n := by
  simp only [takeSample, hs, hm]

theorem portTake_stream_ne {n m : Fin 48} (s : State) (hm : m ≠ n) : (portTake n frame s).stream m = s.stream m := by
  by_cases h : 1 ≤ (s.stream n).fill
  · rw [portTake_of_filled h, State.stream_setStream_ne _ _ hm]
    rfl
  · rw [portTake_of_empty (by omega) rfl]
    split
    · rw [raiseEvent_stream, State.stream_setStream_ne _ _ hm]
    · rw [State.stream_setStream_ne _ _ hm]

/-- A take leaves what every other stream would give. -/
theorem takeSample_takeSlot {s : State} {i : Fin 32} {m : Fin 48} (hm : slotStream (s.port p) .tx i ≠ some m) :
    takeSample (takeSlot p frame i s) m = takeSample s m := by
  have hstore : (takeSlot p frame i s).store = s.store := (takeSlot_changes p frame i s).store rfl
  refine takeSample_congr ?_ hstore
  cases h : slotStream (s.port p) .tx i with
  | none => rw [takeSlot_of_unbound h, State.stream_setPort]
  | some n =>
    rw [takeSlot_of_bound h, State.stream_setPort, portTake_stream_ne]
    rintro rfl
    exact hm h

theorem slotStream_takeSlot (s : State) (dir : Dir) (i j : Fin 32) :
    slotStream ((takeSlot p frame i s).port p) dir j = slotStream (s.port p) dir j := by
  rw [takeSlot_port_self]
  exact slotStream_congr rfl rfl dir j

/-- Where no stream stands in two transmit slots, each slot of the list holds the sample its stream gave. -/
theorem takeSlots_txhold {slots : List (Fin 32)} (hnd : slots.Nodup) (s : State)
    (hone : ∀ i k n, slotStream (s.port p) .tx i = some n → slotStream (s.port p) .tx k = some n → i = k) (j : Fin 32) :
    ((takeSlots p frame slots s).port p).txhold[j.val] =
      if j ∈ slots then (slotStream (s.port p) .tx j).map (takeSample s) else (s.port p).txhold[j.val] := by
  induction slots generalizing s with
  | nil => rfl
  | cons i rest ih =>
    obtain ⟨hi, hrest⟩ := List.nodup_cons.mp hnd
    have hone' : ∀ i' k n, slotStream ((takeSlot p frame i s).port p) .tx i' = some n →
        slotStream ((takeSlot p frame i s).port p) .tx k = some n → i' = k := by
      intro i' k n h1 h2
      rw [slotStream_takeSlot] at h1 h2
      exact hone i' k n h1 h2
    rw [takeSlots, ih hrest _ hone', slotStream_takeSlot, takeSlot_port_self, PortRec.setTx_txhold]
    by_cases hji : j = i
    · subst hji
      simp [hi]
    · simp only [List.mem_cons, hji, false_or, if_false]
      split
      · cases hj : slotStream (s.port p) .tx j with
        | none => rfl
        | some m =>
          rw [Option.map_some, Option.map_some, takeSample_takeSlot]
          exact fun hm => hji (hone j i m hj hm)
      · rfl

/-- With no slot bound, the takes empty TXHOLD. -/
theorem takeSlots_of_unbound (slots : List (Fin 32)) (s : State) (h : ∀ j, slotStream (s.port p) .tx j = none) :
    takeSlots p frame slots s = s.setPort p { s.port p with
      txhold := slots.foldl (fun v j => v.set j.val none) (s.port p).txhold } := by
  induction slots generalizing s with
  | nil => exact (State.setPort_port s p).symm
  | cons j rest ih =>
    have hnext : ∀ i, slotStream ((takeSlot p frame j s).port p) .tx i = none := fun i => by
      rw [slotStream_takeSlot, h]
    rw [takeSlots, ih _ hnext, takeSlot_of_unbound (h j), State.port_setPort_self, State.setPort_setPort]
    rfl

theorem foldl_set_none_getElem {v : Vector (Option Sample) 32} (slots : List (Fin 32)) {j : Nat} (hj : j < 32)
    (hmem : (⟨j, hj⟩ : Fin 32) ∈ slots ∨ v[j] = none) : (slots.foldl (fun v i => v.set i.val none) v)[j] = none := by
  induction slots generalizing v with
  | nil => simpa using hmem
  | cons i rest ih =>
    refine ih ?_
    by_cases hji : i.val = j
    · exact .inr (by subst hji; exact Vector.getElem_set_self _)
    · refine hmem.imp (fun h => (List.mem_cons.mp h).resolve_left fun he => hji (congrArg Fin.val he).symm) fun h => ?_
      rw [Vector.getElem_set_ne _ _ hji, h]

theorem foldl_set_none_slotIds (v : Vector (Option Sample) 32) :
    slotIds.foldl (fun v j => v.set j.val none) v = Vector.replicate 32 none := by
  refine Vector.ext fun j hj => ?_
  rw [foldl_set_none_getElem slotIds hj (.inl (mem_slotIds _)), Vector.getElem_replicate]

end

/-! ### The released records (R148) -/

theorem pendingQueues_eq (r : PortRec) : pendingQueues r = slotIds.filterMap (fun j => (r.slot j).pending.map (fun x => match x with
    | .bind _ _ q => q
    | .unbind q => q)) := by
  refine List.filterMap_congr fun j _ => ?_
  cases (r.slot j).pending with
  | none => rfl
  | some x => cases x <;> rfl

theorem releaseBind_of_bindSlot {s : State} {q : Fin 4} {pos : Nat} {h : Header} {p : PortId} {j : Fin 32} {action : BindAction}
    (hh : (s.queue q).head = .control pos h (.bindSlot p j action) .parked) :
    releaseBind q s = completeHead q (completion s q h .ok) s := by
  simp only [releaseBind, hh, completeParked]
  rfl

/-! ### The frame event (R138) -/

section

variable {s : State} {p : PortId} {mark : Bool}

theorem exec_frameEvent_of_due (ha : awake s) (hd : (s.port p).due = some (.frame mark)) :
    exec (.frameEvent p) s = .next (frameEvent p mark s) := by
  simp only [exec, execFrameEvent, taken_eq ha, hd]

/-- The state of a frame event after its takes, appends and changes. -/
def frameSettled (p : PortId) (s : State) : State :=
  applySlots p slotIds (appendSlots p (s.port p).fcount slotIds (takeSlots p (s.port p).fcount slotIds s))

theorem frameSettled_fcount : ((frameSettled p s).port p).fcount = (s.port p).fcount := by
  rw [frameSettled, applySlots_port_self]
  dsimp only
  rw [(appendSlots_changes ..).port rfl, takeSlots_port_self]

theorem frameEvent_eq (p : PortId) (mark : Bool) (s : State) : frameEvent p mark s = releaseParked (pendingQueues (s.port p))
    ((frameSettled p s).setPort p (shiftBit { (frameSettled p s).port p with
      fcount := (s.port p).fcount + 1, miss := !mark, due := none })) := by
  rw [← frameSettled_fcount]
  rfl

/-- A port without bindings moves on its counter and its bit alone. -/
theorem frameSettled_of_free (hfree : ∀ j : Fin 32, (s.port p).slot j = Slot.free) :
    frameSettled p s = s.setPort p { s.port p with txhold := Vector.replicate 32 none } := by
  have hnone : ∀ dir j, slotStream (s.port p) dir j = none := fun dir j => by
    simp only [slotStream, hfree j, Slot.free]
  have happend : ∀ (slots : List (Fin 32)) (f : Word) (t : State), (∀ j, slotStream (t.port p) .rx j = none) →
      appendSlots p f slots t = t := by
    intro slots f t ht
    induction slots with
    | nil => rfl
    | cons j rest ih => rw [appendSlots, appendSlot, ht j]; exact ih
  have happly : ∀ (slots : List (Fin 32)) (t : State), (∀ j, ((t.port p).slot j).pending = none) →
      applySlots p slots t = t := by
    intro slots t ht
    induction slots with
    | nil => rfl
    | cons j rest ih => rw [applySlots, applySlot_of_none (ht j), ih]
  rw [frameSettled, takeSlots_of_unbound slotIds s (hnone .tx), foldl_set_none_slotIds, happend, happly]
  · intro j
    rw [State.port_setPort_self]
    exact congrArg Slot.pending (hfree j)
  · intro j
    rw [State.port_setPort_self]
    exact (slotStream_congr rfl rfl .rx j).trans (hnone .rx j)

theorem pendingQueues_of_free {r : PortRec} (hfree : ∀ j : Fin 32, r.slot j = Slot.free) : pendingQueues r = [] := by
  rw [pendingQueues, List.filterMap_eq_nil_iff]
  exact fun j _ => by rw [hfree j]; rfl

end

/-- Settles O59: the event as its steps, a port without bindings, TXHOLD, and each slot's part. -/
theorem frameEventRule : Obligations.FrameEventRule := by
  refine ⟨fun s t p mark ha hd ht => ?event, fun s p mark ha hd hfree => ?free, fun s p frame j hone => ?txhold,
    List.map_coe_finRange_eq_range, fun p frame slots s => ⟨takeSlots_eq_foldl slots s, appendSlots_eq_foldl slots s,
      applySlots_eq_foldl slots s⟩, slotStream_eq_some_iff, fun s p frame j => ⟨fun n h => takeSlot_of_bound h,
      takeSlot_of_unbound⟩, fun s p frame j => rfl, fun s p j dir n q => ⟨fun h => ?same, fun h => ?bound, fun h => ?unbound⟩,
    pendingQueues_eq, fun s q rest pos h p j action => ⟨rfl, fun hh => by rw [releaseParked, releaseBind_of_bindSlot hh]⟩⟩
  case event =>
    rw [exec_frameEvent_of_due ha hd, frameEvent_eq, ht]
    rfl
  case free =>
    rw [exec_frameEvent_of_due ha hd, frameEvent_eq, frameSettled_of_free hfree, pendingQueues_of_free hfree,
      State.port_setPort_self, State.setPort_setPort]
    rfl
  case txhold =>
    rw [takeSlots_txhold slotIds_nodup s hone, if_pos (mem_slotIds j)]
  case same => exact applySlot_of_none (by rw [h])
  case bound => exact applySlot_of_bind (by rw [h])
  case unbound =>
    rw [applySlot_of_unbind (q := q) (dir := dir) (n := n) (by rw [h]) (by rw [h])]
    rfl

end Sys2Proof.Machine
end

section
/-! SUPPORT. The port's record after each line event and after a bit clock (R128 to R136, R139, R140). -/

namespace Sys2Proof.Machine

open Sys2Proof

/-! ### The bit that goes in and the bit that comes out (R139, R140) -/

theorem shiftBit_eq (r : PortRec) : shiftBit r = { r with rxword := (shiftBit r).rxword } := by
  unfold shiftBit
  split <;> rfl

theorem shiftIn_eq (x : Sample) (b : Bool) : shiftIn x b = x.extractLsb' 0 15 ++ BitVec.ofBool b := by
  refine BitVec.eq_of_getLsbD_eq fun i hi => ?_
  rw [shiftIn, BitVec.getLsbD_or, BitVec.getLsbD_shiftLeft, BitVec.getLsbD_append]
  cases i with
  | zero => cases b <;> rfl
  | succ i =>
    have hbit : (if b then 1#16 else 0#16).getLsbD (i + 1) = false := by
      cases b
      · exact BitVec.getLsbD_zero
      · simp [BitVec.getLsbD_one]
    have hi15 : i < 15 := by omega
    rw [hbit]
    simp [hi, hi15]

section

variable {r : PortRec} {j : Fin 32}

theorem shiftBit_of_slot (h : r.bitpos / 16 = j.val) :
    shiftBit r = { r with rxword := r.rxword.set j.val ((r.rxword[j.val]).extractLsb' 0 15 ++ BitVec.ofBool r.din) } := by
  obtain ⟨j, hj⟩ := j
  subst h
  simp only [shiftBit, dif_pos hj, shiftIn_eq]

theorem portDout_of_slot (hl : r.lock = .locked) (h : r.bitpos / 16 = j.val) :
    portDout r = (r.txhold[j.val]).map (fun x => x.getLsbD (15 - r.bitpos % 16)) := by
  obtain ⟨j, hj⟩ := j
  subst h
  have hbit : ∀ x : Sample, x.getMsbD (r.bitpos % 16) = x.getLsbD (15 - r.bitpos % 16) := fun x => by
    rw [BitVec.getMsbD, decide_eq_true (Nat.mod_lt _ (by omega)), Bool.true_and]
  simp only [portDout, if_pos hl, dif_pos hj, hbit]

end

/-! ### A port's record after a line event (R133 to R138) -/

section

variable {s : State} {p k : PortId}

theorem huntMark_port_self : (huntMark p s).port p = { s.port p with candidate := some 0, due := none } :=
  State.port_setPort_self ..

theorem dropCandidate_port_self : (dropCandidate p s).port p = { s.port p with candidate := none, due := none } :=
  State.port_setPort_self ..

theorem frameEvent_port_self (mark : Bool) : (frameEvent p mark s).port p = shiftBit { (frameSettled p s).port p with
    fcount := (s.port p).fcount + 1, miss := !mark, due := none } := by
  rw [frameEvent_eq, (releaseParked_changes ..).port rfl, State.port_setPort_self]

theorem lockEvent_port_self : (lockEvent p s).port p = shiftBit { s.port p with
    lock := .locked, bitpos := 0, miss := false, candidate := none, due := none
    txhold := ((takeSlots p (s.port p).fcount slotIds (s.setPort p { s.port p with
      lock := .locked, bitpos := 0, miss := false, candidate := none, due := none })).port p).txhold } := by
  rw [lockEvent]
  dsimp only
  rw [(raiseEvent_changes ..).port rfl, State.port_setPort_self, takeSlots_port_self, State.port_setPort_self]

theorem lossEvent_port_self (reason : LossReason) : ((lossEvent p reason s).port p) = { s.port p with
    lock := .hunting, miss := false, candidate := if reason = .misplaced then some 0 else none
    txhold := Vector.replicate 32 none, due := none, map := ((lossEvent p reason s).port p).map } := by
  have h : ∃ m, (lossEvent p reason s).port p = { s.port p with
      lock := .hunting, miss := false, candidate := if reason = .misplaced then some 0 else none
      txhold := Vector.replicate 32 none, due := none, map := m } := by
    rw [lossEvent]
    dsimp only
    rw [(releaseParked_changes ..).port rfl, applySlots_port_self, raiseEvent_port, State.port_setPort_self]
    exact ⟨_, rfl⟩
  obtain ⟨m, hm⟩ := h
  rw [hm]

theorem takeLineEvent_due (d : LineDue) : ((takeLineEvent p d s).port p).due = none := by
  cases d with
  | frame mark => exact (congrArg PortRec.due ((frameEvent_port_self mark).trans (shiftBit_eq _)))
  | huntMark => exact congrArg PortRec.due huntMark_port_self
  | drop => exact congrArg PortRec.due dropCandidate_port_self
  | lock => exact congrArg PortRec.due (lockEvent_port_self.trans (shiftBit_eq _))
  | loss reason => exact congrArg PortRec.due (lossEvent_port_self reason)

theorem takeDue_of_due {d : LineDue} (h : (s.port p).due = some d) : takeDue p s = takeLineEvent p d s := by
  simp only [takeDue, h]

theorem takeDue_of_none (h : (s.port p).due = none) : takeDue p s = s := by
  simp only [takeDue, h]

theorem takeLineEvent_eng (d : LineDue) : (takeLineEvent p d s).eng = s.eng := by
  cases d <;> simp [takeLineEvent]

theorem exec_bitClock_of_none {din sync : Bool} (ha : awake s) (h : (s.port p).due = none) :
    exec (.bitClock p din sync) s = .next (s.setPort p (clockPort din sync (s.port p))) := by
  simp only [exec, execBitClock, taken_eq ha, bitClock, takeDue_of_none h]

/-- A bit clock takes the event that is due, and then acts as where none is (R128, log 6). -/
theorem exec_bitClock_of_due {din sync : Bool} {d : LineDue} (ha : awake s) (h : (s.port p).due = some d) :
    exec (.bitClock p din sync) s = exec (.bitClock p din sync) (takeLineEvent p d s) := by
  have ht : awake (takeLineEvent p d s) := (congrArg Engine.inReset (takeLineEvent_eng d)).trans ha
  rw [exec_bitClock_of_none ht (takeLineEvent_due d)]
  simp only [exec, execBitClock, taken_eq ha, bitClock, takeDue_of_due h]

/-! ### The commands of the line events -/

theorem exec_huntSyncMark_of_due (ha : awake s) (h : (s.port p).due = some .huntMark) :
    exec (.huntSyncMark p) s = .next (huntMark p s) := by
  simp only [exec, execHuntSyncMark, taken_eq ha, h]

theorem exec_candidateDrop_of_due (ha : awake s) (h : (s.port p).due = some .drop) :
    exec (.candidateDrop p) s = .next (dropCandidate p s) := by
  simp only [exec, execCandidateDrop, taken_eq ha, h]

theorem exec_lockEvent_of_due (ha : awake s) (h : (s.port p).due = some .lock) :
    exec (.lockEvent p) s = .next (lockEvent p s) := by
  simp only [exec, execLockEvent, taken_eq ha, h]

theorem exec_lossEvent_of_due {reason : LossReason} (ha : awake s) (h : (s.port p).due = some (.loss reason)) :
    exec (.lossEvent p) s = .next (lossEvent p reason s) := by
  simp only [exec, execLossEvent, taken_eq ha, h]

end

/-! ### A port's record after a bit clock (R128, R133, R135) -/

section

variable {r : PortRec} {din sync : Bool}

theorem clockPort_of_off (h : r.lock = .off) : clockPort din sync r = r := by simp only [clockPort, h]

theorem clockPort_of_hunting (h : r.lock = .hunting) : clockPort din sync r = huntingClock din sync r := by
  simp only [clockPort, h]

theorem clockPort_of_master (h : r.lock = .locked) (hm : r.mode = .master) : clockPort din sync r = masterClock din r := by
  simp only [clockPort, h, if_pos hm]

theorem clockPort_of_follower (h : r.lock = .locked) (hm : r.mode ≠ .master) :
    clockPort din sync r = followerClock din sync r := by
  simp only [clockPort, h, if_neg hm]

theorem withDue_none (h : r.due = none) : withDue r none = shiftBit r := by
  rw [withDue, shiftBit_eq, ← h]

theorem nextBit_of_lt (h : r.bitpos + 1 < frameBits r) : nextBit r = r.bitpos + 1 := if_pos h

theorem nextBit_of_le (h : frameBits r ≤ r.bitpos + 1) : nextBit r = 0 := if_neg (by omega)

theorem masterClock_opening (h : r.opening = true) : masterClock din r = shiftBit { r with din := din, opening := false } :=
  if_pos h

theorem masterClock_within (h : r.opening = false) (hd : r.due = none) (hb : r.bitpos + 1 < frameBits r) :
    masterClock din r = shiftBit { r with din := din, bitpos := r.bitpos + 1 } := by
  have hne : r.bitpos + 1 ≠ 0 := Nat.succ_ne_zero _
  simp only [masterClock, h, nextBit_of_lt hb, if_neg hne, Bool.false_eq_true, if_false]
  exact withDue_none hd

theorem masterClock_boundary (h : r.opening = false) (hb : frameBits r ≤ r.bitpos + 1) :
    masterClock din r = { r with din := din, bitpos := 0, due := some (.frame true) } := by
  simp only [masterClock, h, nextBit_of_le hb, Bool.false_eq_true, if_false, if_true]
  rfl

theorem followerClock_within (hd : r.due = none) (hb : r.bitpos + 1 < frameBits r) (hm : syncMark r sync = false) :
    followerClock din sync r = shiftBit { r with sync := sync, din := din, bitpos := r.bitpos + 1 } := by
  have hne : r.bitpos + 1 ≠ 0 := Nat.succ_ne_zero _
  simp only [followerClock, lockedDue, nextBit_of_lt hb, hm, if_neg hne, Bool.false_eq_true, if_false]
  exact withDue_none hd

theorem followerClock_misplaced (hb : r.bitpos + 1 < frameBits r) (hm : syncMark r sync = true) :
    followerClock din sync r =
      { r with sync := sync, din := din, bitpos := r.bitpos + 1, due := some (.loss .misplaced) } := by
  have hne : r.bitpos + 1 ≠ 0 := Nat.succ_ne_zero _
  simp only [followerClock, lockedDue, nextBit_of_lt hb, hm, if_neg hne, if_true]
  rfl

/-- What is due at the boundary of a LOCKED follower's frame (R135, R136). -/
def boundaryDue (r : PortRec) (mark : Bool) : LineDue :=
  if mark = true then .frame true else if r.miss = true then .loss .missing else .frame false

theorem some_boundaryDue (r : PortRec) (mark : Bool) : some (boundaryDue r mark) =
    if mark = true then some (.frame true) else if r.miss = true then some (.loss .missing) else some (.frame false) := by
  unfold boundaryDue
  cases mark <;> cases r.miss <;> rfl

theorem followerClock_boundary (hb : frameBits r ≤ r.bitpos + 1) :
    followerClock din sync r =
      { r with sync := sync, din := din, bitpos := 0, due := some (boundaryDue r (syncMark r sync)) } := by
  simp only [followerClock, lockedDue, nextBit_of_le hb, if_true, boundaryDue]
  cases syncMark r sync <;> cases r.miss <;> rfl

end

/-- Settles O60: the line events, the event a bit clock finds still due, the bit clock by lock state, and the pins. -/
theorem lineEventsRule : Obligations.LineEventsRule := by
  refine ⟨?events, fun s t p din sync d ha hd ht => ht ▸ exec_bitClock_of_due ha hd, ?command, ?clock,
    fun r => ⟨decide_eq_true_iff, fun h => if_pos h, fun h => if_neg h⟩,
    fun r j hj => ⟨shiftBit_of_slot hj, fun hl => if_neg hl, fun hl => portDout_of_slot hl hj⟩⟩
  case events =>
    rintro s p r ha rfl
    refine ⟨fun hd => exec_huntSyncMark_of_due ha hd, fun hd => exec_candidateDrop_of_due ha hd, fun hd u hu => ?_,
      fun reason hd => ?_⟩
    · rw [exec_lockEvent_of_due ha hd, hu]
      rfl
    · rw [exec_lossEvent_of_due ha hd]
      cases reason <;> rfl
  case command =>
    intro s p d ha hd
    cases d with
    | frame mark => exact (exec_frameEvent_of_due ha hd).symm
    | huntMark => exact (exec_huntSyncMark_of_due ha hd).symm
    | drop => exact (exec_candidateDrop_of_due ha hd).symm
    | lock => exact (exec_lockEvent_of_due ha hd).symm
    | loss reason => exact (exec_lossEvent_of_due ha hd).symm
  case clock =>
    rintro s p din sync r r' mark ha rfl hd rfl
    rw [exec_bitClock_of_none ha hd]
    refine ⟨fun hl => ?off, fun hl hr' => ?hunting, fun hl hm => ?master, fun hl hm hr' => ?follower⟩
    case off => rw [clockPort_of_off hl, State.setPort_port]
    case hunting =>
      rw [clockPort_of_hunting hl, hr']
      rfl
    case master =>
      rw [clockPort_of_master hl hm]
      exact ⟨fun ho => by rw [masterClock_opening ho], fun ho hb => by rw [masterClock_within ho hd hb],
        fun ho hb => by rw [masterClock_boundary ho hb]⟩
    case follower =>
      rw [clockPort_of_follower hl hm, hr']
      refine ⟨fun hb hmark => by rw [followerClock_within hd hb hmark],
        fun hb hmark => by rw [followerClock_misplaced hb hmark], fun hb => ?_⟩
      rw [followerClock_boundary hb, some_boundaryDue]
      rfl

end Sys2Proof.Machine
end

section
/-! SUPPORT. What each command leaves of a port's laws and of its frame counter (R129 to R149). -/

namespace Sys2Proof.Machine

open Sys2Proof

/-! ### Control records at a port (R144 to R149) -/

/-- The change a BIND_SLOT record holds while it waits (R142). -/
def pendingOf (q : Fin 4) : BindAction → PendingChange
  | .bind dir n => .bind dir n q
  | .unbind => .unbind q

/-- From `r` to `r'` only the slot map changes, and a changed slot was in use or is a slot of the port; a pending change
appears only on a LOCKED port. -/
structure MapMoves (r r' : PortRec) : Prop where
  rest : r' = { r with map := r'.map }
  slot : ∀ i : Fin 32, r'.slot i = r.slot i ∨
    (r.slot i ≠ Slot.free ∨ (r.lock ≠ .off ∧ i.val < r.slots)) ∧ ((r'.slot i).pending = none ∨ r.lock = .locked)

theorem MapMoves.refl (r : PortRec) : MapMoves r r := ⟨rfl, fun _ => .inl rfl⟩

theorem mapMoves_of_eq {r r' : PortRec} (h : r' = r) : MapMoves r r' := h ▸ MapMoves.refl r

theorem mapMoves_setSlot {r : PortRec} {j : Fin 32} {x : Slot}
    (hfrom : r.slot j ≠ Slot.free ∨ (r.lock ≠ .off ∧ j.val < r.slots)) (hto : x.pending = none ∨ r.lock = .locked) :
    MapMoves r (r.setSlot j x) := by
  refine ⟨rfl, fun i => ?_⟩
  rw [PortRec.slot_setSlot]
  by_cases hij : i = j
  · subst hij
    rw [if_pos rfl]
    exact .inr ⟨hfrom, hto⟩
  · rw [if_neg hij]
    exact .inl rfl

section

variable {s : State} {p k : PortId} {j : Fin 32} {q : Fin 4} {action : BindAction}

theorem withdrawSlot_port_self :
    (withdrawSlot p j s).port p = (s.port p).setSlot j { (s.port p).slot j with pending := none } := by
  unfold withdrawSlot
  dsimp only
  split
  case h_1 h => rw [← h, PortRec.setSlot_slot]
  case h_2 => rw [setMirror_port, State.port_setPort_self]
  case h_3 =>
    split
    · rw [setMirror_port, State.port_setPort_self]
    · rw [State.port_setPort_self]

theorem withdrawSlot_port_ne (hk : k ≠ p) : (withdrawSlot p j s).port k = s.port k := by
  unfold withdrawSlot
  dsimp only
  split
  · rfl
  · rw [setMirror_port, State.port_setPort_ne _ _ hk]
  · split
    · rw [setMirror_port, State.port_setPort_ne _ _ hk]
    · rw [State.port_setPort_ne _ _ hk]

theorem recordPending_port_self : (recordPending p j action q s).port p =
    (s.port p).setSlot j { (s.port p).slot j with pending := some (pendingOf q action) } := by
  unfold recordPending
  dsimp only
  split
  · rw [setMirror_port, State.port_setPort_self]
    rfl
  · split
    · rw [setMirror_port, State.port_setPort_self]
      rfl
    · rw [State.port_setPort_self]
      rfl

theorem recordPending_port_ne (hk : k ≠ p) : (recordPending p j action q s).port k = s.port k := by
  unfold recordPending
  dsimp only
  split
  · rw [setMirror_port, State.port_setPort_ne _ _ hk]
  · split
    · rw [setMirror_port, State.port_setPort_ne _ _ hk]
    · rw [State.port_setPort_ne _ _ hk]

theorem applyNow_port_self : (applyNow p j action q s).port p =
    (s.port p).setSlot j (settledSlot { (s.port p).slot j with pending := some (pendingOf q action) }) := by
  rw [applyNow, applySlot_port_self, recordPending_port_self, PortRec.slot_setSlot_self, PortRec.setSlot_setSlot]

theorem applyNow_port_ne (hk : k ≠ p) : (applyNow p j action q s).port k = s.port k := by
  rw [applyNow, applySlot_port_ne hk, recordPending_port_ne hk]

theorem slot_of_bindStatus_ok (h : bindStatus s p j action = .ok) : (s.port p).lock ≠ .off ∧ j.val < (s.port p).slots := by
  by_cases hl : (s.port p).lock = .off
  · rw [bindStatus_of_off hl] at h
    cases h
  · by_cases hj : (s.port p).slots ≤ j.val
    · rw [bindStatus_of_no_slot hl hj] at h
      cases h
    · exact ⟨hl, Nat.not_le.mp hj⟩

theorem withdrawSlot_mapMoves : MapMoves (s.port k) ((withdrawSlot p j s).port k) := by
  by_cases hk : k = p
  · subst hk
    by_cases hfree : (s.port k).slot j = Slot.free
    · refine mapMoves_of_eq ?_
      rw [withdrawSlot_port_self, hfree, show ({ Slot.free with pending := none } : Slot) = (s.port k).slot j from hfree.symm,
        PortRec.setSlot_slot]
    · rw [withdrawSlot_port_self]
      exact mapMoves_setSlot (.inl hfree) (.inl rfl)
  · exact mapMoves_of_eq (withdrawSlot_port_ne hk)

theorem execBind_mapMoves : MapMoves (s.port k) ((execBind q p j action s).port k) := by
  unfold execBind
  split
  case h_1 hok =>
    obtain ⟨hl, hj⟩ := slot_of_bindStatus_ok hok
    split
    case isTrue hlock =>
      rw [(parkControl_changes ..).port rfl]
      by_cases hk : k = p
      · subst hk
        rw [recordPending_port_self]
        exact mapMoves_setSlot (.inr ⟨hl, hj⟩) (.inr hlock)
      · exact mapMoves_of_eq (recordPending_port_ne hk)
    case isFalse =>
      rw [(finishControl_changes ..).port rfl]
      by_cases hk : k = p
      · subst hk
        rw [applyNow_port_self]
        exact mapMoves_setSlot (.inr ⟨hl, hj⟩) (.inl (settledSlot_pending _))
      · exact mapMoves_of_eq (applyNow_port_ne hk)
  case h_2 => exact mapMoves_of_eq ((finishControl_changes ..).port rfl k)

theorem abortParked_mapMoves (t : Fin 4) (body : ControlRec) : MapMoves (s.port k) ((abortParked t body s).port k) := by
  have hdone : ∀ u : State, MapMoves (s.port k) (u.port k) →
      MapMoves (s.port k) ((completeControl t .aborted 0 .none false u).port k) := fun u h => by
    rwa [(completeControl_changes ..).port rfl]
  refine hdone _ ?_
  split
  · exact withdrawSlot_mapMoves
  · refine mapMoves_of_eq ?_
    rw [(retryJobPlace_changes _).port rfl]
    exact (withdrawWaiter_changes t s).port rfl k
  · exact MapMoves.refl _

theorem abortTarget_mapMoves (t : Fin 4) : MapMoves (s.port k) ((abortTarget q t s).port k) := by
  have hfin : ∀ (st : Status) (u : State), MapMoves (s.port k) (u.port k) →
      MapMoves (s.port k) ((finishControl q st 0 .none false u).port k) := fun st u h => by
    rwa [(finishControl_changes ..).port rfl]
  unfold abortTarget
  split
  · split
    · exact hfin _ _ (mapMoves_of_eq ((completeJob_changes ..).port rfl k))
    · exact hfin _ _ (mapMoves_of_eq ((completeJob_changes ..).port rfl k))
    · refine hfin _ _ (mapMoves_of_eq ?_)
      rw [abortStarting, (failStart_changes ..).port rfl]
      exact (withdrawWaiter_changes t s).port rfl k
    · exact mapMoves_of_eq (by cases k <;> rfl)
  · split
    · exact hfin _ _ (mapMoves_of_eq ((completeControl_changes ..).port rfl k))
    · exact hfin _ _ (abortParked_mapMoves t _)
    · exact hfin _ _ (MapMoves.refl _)
  · exact hfin _ _ (MapMoves.refl _)

/-- A control record changes the slot maps alone. -/
theorem executeControl_mapMoves (body : ControlRec) : MapMoves (s.port k) ((executeControl q body s).port k) := by
  cases body with
  | defineStream n base length hist producer consumer policy idle => exact mapMoves_of_eq ((execDefine_changes ..).port rfl k)
  | retireStream n => exact mapMoves_of_eq ((execRetire_changes ..).port rfl k)
  | readStream n addr rearm => exact mapMoves_of_eq ((execRead_changes ..).port rfl k)
  | bindSlot p j action => exact execBind_mapMoves
  | chainControl action addr => exact mapMoves_of_eq ((chainControl_changes ..).port rfl k)
  | clearContext c => exact mapMoves_of_eq ((execClearContext_changes ..).port rfl k)
  | abort t tag =>
    rw [executeControl, execAbort]
    split
    · exact abortTarget_mapMoves t
    · exact mapMoves_of_eq ((finishControl_changes ..).port rfl k)
  | marker => exact mapMoves_of_eq ((finishControl_changes ..).port rfl k)

end

theorem exec_controlSelect_mapMoves (s : State) (k : PortId) :
    Answers (fun t => MapMoves (s.port k) (t.port k)) (exec .controlSelect s) := by
  refine answers_taken (MapMoves.refl _) ?_
  split
  · split
    · unfold selectAndExecute
      split
      · rename_i q _ _ pos h body _ _
        have hport : (State.setHead { s with cu := { s.cu with last := q } } q (.control pos h body .executing)).port k =
            s.port k := by cases k <;> rfl
        exact hport ▸ executeControl_mapMoves body
      · exact MapMoves.refl _
    · exact MapMoves.refl _
  · exact MapMoves.refl _

/-! ### The laws of a port's record -/

section

variable {r r' : PortRec}

theorem PortSound.lock_ne_off_iff (h : PortSound r) : r.lock ≠ .off ↔ r.mode ≠ .off := not_congr h.off.symm

theorem PortSound.frameBits_pos (h : PortSound r) (hl : r.lock ≠ .off) : 0 < frameBits r := by
  have hs := h.slots.resolve_left (h.lock_ne_off_iff.mp hl)
  unfold frameBits
  omega

theorem MapMoves.portSound (hm : MapMoves r r') (h : PortSound r) : PortSound r' := by
  obtain ⟨hrest, hslot⟩ := hm
  have hsilent : ∀ i, r.lock ≠ .locked → (r'.slot i).pending = none := fun i hl => by
    obtain heq | ⟨-, hp⟩ := hslot i
    · rw [heq]
      exact (h.silent hl i).2
    · exact hp.resolve_right hl
  have hunused : ∀ i : Fin 32, r.mode = .off ∨ r.slots ≤ i.val → r'.slot i = Slot.free := fun i hi => by
    obtain heq | ⟨hne, -⟩ := hslot i
    · rw [heq]
      exact (h.unused i hi).1
    · obtain hne | ⟨hl, hlt⟩ := hne
      · exact absurd (h.unused i hi).1 hne
      · exact (hi.elim (h.lock_ne_off_iff.mp hl) (Nat.not_le.mpr hlt)).elim
  rw [hrest]
  exact { h with
    silent := fun hl i => ⟨(h.silent hl i).1, hsilent i hl⟩
    unused := fun i hi => ⟨hunused i hi, (h.unused i hi).2⟩ }

/-- The received words are no matter of the laws. -/
theorem portSound_shiftBit (h : PortSound r) : PortSound (shiftBit r) := by
  rw [shiftBit_eq]
  exact { h with }

/-! ### The laws after a bit clock (R128, R133, R135) -/

theorem portSound_huntingClock (h : PortSound r) (hl : r.lock = .hunting) (hd : r.due = none) (din sync : Bool) :
    PortSound (huntingClock din sync r) := by
  have hmaster : r.mode ≠ .master := fun hm => by
    rw [(h.master hm).1] at hl
    cases hl
  have hcand : ∀ c, r.candidate.map (· + 1) = some c → c ≤ frameBits r := fun c hc => by
    obtain ⟨c', hc', rfl⟩ := Option.map_eq_some_iff.mp hc
    obtain ⟨-, hlt | ⟨-, hdue | hdue⟩⟩ := h.candidate c' hc'
    · exact hlt
    · rw [hd] at hdue
      cases hdue
    · rw [hd] at hdue
      cases hdue
  refine { h with
    candidate := fun c hc => ⟨hl, (Nat.lt_or_eq_of_le (hcand c hc)).imp_right fun heq => ⟨heq, ?_⟩⟩
    opening := fun ho => absurd (h.opening ho).1 hmaster
    due := ?_ }
  · have hc' : r.candidate.map (· + 1) = some (frameBits r) := heq ▸ hc
    cases hm : syncMark r sync
    · exact .inr (by simp [huntingClock, huntingDue, hm, frameBits] at hc' ⊢; exact hc')
    · exact .inl (by simp [huntingClock, huntingDue, hm, frameBits] at hc' ⊢; exact hc')
  · change dueSound { r with sync := sync, din := din, candidate := r.candidate.map (· + 1), due := _ }
    unfold huntingDue
    split
    · split <;> exact hl
    · split
      · exact hl
      · trivial

theorem portSound_masterClock (h : PortSound r) (hl : r.lock = .locked) (hd : r.due = none) (din : Bool)
     : PortSound (masterClock din r) := by
  cases ho : r.opening with
  | true =>
    rw [masterClock_opening ho]
    exact portSound_shiftBit { h with opening := nofun }
  | false =>
    have hno : r.opening ≠ true := fun h => by rw [ho] at h; cases h
    by_cases hb : r.bitpos + 1 < frameBits r
    · rw [masterClock_within ho hd hb]
      exact portSound_shiftBit { h with bitpos := fun _ => hb, opening := fun h => absurd h hno }
    · rw [masterClock_boundary ho (Nat.not_lt.mp hb)]
      exact { h with
        bitpos := fun _ => h.frameBits_pos (by rw [hl]; nofun)
        candidate := fun c hc => absurd (hl.symm.trans (h.candidate c hc).1) nofun
        opening := fun h => absurd h hno
        due := ⟨hl, fun _ => rfl⟩ }

theorem portSound_followerClock (h : PortSound r) (hl : r.lock = .locked) (hm : r.mode ≠ .master) (hd : r.due = none)
    (din sync : Bool) : PortSound (followerClock din sync r) := by
  have hcand : r.candidate = none := Option.eq_none_iff_forall_ne_some.mpr fun c hc =>
    absurd (hl.symm.trans (h.candidate c hc).1) nofun
  have hopen : r.opening ≠ true := fun ho => hm (h.opening ho).1
  have hfollower : r.mode = .follower := by
    have hoff : r.mode ≠ .off := h.lock_ne_off_iff.mp (by rw [hl]; nofun)
    cases hr : r.mode with
    | off => exact absurd hr hoff
    | master => exact absurd hr hm
    | follower => rfl
  by_cases hb : r.bitpos + 1 < frameBits r
  · cases hmark : syncMark r sync with
    | false =>
      rw [followerClock_within hd hb hmark]
      exact portSound_shiftBit { h with bitpos := fun _ => hb, opening := fun h => absurd h hopen }
    | true =>
      rw [followerClock_misplaced hb hmark]
      exact { h with
        bitpos := fun _ => hb
        candidate := fun c hc => by rw [hcand] at hc; cases hc
        opening := fun h => absurd h hopen
        due := ⟨hl, hfollower⟩ }
  · rw [followerClock_boundary (Nat.not_lt.mp hb)]
    refine { h with
      bitpos := fun _ => h.frameBits_pos (by rw [hl]; nofun)
      candidate := fun c hc => by rw [hcand] at hc; cases hc
      opening := fun h => absurd h hopen
      due := ?_ }
    unfold boundaryDue
    split
    · exact ⟨hl, fun _ => rfl⟩
    · split
      · exact ⟨hl, hfollower⟩
      · exact ⟨hl, fun hmaster => absurd hmaster hm⟩

theorem portSound_clockPort (h : PortSound r) (hd : r.due = none) (din sync : Bool) : PortSound (clockPort din sync r) := by
  cases hl : r.lock with
  | off => rwa [clockPort_of_off hl]
  | hunting =>
    rw [clockPort_of_hunting hl]
    exact portSound_huntingClock h hl hd din sync
  | locked =>
    by_cases hm : r.mode = .master
    · rw [clockPort_of_master hl hm]
      exact portSound_masterClock h hl hd din
    · rw [clockPort_of_follower hl hm]
      exact portSound_followerClock h hl hm hd din sync

/-! ### The laws after setup (R132, R173, R175) -/

theorem portSound_loadedPort (x : SetupPort) (hx : x.mode = 0 ∨ 2 ≤ x.slots ∧ x.slots ≤ 32) : PortSound (loadedPort x r) := by
  have hreset : ∀ sync, PortSound { PortRec.reset with sync := sync } := fun sync => { portSound_reset with }
  unfold loadedPort
  split
  case h_1 hmode =>
    have hs : 2 ≤ x.slots ∧ x.slots ≤ 32 := hx.resolve_left (by rw [hmode]; nofun)
    have hpos : 0 < 16 * x.slots := by omega
    exact { hreset r.sync with
      off := ⟨nofun, nofun⟩
      master := fun _ => ⟨rfl, rfl⟩
      slots := .inr hs
      bitpos := fun _ => hpos
      silent := fun h => absurd rfl h
      unused := fun j _ => portSound_reset.unused j (.inl rfl)
      candidate := nofun
      opening := fun _ => ⟨rfl, rfl, rfl⟩ }
  case h_2 hmode =>
    have hs : 2 ≤ x.slots ∧ x.slots ≤ 32 := hx.resolve_left (by rw [hmode]; nofun)
    exact { hreset r.sync with
      off := ⟨nofun, nofun⟩
      master := nofun
      slots := .inr hs
      bitpos := nofun
      silent := fun _ j => ⟨txhold_reset j, congrArg Slot.pending (slot_reset j)⟩
      unused := fun j _ => portSound_reset.unused j (.inl rfl)
      candidate := nofun
      opening := nofun }
  case h_3 => exact hreset r.sync

end

/-- The slot counts that setup accepts (R173 check 10). -/
theorem slots_of_setupChecks {r : SetupRec} (h : (setupChecks r).find? (fun c => !c.ok) = none) (p : Fin 2) :
    r.ports[p.val].mode = 0 ∨ 2 ≤ r.ports[p.val].slots ∧ r.ports[p.val].slots ≤ 32 := by
  have hmem : ∀ c ∈ portChecks r p, c ∈ setupChecks r := fun c hc => by
    simp only [setupChecks, List.mem_append]
    fin_cases p
    · exact .inl (.inl (.inr hc))
    · exact .inl (.inr hc)
  have hok : ∀ c ∈ portChecks r p, c.ok = true := fun c hc => by
    simpa using (List.find?_eq_none.mp h) c (hmem c hc)
  rw [portChecks_eq] at hok
  exact of_decide_eq_true (hok _ (List.mem_cons_of_mem _ List.mem_cons_self))

/-! ### The laws after a line event (R133 to R138) -/

section

variable {s : State} {p k : PortId}

/-- Takes leave a slot without a transmit binding silent. -/
theorem takeSlots_txhold_none {frame : Word} (slots : List (Fin 32)) (s : State) {j : Fin 32}
    (hs : slotStream (s.port p) .tx j = none) (hj : (s.port p).txhold[j.val] = none) :
    ((takeSlots p frame slots s).port p).txhold[j.val] = none := by
  induction slots generalizing s with
  | nil => exact hj
  | cons i rest ih =>
    refine ih _ (by rwa [slotStream_takeSlot]) ?_
    rw [takeSlot_port_self, PortRec.setTx_txhold]
    split
    case isTrue hij => rw [← hij, hs, Option.map_none]
    case isFalse => exact hj

theorem slotStream_of_unused {r : PortRec} {j : Fin 32} (h : slotSilent r j) (dir : Dir) : slotStream r dir j = none := by
  simp only [slotStream, h.1, Slot.free]

theorem settledSlot_free : settledSlot Slot.free = Slot.free := rfl

theorem frameSettled_port_self (s : State) : ∃ tx m, (frameSettled p s).port p = { s.port p with txhold := tx, map := m } ∧
    (∀ j : Fin 32, slotSilent (s.port p) j → tx[j.val] = none) ∧
    ∀ j : Fin 32, ((frameSettled p s).port p).slot j = settledSlot ((s.port p).slot j) := by
  refine ⟨((takeSlots p (s.port p).fcount slotIds s).port p).txhold, ((frameSettled p s).port p).map, ?_,
    fun j hj => takeSlots_txhold_none slotIds s (slotStream_of_unused hj .tx) hj.2, fun j => ?_⟩
  · rw [frameSettled, applySlots_port_self]
    dsimp only
    rw [(appendSlots_changes ..).port rfl, takeSlots_port_self]
  · rw [frameSettled, applySlots_slot, if_pos (mem_slotIds j), (appendSlots_changes ..).port rfl, takeSlots_port_self]
    rfl

theorem portSound_frameEvent {mark : Bool} (h : PortSound (s.port p)) (hd : (s.port p).due = some (.frame mark)) :
    PortSound ((frameEvent p mark s).port p) := by
  obtain ⟨tx, m, hport, htx, hslot⟩ := frameSettled_port_self (p := p) s
  have hdue : dueSound (s.port p) := h.due
  rw [dueSound, hd] at hdue
  obtain ⟨hl, hmark⟩ := hdue
  have hopen : (s.port p).opening ≠ true := fun ho => by
    rw [(h.opening ho).2.2] at hd
    cases hd
  rw [frameEvent_port_self]
  refine portSound_shiftBit ?_
  rw [hport] at hslot ⊢
  exact { h with
    master := fun hm => ⟨hl, by rw [hmark hm]; rfl⟩
    silent := fun hne => absurd hl hne
    unused := fun j hj => ⟨(hslot j).trans ((congrArg settledSlot (h.unused j hj).1).trans settledSlot_free),
      htx j (h.unused j hj)⟩
    candidate := fun c hc => absurd (hl.symm.trans (h.candidate c hc).1) nofun
    opening := fun ho => absurd ho hopen
    due := trivial }

theorem portSound_lockEvent (h : PortSound (s.port p)) (hd : (s.port p).due = some .lock) :
    PortSound ((lockEvent p s).port p) := by
  have hl : (s.port p).lock = .hunting := by
    have hdue : dueSound (s.port p) := h.due
    rwa [dueSound, hd] at hdue
  have hoff : (s.port p).lock ≠ .off := by rw [hl]; nofun
  have hmaster : (s.port p).mode ≠ .master := fun hm => absurd (hl.symm.trans (h.master hm).1) nofun
  rw [lockEvent_port_self]
  refine portSound_shiftBit { h with
    off := ⟨fun hm => absurd hm (h.lock_ne_off_iff.mp hoff), nofun⟩
    master := fun hm => absurd hm hmaster
    bitpos := fun _ => h.frameBits_pos hoff
    silent := fun hne => absurd rfl hne
    unused := fun j hj => ⟨(h.unused j hj).1, takeSlots_txhold_none slotIds _ ?_ ?_⟩
    candidate := nofun
    opening := fun ho => absurd (h.opening ho).1 hmaster
    due := trivial }
  · rw [State.port_setPort_self]
    exact (slotStream_congr rfl rfl .tx j).trans (slotStream_of_unused (h.unused j hj) .tx)
  · rw [State.port_setPort_self]
    exact (h.unused j hj).2

theorem lossEvent_slot (reason : LossReason) (s : State) (j : Fin 32) :
    ((lossEvent p reason s).port p).slot j = settledSlot ((s.port p).slot j) := by
  rw [lossEvent, (releaseParked_changes ..).port rfl, applySlots_slot, if_pos (mem_slotIds j), raiseEvent_port, State.port_setPort_self]
  rfl

theorem portSound_lossEvent {reason : LossReason} (h : PortSound (s.port p)) (hd : (s.port p).due = some (.loss reason)) :
    PortSound ((lossEvent p reason s).port p) := by
  have hslot := lossEvent_slot (p := p) reason s
  have hdue : dueSound (s.port p) := h.due
  rw [dueSound, hd] at hdue
  obtain ⟨hl, hm⟩ := hdue
  have hoff : (s.port p).lock ≠ .off := by rw [hl]; nofun
  have hmaster : (s.port p).mode ≠ .master := by rw [hm]; nofun
  have hnone : ∀ j : Fin 32, (Vector.replicate 32 (none : Option Sample))[j.val] = none := fun j => Vector.getElem_replicate ..
  rw [lossEvent_port_self] at hslot ⊢
  exact { h with
    off := ⟨fun hmode => absurd hmode (h.lock_ne_off_iff.mp hoff), nofun⟩
    master := fun hmode => absurd hmode hmaster
    bitpos := nofun
    silent := fun _ j => ⟨hnone j, (congrArg Slot.pending (hslot j)).trans (settledSlot_pending _)⟩
    unused := fun j hj => ⟨(hslot j).trans ((congrArg settledSlot (h.unused j hj).1).trans settledSlot_free), hnone j⟩
    candidate := fun c hc => by
      split at hc
      · obtain rfl := Option.some.inj hc
        exact ⟨rfl, .inl (h.frameBits_pos hoff)⟩
      · cases hc
    opening := fun ho => absurd (h.opening ho).1 hmaster
    due := trivial }

theorem portSound_takeLineEvent {d : LineDue} (h : PortSound (s.port p)) (hd : (s.port p).due = some d) :
    PortSound ((takeLineEvent p d s).port p) := by
  have hopen : (s.port p).opening ≠ true := fun ho => by
    rw [(h.opening ho).2.2] at hd
    cases hd
  have hdue : dueSound (s.port p) := h.due
  rw [dueSound, hd] at hdue
  cases d with
  | frame mark => exact portSound_frameEvent h hd
  | huntMark =>
    rw [takeLineEvent, huntMark_port_self]
    exact { h with
      candidate := fun c hc => by
        obtain rfl := Option.some.inj hc
        exact ⟨hdue, .inl (h.frameBits_pos (by rw [hdue]; nofun))⟩
      opening := fun ho => absurd ho hopen
      due := trivial }
  | drop =>
    rw [takeLineEvent, dropCandidate_port_self]
    exact { h with candidate := nofun, opening := fun ho => absurd ho hopen, due := trivial }
  | lock => exact portSound_lockEvent h hd
  | loss reason => exact portSound_lossEvent h hd

theorem takeLineEvent_port_ne {d : LineDue} (hk : k ≠ p) : (takeLineEvent p d s).port k = s.port k := by
  cases d with
  | frame mark =>
    rw [takeLineEvent, frameEvent_eq, (releaseParked_changes ..).port rfl, State.port_setPort_ne _ _ hk, frameSettled,
      applySlots_port_ne _ _ hk, (appendSlots_changes ..).port rfl, takeSlots_port_ne _ _ hk]
  | huntMark => exact State.port_setPort_ne _ _ hk
  | drop => exact State.port_setPort_ne _ _ hk
  | lock =>
    rw [takeLineEvent, lockEvent, (raiseEvent_changes ..).port rfl, State.port_setPort_ne _ _ hk, takeSlots_port_ne _ _ hk, State.port_setPort_ne _ _ hk]
  | loss reason =>
    rw [takeLineEvent, lossEvent, (releaseParked_changes ..).port rfl, applySlots_port_ne _ _ hk, raiseEvent_port, State.port_setPort_ne _ _ hk]

theorem takeDue_due : ((takeDue p s).port p).due = none := by
  cases hd : (s.port p).due with
  | none => rw [takeDue_of_none hd, hd]
  | some d => rw [takeDue_of_due hd, takeLineEvent_due]

theorem portSound_takeDue (h : PortSound (s.port p)) : PortSound ((takeDue p s).port p) := by
  cases hd : (s.port p).due with
  | none => rwa [takeDue_of_none hd]
  | some d =>
    rw [takeDue_of_due hd]
    exact portSound_takeLineEvent h hd

theorem takeDue_port_ne (hk : k ≠ p) : (takeDue p s).port k = s.port k := by
  cases hd : (s.port p).due with
  | none => rw [takeDue_of_none hd]
  | some d => rw [takeDue_of_due hd, takeLineEvent_port_ne hk]

end

end Sys2Proof.Machine
end

section
/-! SUPPORT. The frame counter under every command (R131, R138), and the laws of the ports under every step. -/

namespace Sys2Proof.Machine

open Sys2Proof

/-! ### What setup and CLEAR leave of a port -/

theorem setupDone_port (b : ReadBuf) (s : State) (k : PortId) : (setupDone b s).port k = s.port k ∨
    ∃ x : SetupPort, (x.mode = 0 ∨ 2 ≤ x.slots ∧ x.slots ≤ 32) ∧ (setupDone b s).port k = loadedPort x (s.port k) := by
  unfold setupDone
  dsimp only
  split
  · exact .inl ((setupFail_changes ..).port rfl k)
  · split
    · exact .inl ((setupFail_changes ..).port rfl k)
    case h_2 hnone =>
      cases k with
      | a => exact .inr ⟨_, slots_of_setupChecks hnone 0, rfl⟩
      | b => exact .inr ⟨_, slots_of_setupChecks hnone 1, rfl⟩

theorem exec_setupReadAnswer_port (off : Nat) (a : Answer) (s : State) (k : PortId) :
    Answers (fun t => t.port k = s.port k ∨
      ∃ x : SetupPort, (x.mode = 0 ∨ 2 ≤ x.slots ∧ x.slots ≤ 32) ∧ t.port k = loadedPort x (s.port k))
      (exec (.setupReadAnswer off a) s) := by
  refine answers_taken (.inl rfl) ?_
  split
  · exact .inl rfl
  · split
    · dsimp only
      split
      · exact setupDone_port ..
      · exact .inl (by cases k <;> rfl)
    · exact .inl rfl

theorem exec_clear_port (s : State) (k : PortId) :
    Answers (fun t => t.port k = s.port k ∨ t.port k = PortRec.reset) (exec .clear s) := by
  refine answers_taken (.inl rfl) ?_
  split
  · exact .inr (by cases k <;> rfl)
  · exact .inl (by cases k <;> rfl)

theorem exec_pinReset_port (s : State) (k : PortId) : Answers (fun t => t.port k = PortRec.reset) (exec .pinReset s) :=
  answers_next (by cases k <;> rfl)

/-! ### What a line event and a bit clock leave of a port -/

/-- A command of a line event takes the event where it is due, and is no event elsewhere. -/
theorem answers_lineEvent {P : State → Prop} {p : PortId} {s t : State} (hs : P s)
    (hd : ∀ d, (s.port p).due = some d → P (takeLineEvent p d s))
    (ht : t = s ∨ ∃ d, (s.port p).due = some d ∧ t = takeLineEvent p d s) : Answers P (taken s t) := by
  refine answers_taken hs ?_
  obtain rfl | ⟨d, hdue, rfl⟩ := ht
  · exact hs
  · exact hd d hdue

theorem exec_frameEvent_answers {P : State → Prop} {p : PortId} {s : State} (hs : P s)
    (hd : ∀ d, (s.port p).due = some d → P (takeLineEvent p d s)) : Answers P (exec (.frameEvent p) s) := by
  refine answers_lineEvent hs hd ?_
  split
  case h_1 mark hdue => exact .inr ⟨_, hdue, rfl⟩
  case h_2 => exact .inl rfl

theorem exec_huntSyncMark_answers {P : State → Prop} {p : PortId} {s : State} (hs : P s)
    (hd : ∀ d, (s.port p).due = some d → P (takeLineEvent p d s)) : Answers P (exec (.huntSyncMark p) s) := by
  refine answers_lineEvent hs hd ?_
  split
  case h_1 hdue => exact .inr ⟨_, hdue, rfl⟩
  case h_2 => exact .inl rfl

theorem exec_candidateDrop_answers {P : State → Prop} {p : PortId} {s : State} (hs : P s)
    (hd : ∀ d, (s.port p).due = some d → P (takeLineEvent p d s)) : Answers P (exec (.candidateDrop p) s) := by
  refine answers_lineEvent hs hd ?_
  split
  case h_1 hdue => exact .inr ⟨_, hdue, rfl⟩
  case h_2 => exact .inl rfl

theorem exec_lockEvent_answers {P : State → Prop} {p : PortId} {s : State} (hs : P s)
    (hd : ∀ d, (s.port p).due = some d → P (takeLineEvent p d s)) : Answers P (exec (.lockEvent p) s) := by
  refine answers_lineEvent hs hd ?_
  split
  case h_1 hdue => exact .inr ⟨_, hdue, rfl⟩
  case h_2 => exact .inl rfl

theorem exec_lossEvent_answers {P : State → Prop} {p : PortId} {s : State} (hs : P s)
    (hd : ∀ d, (s.port p).due = some d → P (takeLineEvent p d s)) : Answers P (exec (.lossEvent p) s) := by
  refine answers_lineEvent hs hd ?_
  split
  case h_1 reason hdue => exact .inr ⟨_, hdue, rfl⟩
  case h_2 => exact .inl rfl

theorem bitClock_port_self {p : PortId} {din sync : Bool} {s : State} :
    (bitClock p din sync s).port p = clockPort din sync ((takeDue p s).port p) := State.port_setPort_self ..

theorem bitClock_port_ne {p k : PortId} {din sync : Bool} {s : State} (hk : k ≠ p) :
    (bitClock p din sync s).port k = s.port k := by
  rw [bitClock, State.port_setPort_ne _ _ hk, takeDue_port_ne hk]

/-! ### The laws of the ports under every command -/

/-- Both ports keep the laws where each does. -/
theorem portsSound_iff (s : State) : PortsSound s ↔ ∀ k, PortSound (s.port k) :=
  ⟨fun h k => by cases k; exacts [h.1, h.2], fun h => ⟨h .a, h .b⟩⟩

/-- The laws after a change of one port. -/
theorem portsSound_of_self {s t : State} {p : PortId} (h : PortsSound s) (hne : ∀ k, k ≠ p → t.port k = s.port k)
    (hself : PortSound (s.port p) → PortSound (t.port p)) : PortsSound t := by
  rw [portsSound_iff] at h ⊢
  intro k
  by_cases hk : k = p
  · subst hk
    exact hself (h k)
  · rw [hne k hk]
    exact h k

theorem portsSound_takeLineEvent {s : State} {p : PortId} (h : PortsSound s) (d : LineDue) (hd : (s.port p).due = some d) :
    PortsSound (takeLineEvent p d s) :=
  portsSound_of_self h (fun _ hk => takeLineEvent_port_ne hk) fun hp => portSound_takeLineEvent hp hd

theorem exec_portsSound (c : Instr) {s : State} (h : PortsSound s) : Answers PortsSound (exec c s) := by
  have hk := (portsSound_iff s).mp h
  cases c with
  | clear =>
    refine fun t ht => (portsSound_iff t).mpr fun k => ?_
    obtain hkept | hreset := exec_clear_port s k t ht
    · exact hkept ▸ hk k
    · exact hreset ▸ portSound_reset
  | pinReset => exact fun t ht => (portsSound_iff t).mpr fun k => exec_pinReset_port s k t ht ▸ portSound_reset
  | setupReadAnswer off a =>
    refine fun t ht => (portsSound_iff t).mpr fun k => ?_
    obtain hkept | ⟨x, hx, hloaded⟩ := exec_setupReadAnswer_port off a s k t ht
    · exact hkept ▸ hk k
    · exact hloaded ▸ portSound_loadedPort x hx
  | controlSelect =>
    exact fun t ht => (portsSound_iff t).mpr fun k => (exec_controlSelect_mapMoves s k t ht).portSound (hk k)
  | frameEvent p => exact exec_frameEvent_answers h (portsSound_takeLineEvent h)
  | huntSyncMark p => exact exec_huntSyncMark_answers h (portsSound_takeLineEvent h)
  | candidateDrop p => exact exec_candidateDrop_answers h (portsSound_takeLineEvent h)
  | lockEvent p => exact exec_lockEvent_answers h (portsSound_takeLineEvent h)
  | lossEvent p => exact exec_lossEvent_answers h (portsSound_takeLineEvent h)
  | bitClock p din sync =>
    refine answers_taken h (portsSound_of_self h (fun _ hk => bitClock_port_ne hk) fun hp => ?_)
    rw [bitClock_port_self]
    exact portSound_clockPort (portSound_takeDue hp) takeDue_due din sync
  | _ => exact exec_keeps_of_parts fun t ht => (portsSound_iff t).mpr fun k => ht.port rfl k ▸ hk k

/-- Settles O11: a port changes at its bit clocks and line events, by a BIND_SLOT and its withdrawal, by setup and by a
reset, and each keeps its laws. -/
theorem portsStaySound : Obligations.PortsStaySound :=
  fun _ _ hs hstep => step_keeps hs (fun _ h => h) (fun c _ h => exec_portsSound c h) hstep

/-! ### The frame counter (R131, R138) -/

section

variable {s : State} {p : PortId} {din sync : Bool}

theorem shiftBit_fcount (r : PortRec) : (shiftBit r).fcount = r.fcount := by rw [shiftBit_eq]

theorem withDue_fcount (r : PortRec) (d : Option LineDue) : (withDue r d).fcount = r.fcount := by
  cases d with
  | none => exact shiftBit_fcount r
  | some d => rfl

theorem clockPort_fcount (r : PortRec) : (clockPort din sync r).fcount = r.fcount := by
  unfold clockPort
  split
  · rfl
  · rfl
  · split
    · unfold masterClock
      split
      · exact shiftBit_fcount _
      · exact withDue_fcount ..
    · exact withDue_fcount ..

theorem frameEvent_fcount (mark : Bool) : ((frameEvent p mark s).port p).fcount = (s.port p).fcount + 1 := by
  rw [frameEvent_port_self, shiftBit_fcount]

/-- A line event that is no frame event leaves every frame counter. -/
theorem takeLineEvent_fcount (k : PortId) {d : LineDue} (hd : ∀ mark, d ≠ .frame mark) :
    ((takeLineEvent p d s).port k).fcount = (s.port k).fcount := by
  by_cases hk : k = p
  · subst hk
    cases d with
    | frame mark => exact absurd rfl (hd mark)
    | huntMark => rw [takeLineEvent, huntMark_port_self]
    | drop => rw [takeLineEvent, dropCandidate_port_self]
    | lock => rw [takeLineEvent, lockEvent_port_self, shiftBit_fcount]
    | loss reason => rw [takeLineEvent, lossEvent_port_self]
  · rw [takeLineEvent_port_ne hk]

theorem takeDue_fcount : ((takeDue p s).port p).fcount = (s.port p).fcount ∨
    ((takeDue p s).port p).fcount = (s.port p).fcount + 1 ∧ ∃ mark, (s.port p).due = some (.frame mark) := by
  cases hd : (s.port p).due with
  | none =>
    rw [takeDue_of_none hd]
    exact .inl rfl
  | some d =>
    rw [takeDue_of_due hd]
    cases d with
    | frame mark => exact .inr ⟨frameEvent_fcount mark, mark, rfl⟩
    | huntMark => exact .inl (takeLineEvent_fcount p nofun)
    | drop => exact .inl (takeLineEvent_fcount p nofun)
    | lock => exact .inl (takeLineEvent_fcount p nofun)
    | loss reason => exact .inl (takeLineEvent_fcount p nofun)

end

theorem loadedPort_fcount (x : SetupPort) (r : PortRec) : (loadedPort x r).fcount = 0 := by
  unfold loadedPort
  split <;> rfl

/-- A frame event that is due when a bit clock comes is taken first. -/
theorem bitClock_counts {s : State} {p : PortId} {mark : Bool} (din sync : Bool) (hd : (s.port p).due = some (.frame mark)) :
    ((bitClock p din sync s).port p).fcount = (s.port p).fcount + 1 := by
  rw [bitClock_port_self, clockPort_fcount, takeDue_of_due hd]
  exact frameEvent_fcount mark

/-- Settles O19: the counter rises at the frame event that is due, and is 0 after CLEAR, a pin reset and setup. -/
theorem frameCounterRule : Obligations.FrameCounterRule := by
  refine ⟨fun c s t k ht => ?changes, fun c s p mark ha hd hc => ?rises, fun s ha hst => ?clear, fun s => ?pinReset,
    fun s b off a ha hb hfits hblock hdone herr hok => ?setup⟩
  case changes =>
    cases c with
    | clear =>
      exact (exec_clear_port s k t ht).imp (congrArg PortRec.fcount) fun h => .inr ⟨congrArg PortRec.fcount h, .inl rfl⟩
    | pinReset => exact .inr (.inr ⟨congrArg PortRec.fcount (exec_pinReset_port s k t ht), .inr (.inl rfl)⟩)
    | setupReadAnswer off a =>
      obtain hkept | ⟨x, -, hloaded⟩ := exec_setupReadAnswer_port off a s k t ht
      · exact .inl (congrArg PortRec.fcount hkept)
      · exact .inr (.inr ⟨(congrArg PortRec.fcount hloaded).trans (loadedPort_fcount ..), .inr (.inr ⟨off, a, rfl⟩)⟩)
    | controlSelect =>
      exact .inl (by rw [(exec_controlSelect_mapMoves s k t ht).rest])
    | frameEvent p =>
      by_cases hk : k = p
      · subst hk
        refine answers_taken (P := fun t => (t.port k).fcount = _ ∨ ((t.port k).fcount = _ ∧ _) ∨ _) (.inl rfl) ?_ t ht
        split
        case h_1 mark hd => exact .inr (.inl ⟨frameEvent_fcount mark, ⟨mark, hd⟩, .inl rfl⟩)
        case h_2 => exact .inl rfl
      · refine answers_taken (P := fun t => (t.port k).fcount = _ ∨ _) (.inl rfl) ?_ t ht
        split
        case h_1 mark hd => exact .inl (congrArg PortRec.fcount (takeLineEvent_port_ne (d := .frame mark) hk))
        case h_2 => exact .inl rfl
    | huntSyncMark p =>
      refine .inl (answers_taken (P := fun t => (t.port k).fcount = _) rfl ?_ t ht)
      split
      · exact takeLineEvent_fcount (d := .huntMark) k nofun
      · rfl
    | candidateDrop p =>
      refine .inl (answers_taken (P := fun t => (t.port k).fcount = _) rfl ?_ t ht)
      split
      · exact takeLineEvent_fcount (d := .drop) k nofun
      · rfl
    | lockEvent p =>
      refine .inl (answers_taken (P := fun t => (t.port k).fcount = _) rfl ?_ t ht)
      split
      · exact takeLineEvent_fcount (d := .lock) k nofun
      · rfl
    | lossEvent p =>
      refine .inl (answers_taken (P := fun t => (t.port k).fcount = _) rfl ?_ t ht)
      split
      case h_1 reason _ => exact takeLineEvent_fcount (d := .loss reason) k nofun
      case h_2 => rfl
    | bitClock p din sync =>
      by_cases hk : k = p
      · subst hk
        refine answers_taken (P := fun t => (t.port k).fcount = _ ∨ ((t.port k).fcount = _ ∧ _) ∨ _) (.inl rfl) ?_ t ht
        rw [bitClock_port_self, clockPort_fcount]
        exact takeDue_fcount.imp_right fun ⟨hrise, hdue⟩ => .inl ⟨hrise, hdue, .inr ⟨din, sync, rfl⟩⟩
      · refine .inl (answers_taken (P := fun t => (t.port k).fcount = _) rfl ?_ t ht)
        rw [bitClock_port_ne hk]
    | _ => exact .inl (congrArg PortRec.fcount ((exec_changes _ s t ht).port rfl k))
  case rises =>
    obtain rfl | ⟨din, sync, rfl⟩ := hc
    · exact ⟨_, exec_frameEvent_of_due ha hd, frameEvent_fcount mark⟩
    · exact ⟨_, taken_eq ha, bitClock_counts din sync hd⟩
  case clear =>
    exact ⟨clearEngine s, (taken_eq ha).trans (congrArg _ (if_pos hst)), fun p => by cases p <;> rfl⟩
  case pinReset => exact ⟨assertReset s, rfl, fun p => by cases p <;> rfl⟩
  case setup =>
    have hnone : (setupChecks (decodeSetup (bufBytes (bufTake b off a)))).find? (fun c => !c.ok) = none :=
      List.find?_eq_none.mpr fun x hx => by simp [hok x hx]
    refine ⟨setupAccept (decodeSetup (bufBytes (bufTake b off a))) s, ?_, fun p => ?_⟩
    · rw [exec_setupReadAnswer_of_fits ha hb hfits hblock, if_pos hdone, setupDone_of_passed herr hnone]
    · cases p <;> exact loadedPort_fcount ..

end Sys2Proof.Machine
end

section
/-! SUPPORT. Relations between states that the operations inside a command keep. A relation that holds across a few guarded
updates of a head holds across every operation of the scheduler, the loader, the datapath's end and the ports' records. -/

namespace Sys2Proof.Machine

open Sys2Proof

/-! ### The guarded updates -/

/-- The job is WAITING or READY. -/
def queuedState (st : JState) : Prop := st = .waiting ∨ st = .ready

/-- A job record changed within its record state, or between WAITING and READY: its data record and its claims stay, and a
RUNNING job keeps its entry. -/
structure SameJob (j j' : JobRec) : Prop where
  data : j'.data = j.data
  claims : j'.claims = j.claims
  state : j'.jstate = j.jstate ∧ (j.jstate = .running → j'.chainEnt = j.chainEnt ∧ j'.ctxReset = j.ctxReset) ∨
    queuedState j.jstate ∧ queuedState j'.jstate ∧ j'.chainEnt = j.chainEnt

/-- The head completes without having started: a WAITING or READY job, or a control record in CONTROL_WAIT or PARKED. -/
def completable (h : Head) : Prop :=
  match h with
  | .data _ _ j => queuedState j.jstate
  | .control _ _ _ c => c = .controlWait ∨ c = .parked
  | _ => False

/-- The parts that hold nothing of heads, reservations, streams, contexts or the datapath. -/
abbrev otherParts : List Part := [.irqPend, .notices, .cache, .ports, .stopReq]

/-- A relation that refines every run of the guarded updates. -/
structure Closed (R : State → State → Prop) : Prop where
  refl : ∀ s, R s s
  trans : ∀ {s t u}, R s t → R t u → R s u
  other : ∀ {s t}, Changes otherParts s t → R s t
  drain : ∀ s, R s (checkDrain s)
  event : ∀ s k n r, R s (raiseEvent s k n r)
  complete : ∀ {s : State} {q : Fin 4} (r : CqRec), completable (s.queue q).head → R s (completeHead q r s)
  job : ∀ {s : State} {q : Fin 4} {pos : Nat} {h : Header} {j j' : JobRec}, (s.queue q).head = .data pos h j → SameJob j j' →
    R s (s.setHead q (.data pos h j'))
  fail : ∀ {s : State} {q : Fin 4} {pos : Nat} {h : Header} {j : JobRec} (st : Status), (s.queue q).head = .data pos h j →
    j.jstate = .starting → R s (failStart q st s)
  run : ∀ {s : State} {q : Fin 4} {pos : Nat} {h : Header} {j : JobRec} (reads : List ReadChoice),
    (s.queue q).head = .data pos h j → j.jstate = .starting → ((jobContext j.data).isSome = true → j.chainEnt.isSome = true) →
    R s (enterRunning q reads s)
  finish : ∀ {s : State}, s.dp.st = .settle → R s (endOfJob s)

/-- The head completes where no unit holds its record: a WAITING or READY job, a control record in CONTROL_WAIT, or a PARKED
BIND_SLOT. -/
def leavesFreely (h : Head) : Prop :=
  match h with
  | .data _ _ j => queuedState j.jstate
  | .control _ _ body c => c = .controlWait ∨ c = .parked ∧ ∃ p j action, body = .bindSlot p j action
  | .empty => False
  | .fetching _ => False

/-- A relation that refines the guarded updates which leave the chain cache, its waiters and a STARTING job alone. -/
structure Ordinary (R : State → State → Prop) : Prop where
  refl : ∀ s, R s s
  trans : ∀ {s t u}, R s t → R t u → R s u
  other : ∀ {s t}, Changes [.irqPend, .notices, .ports, .stopReq] s t → R s t
  drain : ∀ s, R s (checkDrain s)
  event : ∀ s k n r, R s (raiseEvent s k n r)
  complete : ∀ {s : State} {q : Fin 4} (r : CqRec), leavesFreely (s.queue q).head → R s (completeHead q r s)
  job : ∀ {s : State} {q : Fin 4} {pos : Nat} {h : Header} {j j' : JobRec}, (s.queue q).head = .data pos h j → SameJob j j' →
    queuedState j.jstate → queuedState j'.jstate → j'.chainEnt = j.chainEnt → R s (s.setHead q (.data pos h j'))
  finish : ∀ {s : State}, s.dp.st = .settle → R s (endOfJob s)

theorem completable_of_leavesFreely {h : Head} (hl : leavesFreely h) : completable h := by
  cases h with
  | data pos hd j => exact hl
  | control pos hd body c => exact hl.imp_right And.left
  | empty => exact hl
  | fetching pos => exact hl

theorem Closed.ordinary {R : State → State → Prop} (hR : Closed R) : Ordinary R where
  refl := hR.refl
  trans := hR.trans
  other := fun hc => hR.other (hc.mono rfl)
  drain := hR.drain
  event := hR.event
  complete := fun r hl => hR.complete r (completable_of_leavesFreely hl)
  job := fun hh hj _ _ _ => hR.job hh hj
  finish := hR.finish

namespace Ordinary

variable {R : State → State → Prop} {s t : State} {q : Fin 4} {pos : Nat} {h : Header} {j j' : JobRec}

theorem next (hR : Ordinary R) (hst : R s t) {F : List Part} {u : State} (hc : Changes F t u)
    (hF : within F [.irqPend, .notices, .ports, .stopReq] = true) : R s u := hR.trans hst (hR.other (hc.mono hF))

theorem of_changes (hR : Ordinary R) {F : List Part} (hc : Changes F s t)
    (hF : within F [.irqPend, .notices, .ports, .stopReq] = true) : R s t := hR.other (hc.mono hF)

theorem completeJob (hR : Ordinary R) (hh : (s.queue q).head = .data pos h j) (hj : queuedState j.jstate) (st : Status) :
    R s (completeJob q st s) := by
  rw [completeJob_of_data hh]
  exact hR.complete _ (by rw [hh]; exact hj)

theorem reexamine (hR : Ordinary R) (n : Fin 48) : R s (reexamine n q s) := by
  unfold Machine.reexamine
  split
  case h_1 pos h j hh =>
    split
    case isTrue hj =>
      split
      · exact hR.completeJob hh hj.1 _
      · rw [setJob_of_data hh]
        unfold examinedJob
        split
        · exact hR.job hh ⟨rfl, rfl, .inr ⟨hj.1, .inr rfl, rfl⟩⟩ hj.1 (.inr rfl) rfl
        · exact hR.job hh ⟨rfl, rfl, .inr ⟨hj.1, .inl rfl, rfl⟩⟩ hj.1 (.inl rfl) rfl
    case isFalse => exact hR.refl s
  case h_2 => exact hR.refl s

theorem reexamineAll (hR : Ordinary R) (n : Fin 48) (l : List (Fin 4)) (s : State) : R s (reexamineAll n l s) := by
  induction l generalizing s with
  | nil => exact hR.refl s
  | cons q l ih => exact hR.trans (hR.reexamine n) (ih _)

theorem settle (hR : Ordinary R) (s : State) : R s (settle s) := by
  unfold Machine.settle
  split
  case isTrue hst => exact hR.finish hst.1
  case isFalse => exact hR.refl s

/-! ### Parked records of a port -/

theorem releaseBind (hR : Ordinary R) : R s (releaseBind q s) := by
  unfold Machine.releaseBind
  split
  case h_1 pos h p j action hh =>
    unfold completeParked
    rw [hh]
    exact hR.complete _ (by rw [hh]; exact .inr ⟨rfl, p, j, action, rfl⟩)
  case h_2 => exact hR.refl s

theorem releaseParked (hR : Ordinary R) (l : List (Fin 4)) (s : State) : R s (releaseParked l s) := by
  induction l generalizing s with
  | nil => exact hR.refl s
  | cons q l ih => exact hR.trans hR.releaseBind (ih _)

end Ordinary

namespace Closed

variable {R : State → State → Prop} {s t : State} {q : Fin 4} {pos : Nat} {h : Header} {j j' : JobRec}

/-! ### Heads of the scheduler -/

theorem next (hR : Closed R) (hst : R s t) {F : List Part} {u : State} (hc : Changes F t u) (hF : within F otherParts = true) :
    R s u := hR.trans hst (hR.other (hc.mono hF))

theorem of_changes (hR : Closed R) {F : List Part} (hc : Changes F s t) (hF : within F otherParts = true) : R s t :=
  hR.other (hc.mono hF)

theorem setJob (hR : Closed R) (hh : (s.queue q).head = .data pos h j) (hj : SameJob j j') : R s (setJob q j' s) := by
  rw [setJob_of_data hh]
  exact hR.job hh hj

theorem completeJob (hR : Closed R) (hh : (s.queue q).head = .data pos h j) (hj : queuedState j.jstate) (st : Status) :
    R s (completeJob q st s) := hR.ordinary.completeJob hh hj st

theorem completeControl (hR : Closed R) {body : ControlRec} {c : CtlState} (hh : (s.queue q).head = .control pos h body c)
    (hc : c = .controlWait ∨ c = .parked) (st : Status) (n : Nat) (d : Detail) (hit : Bool) :
    R s (completeControl q st n d hit s) := by
  simp only [Machine.completeControl, hh]
  exact hR.complete _ (by rw [hh]; exact hc)

theorem completeParked (hR : Closed R) (st : Status) (d : Detail) : R s (completeParked q st d s) := by
  unfold Machine.completeParked
  split
  case h_1 hh => exact hR.complete _ (by rw [hh]; exact .inr rfl)
  case h_2 => exact hR.refl s

/-! ### The start sequence from the chain step on -/

theorem startWithChain (hR : Closed R) (hh : (s.queue q).head = .data pos h j) (hj : j.jstate = .starting)
    (he : j.chainEnt.isSome = true) (reads : List ReadChoice) : R s (startWithChain q reads s) := by
  unfold Machine.startWithChain
  rw [headJob_of_data hh]
  dsimp only
  split
  · exact hR.fail _ hh hj
  · exact hR.run reads hh hj fun _ => he

theorem sameJob_starting (hj : j.jstate = .starting) (hd : j'.data = j.data) (hc : j'.claims = j.claims)
    (hs : j'.jstate = j.jstate) : SameJob j j' :=
  ⟨hd, hc, .inl ⟨hs, fun h => absurd (hj.symm.trans h) nofun⟩⟩

theorem chainStep (hR : Closed R) (hh : (s.queue q).head = .data pos h j) (hj : j.jstate = .starting)
    (reads : List ReadChoice) : R s (chainStep q reads s) := by
  have hwait : ∀ w, R s (Machine.setJob q { j with chainWait := w } s) := fun w =>
    hR.setJob hh (sameJob_starting hj rfl rfl rfl)
  unfold Machine.chainStep
  rw [headJob_of_data hh]
  dsimp only
  split
  case h_1 gains hkind => exact hR.run reads hh hj fun hc => by simp [jobContext, hkind] at hc
  case h_2 addr c hkind =>
    split
    case h_1 e he =>
      split
      case isTrue =>
        have hentry : R s (s.setEntry e { s.entry e with inuse := true }) :=
          hR.of_changes (changes_setEntry ..) rfl
        have hheld : R s (holdEntry q e true j s) :=
          hR.trans hentry (hR.setJob (s := s.setEntry e _) hh (sameJob_starting hj rfl rfl rfl))
        have hhold : R s (touchEntry e (holdEntry q e true j s)) := hR.next hheld (touchEntry_changes ..) rfl
        refine hR.trans hhold (hR.startWithChain (pos := pos) (h := h)
          (j := { j with chainEnt := some e, chainWait := .none, chainHit := true }) ?_ hj rfl reads)
        change ((holdEntry q e true j s).queue q).head = _
        rw [holdEntry, setJob_of_data (s := s.setEntry e _) hh, State.queue_setHead_self]
      case isFalse => exact hR.next (hwait _) (joinFill_changes ..) rfl
    case h_2 =>
      split
      · exact hR.next (hwait _) (joinRequest_changes ..) rfl
      · split
        · exact hR.next (hwait _) (placeRequest_changes ..) rfl
        · exact hwait _

theorem head_of_starting {h : Head} (hs : headIn .starting h = true) : ∃ pos hd j, h = .data pos hd j ∧ j.jstate = .starting := by
  obtain ⟨pos, hd, j, rfl, hj⟩ := (headIn_iff .starting h).mp hs
  exact ⟨pos, hd, j, rfl, hj⟩

theorem retryJobPlace (hR : Closed R) (s : State) : R s (retryJobPlace s) := by
  unfold Machine.retryJobPlace
  split
  case h_1 q hq =>
    have hstart := List.find?_some hq
    simp only [Bool.and_eq_true] at hstart
    obtain ⟨⟨hstart, -⟩, -⟩ := hstart
    obtain ⟨pos, h, j, hh, hj⟩ := head_of_starting hstart
    split
    · exact hR.chainStep hh hj []
    · exact hR.refl s
  case h_2 => exact hR.refl s

/-! ### The chain loader -/

theorem servePassed (hR : Closed R) (e : Fin 8) (stale : Bool) (reads : List ReadChoice) : R s (servePassed e stale reads q s) := by
  unfold Machine.servePassed
  split
  case h_1 pos h j hh =>
    split
    case isTrue hj =>
      refine hR.trans (hR.setJob (j' := { j with chainEnt := some e, chainWait := .none }) hh (sameJob_starting hj rfl rfl rfl))
        (hR.startWithChain (pos := pos) (h := h)
        (j := { j with chainEnt := some e, chainWait := .none }) ?_ hj rfl reads)
      rw [setJob_of_data hh, State.queue_setHead_self]
    case isFalse => exact hR.refl s
  case h_2 =>
    split
    · exact hR.completeParked ..
    · exact hR.completeParked ..

theorem servePassedAll (hR : Closed R) (e : Fin 8) (stale : Bool) (reads : List ReadChoice) (l : List (Fin 4)) (s : State) :
    R s (servePassedAll e stale reads l s) := by
  induction l generalizing s with
  | nil => exact hR.refl s
  | cons q l ih => exact hR.trans (hR.servePassed e stale reads) (ih _)

theorem serveFailed (hR : Closed R) (st : Status) : R s (serveFailed st q s) := by
  unfold Machine.serveFailed
  split
  case isTrue hw =>
    obtain ⟨pos, h, j, hh, hj⟩ := head_of_starting hw
    exact hR.fail st hh hj
  case isFalse => exact hR.completeParked ..

theorem serveFailedAll (hR : Closed R) (st : Status) (l : List (Fin 4)) (s : State) : R s (serveFailedAll st l s) := by
  induction l generalizing s with
  | nil => exact hR.refl s
  | cons q l ih => exact hR.trans (hR.serveFailed st) (ih _)

theorem fillPassed (hR : Closed R) (f : Fill) (order : List (Fin 4)) (reads : List ReadChoice) (s : State) :
    R s (fillPassed f order reads s) := by
  unfold Machine.fillPassed
  dsimp only
  refine hR.trans (hR.of_changes (F := [.cache]) ?_ rfl) (hR.servePassedAll ..)
  split
  · exact Changes.mono ((noFill_changes _).trans (changes_setEntry ..)) rfl
  · exact Changes.mono (((noFill_changes _).trans (changes_setEntry ..)).trans (lruJoin_changes ..)) rfl

theorem fillFailed (hR : Closed R) (st : Status) (f : Fill) (order : List (Fin 4)) (s : State) :
    R s (fillFailed st f order s) :=
  hR.trans (hR.of_changes ((noFill_changes _).trans (changes_setEntry ..)) rfl) (hR.serveFailedAll ..)

theorem markFilling (hR : Closed R) (l : List (Fin 4)) (s : State) : R s (markFilling l s) := by
  induction l generalizing s with
  | nil => exact hR.refl s
  | cons q l ih =>
    unfold Machine.markFilling
    split
    case h_1 j hj =>
      obtain ⟨pos, h, hh⟩ := (headJob_eq_some_iff _ j).mp hj
      exact hR.trans (hR.setJob (j' := { j with chainWait := .filling }) hh ⟨rfl, rfl, .inl ⟨rfl, fun _ => ⟨rfl, rfl⟩⟩⟩) (ih _)
    case h_2 => exact ih _

theorem beginFill (hR : Closed R) (r : Request) (rest : List Request) (order : List (Fin 4)) (s : State) :
    R s (beginFill r rest order s) := by
  have hmark : R s (Machine.markFilling r.waiters { s with cache := { s.cache with reqs := rest } }) :=
    hR.trans (hR.of_changes (changes_cache ..) rfl) (hR.markFilling ..)
  unfold Machine.beginFill
  dsimp only
  split
  · exact hR.trans hmark (hR.serveFailedAll ..)
  · split
    · exact hR.trans hmark (hR.serveFailedAll ..)
    · exact hR.next hmark (((lruDrop_changes ..).trans (changes_setEntry ..)).trans (changes_cache ..)) rfl

theorem partDone (hR : Closed R) (f : Fill) (order : List (Fin 4)) (reads : List ReadChoice) (s : State) :
    R s (partDone f order reads s) := by
  have hput : ∀ stages, R s (putStages f stages s) := fun stages => hR.of_changes (putStages_changes ..) rfl
  have hpass : ∀ stages, R s (Machine.fillPassed f order reads (putStages f stages s)) := fun stages =>
    hR.trans (hput stages) (hR.fillPassed ..)
  unfold Machine.partDone
  split
  · exact hR.fillFailed ..
  · split
    · unfold headerDone
      dsimp only
      split
      · exact hR.of_changes (nextPart_changes ..) rfl
      · exact hR.fillFailed ..
    · unfold stagesDone
      split
      · exact hR.fillFailed ..
      · split
        · exact hpass _
        · split
          · exact hR.next (hput _) (nextPart_changes ..) rfl
          · exact hR.fillFailed ..
    · exact hpass _

end Closed

/-! ### The datapath's own steps -/

/-- From `s` to `t` the working record and the store alone change: the job stays, in COMPUTE or in SETTLE. -/
structure DpMoves (s t : State) : Prop where
  parts : Changes [.dp, .store] s t
  jobq : t.dp.jobq = s.dp.jobq
  state : t.dp.st = s.dp.st ∨ s.dp.st = .compute ∧ t.dp.st = .settle

theorem DpMoves.refl (s : State) : DpMoves s s := ⟨Changes.refl .., rfl, .inl rfl⟩

theorem DpMoves.trans {s t u : State} (h : DpMoves s t) (h' : DpMoves t u) : DpMoves s u := by
  refine ⟨Changes.mono (h.parts.trans h'.parts) rfl, h'.jobq.trans h.jobq, ?_⟩
  obtain hs | ⟨hs, ht⟩ := h.state
  · rw [← hs]
    exact h'.state
  · refine .inr ⟨hs, ?_⟩
    obtain hu | ⟨hcompute, -⟩ := h'.state
    · exact hu.trans ht
    · exact absurd (ht.symm.trans hcompute) nofun

/-- A record of the datapath that replaces another one. -/
theorem dpMoves_dp {s : State} {d : Datapath} (hj : d.jobq = s.dp.jobq)
    (hs : d.st = s.dp.st ∨ s.dp.st = .compute ∧ d.st = .settle) : DpMoves s { s with dp := d } :=
  ⟨(changes_dp s d).mono rfl, hj, hs⟩

end Sys2Proof.Machine
end

section
/-! SUPPORT. The commands across which a relation on states holds because it holds across the guarded updates. -/

namespace Sys2Proof.Machine

open Sys2Proof

/-! ### The datapath's own steps move its working record alone -/

section

variable {s : State} {j : JobRec}

theorem issueReads_dpMoves (reads : List ReadChoice) (s : State) : DpMoves s (issueReads reads s) := by
  rw [issueReads_eq]
  exact dpMoves_dp rfl (.inl rfl)

theorem issueGather_dpMoves (d : DataRec) (s : State) : DpMoves s { s with dp := issueGather d s.dp } := by
  obtain ⟨hst, hq, -⟩ := issueGather_keeps d s.dp
  exact dpMoves_dp hq (.inl hst)

theorem pushGather_dpMoves (j : JobRec) (s : State) : DpMoves s (pushGather j s) := by
  unfold pushGather
  split
  · exact issueGather_dpMoves ..
  · exact DpMoves.refl s

theorem loadDelay_dpMoves (s : State) : DpMoves s (loadDelay s) := by
  unfold loadDelay
  split
  · exact dpMoves_dp rfl (.inl rfl)
  · exact DpMoves.refl s

/-- An end that a record takes in COMPUTE. -/
theorem takeEnd_dpMoves {d : Datapath} (st : EndStat) (hc : s.dp.st = .compute) (hq : d.jobq = s.dp.jobq) :
    DpMoves s { s with dp := takeEnd st d } := dpMoves_dp hq (.inr ⟨hc, rfl⟩)

theorem handOn_dpMoves (i : Nat) (y : Sample) : DpMoves s (handOn j i y s) := by
  have hkeeps : (handOn j i y s).dp.jobq = s.dp.jobq ∧ (handOn j i y s).dp.st = s.dp.st := by
    unfold handOn
    split
    · rw [finishSample_eq]
      exact ⟨rfl, rfl⟩
    · exact ⟨rfl, rfl⟩
  exact ⟨handOn_changes .., hkeeps.1, .inl hkeeps.2⟩

theorem afterSample_dpMoves (hc : s.dp.st = .compute) : DpMoves s (afterSample j s) := by
  by_cases hl : s.dp.next = j.data.n
  · rw [afterSample_of_last hl]
    exact takeEnd_dpMoves .ok hc (issueGather_keeps ..).2.1
  · rw [afterSample_of_more hl]
    exact pushGather_dpMoves ..

theorem handOn_st (i : Nat) (y : Sample) : (handOn j i y s).dp.st = s.dp.st := by
  unfold handOn
  split
  · rw [finishSample_eq]
  · rfl

theorem computeNext_dpMoves (hc : s.dp.st = .compute) : DpMoves s (computeNext j s) := by
  unfold computeNext
  split
  · exact DpMoves.refl s
  · split
    · exact DpMoves.refl s
    · split
      · exact takeEnd_dpMoves .overflowTrap hc (issueGather_keeps ..).2.1
      case h_2 xs _ _ y bq clips _ =>
        have hadv : DpMoves s { s with dp := advanceDp s j xs bq clips } := dpMoves_dp rfl (.inl rfl)
        exact (hadv.trans (handOn_dpMoves ..)).trans (afterSample_dpMoves ((handOn_st ..).trans hc))

theorem issueReads_st (reads : List ReadChoice) : (issueReads reads s).dp.st = s.dp.st := by rw [issueReads_eq]

theorem pushGather_st : (pushGather j s).dp.st = s.dp.st := by
  unfold pushGather
  split
  · exact (issueGather_keeps ..).1
  · rfl

theorem takeWords_dpMoves (r : DpRead) (data : List Byte) (reads : List ReadChoice) (s : State) :
    DpMoves s (takeWords r data reads s) := by
  have hload : DpMoves s (if s.dp.next = 0
      then loadDelay { s with dp := { s.dp with inputs := addWords s.dp.inputs r data } }
      else { s with dp := { s.dp with inputs := addWords s.dp.inputs r data } }) := by
    have hwords : DpMoves s { s with dp := { s.dp with inputs := addWords s.dp.inputs r data } } := dpMoves_dp rfl (.inl rfl)
    split
    · exact hwords.trans (loadDelay_dpMoves _)
    · exact hwords
  unfold takeWords
  dsimp only
  split
  · exact (hload.trans (pushGather_dpMoves ..)).trans (issueReads_dpMoves ..)
  · exact hload

end

/-! ### The commands of the datapath -/

namespace Ordinary

variable {R : State → State → Prop} {s t : State} {q : Fin 4} {pos : Nat} {h : Header} {j j' : JobRec}

section

variable (hR : Ordinary R) (hdp : ∀ {s t}, DpMoves s t → R s t)

include hR hdp

theorem settle_dp {u : State} (hm : DpMoves s u) : R s (Machine.settle u) := hR.trans (hdp hm) (hR.settle u)

theorem exec_computeSample (reads : List ReadChoice) (s : State) : Answers (R s) (exec (.computeSample reads) s) := by
  refine answers_taken (hR.refl s) ?_
  unfold computeStep
  split
  case h_1 j _ =>
    split
    case isTrue hc =>
      have hst : (pushGather j (issueReads reads s)).dp.st = .compute := pushGather_st.trans ((issueReads_st reads).trans hc)
      exact settle_dp hR hdp
        (((issueReads_dpMoves ..).trans (pushGather_dpMoves ..)).trans (computeNext_dpMoves hst))
    case isFalse => exact hR.refl s
  case h_2 => exact hR.refl s

theorem exec_dpReadAnswer (k : Nat) (data : List Byte) (reads : List ReadChoice) (s : State) :
    Answers (R s) (exec (.dpReadAnswer k data reads) s) := by
  refine answers_taken (hR.refl s) ?_
  split
  · exact hR.refl s
  · split
    · exact hR.refl s
    · have herase : DpMoves s { s with dp := { s.dp with reads := s.dp.reads.eraseIdx k } } := dpMoves_dp rfl (.inl rfl)
      dsimp only
      split
      · exact settle_dp hR hdp (herase.trans (takeWords_dpMoves ..))
      · exact settle_dp hR hdp herase

theorem exec_dpReadError (k : Nat) (s : State) : Answers (R s) (exec (.dpReadError k) s) := by
  refine answers_taken (hR.refl s) ?_
  split
  · exact hR.refl s
  · dsimp only
    refine settle_dp hR hdp ?_
    split
    case isTrue hc => exact takeEnd_dpMoves .busError hc rfl
    case isFalse => exact dpMoves_dp rfl (.inl rfl)

theorem exec_dpWriteAnswer (k : Nat) (s : State) : Answers (R s) (exec (.dpWriteAnswer k) s) := by
  refine answers_taken (hR.refl s) ?_
  split
  · exact hR.refl s
  · exact settle_dp hR hdp (dpMoves_dp rfl (.inl rfl))

theorem exec_dpWriteError (k : Nat) (s : State) : Answers (R s) (exec (.dpWriteError k) s) := by
  refine answers_taken (hR.refl s) ?_
  split
  · exact hR.refl s
  · dsimp only
    refine settle_dp hR hdp ?_
    split
    case isTrue hc => exact takeEnd_dpMoves .busError hc rfl
    case isFalse =>
      split
      · exact dpMoves_dp rfl (.inl rfl)
      · exact dpMoves_dp rfl (.inl rfl)

theorem exec_stopRequest (s : State) : Answers (R s) (exec .stopRequest s) := by
  refine answers_taken (hR.refl s) ?_
  have hstop : R s { s with stopReq := false } := hR.of_changes (changes_stopReq ..) rfl
  split
  · dsimp only
    split
    · split
      case isTrue hc =>
        refine hR.trans hstop (settle_dp hR hdp (takeEnd_dpMoves .aborted hc.1 ?_))
        exact (issueGather_keeps ..).2.1
      case isFalse => exact hstop
    · exact hstop
  · exact hR.refl s

end

/-! ### The commands of the scheduler and the loader -/

theorem exec_changeNotice (hR : Ordinary R) (n : Fin 48) (order : List (Fin 4)) (s : State) :
    Answers (R s) (exec (.changeNotice n order) s) := by
  refine answers_taken (hR.refl s) ?_
  split
  · exact hR.trans (hR.of_changes (changes_notices ..) rfl) (hR.reexamineAll ..)
  · exact hR.refl s

theorem exec_waitTimerExpiry (hR : Ordinary R) (q : Fin 4) (s : State) : Answers (R s) (exec (.waitTimerExpiry q) s) := by
  refine answers_taken (hR.refl s) ?_
  split
  case isTrue hdue =>
    rw [Bool.and_eq_true] at hdue
    obtain ⟨-, hdue⟩ := hdue
    unfold timerDue at hdue
    split at hdue
    case h_1 pos h j hh =>
      rw [Bool.and_eq_true, Bool.or_eq_true, decide_eq_true_iff, decide_eq_true_iff] at hdue
      exact hR.completeJob hh hdue.1 _
    case h_2 => cases hdue
  case isFalse => exact hR.refl s

end Ordinary

namespace Closed

variable {R : State → State → Prop}

theorem exec_fillReadAnswer (hR : Closed R) (off : Nat) (a : Answer) (order : List (Fin 4)) (reads : List ReadChoice)
    (s : State) : Answers (R s) (exec (.fillReadAnswer off a order reads) s) := by
  refine answers_taken (hR.refl s) ?_
  split
  · exact hR.refl s
  · split
    · dsimp only
      split
      · exact hR.trans (hR.partDone ..) (hR.drain _)
      · exact hR.of_changes (changes_cache ..) rfl
    · exact hR.refl s

end Closed

/-! ### The end of a control record's execution -/

/-- The relation `E` leads from a state in which a control record executes, through the operations `R` holds across, to the end
of its execution: the record completes or parks, or keeps the unit busy. -/
structure ControlClosed (R E : State → State → Prop) : Prop extends Closed R where
  after : ∀ {s t u : State}, R s t → E t u → E s u
  conclude : ∀ {s : State} {q : Fin 4} (st : Status) (n : Nat) (d : Detail) (hit : Bool),
    ctlIn .executing (s.queue q).head = true → E s (finishControl q st n d hit s)
  park : ∀ {s : State} {q : Fin 4}, ctlIn .executing (s.queue q).head = true → E s (parkControl q s)
  busy : ∀ {s : State} (w : CuWork), ctlIn .executing (s.queue (workQueue w)).head = true →
    (∀ a t, w = .abortWait a t → headIn .running (s.queue t).head = true) →
    (∀ q n a re bs, w = .snapshot q n a re bs → (s.stream n).defined = true) →
    E s { s with cu := { s.cu with work := some w } }

/-- Queue `q` with head `h` ends its record's execution within the relation, in any state: it completes, parks or waits for the
CONTROL place. -/
structure Concludes (E : State → State → Prop) (q : Fin 4) (h : Head) : Prop where
  finish : ∀ {t : State}, (t.queue q).head = h → ∀ st n d hit, E t (finishControl q st n d hit t)
  park : ∀ {t : State}, (t.queue q).head = h → E t (parkControl q t)
  wait : ∀ {t : State}, (t.queue q).head = h → E t { t with cu := { t.cu with work := some (.placeWait q) } }

namespace ControlClosed

variable {R E : State → State → Prop} {s t : State} {q : Fin 4}

theorem concludeAfter (hR : ControlClosed R E) (hst : R s t) (hx : ctlIn .executing (t.queue q).head = true) (st : Status)
    (n : Nat) (d : Detail) (hit : Bool) : E s (finishControl q st n d hit t) := hR.after hst (hR.conclude st n d hit hx)

theorem concludes (hR : ControlClosed R E) {h : Head} (hx : ctlIn .executing h = true) : Concludes E q h where
  finish := fun ht st n d hit => hR.conclude st n d hit (by rw [ht, hx])
  park := fun ht => hR.park (by rw [ht, hx])
  wait := fun ht => hR.busy (.placeWait q) (by rw [workQueue, ht, hx]) (fun _ _ => nofun) fun _ _ _ _ _ => nofun

end ControlClosed

namespace Closed

variable {R E : State → State → Prop} {s t : State} {q : Fin 4}

section

variable (hR : Closed R) (hafter : ∀ s t u : State, R s t → E t u → E s u)

include hR hafter

/-- A record ends after a change of other parts. -/
theorem conclude_changes {F : List Part} (hc : Changes F s t) (hF : within F otherParts = true) (hq : Part.queues.isIn F = false)
    (hx : Concludes E q (s.queue q).head) (st : Status) (n : Nat) (d : Detail) (hit : Bool) :
    E s (finishControl q st n d hit t) :=
  hafter _ _ _ (hR.of_changes hc hF) (hx.finish (by rw [hc.queue hq]) st n d hit)

theorem park_changes {F : List Part} (hc : Changes F s t) (hF : within F otherParts = true) (hq : Part.queues.isIn F = false)
    (hx : Concludes E q (s.queue q).head) : E s (parkControl q t) :=
  hafter _ _ _ (hR.of_changes hc hF) (hx.park (by rw [hc.queue hq]))

theorem chainLoad (hx : Concludes E q (s.queue q).head) (pin : Bool) (addr : Word) : E s (chainLoad q pin addr s) := by
  have hfin := hx.finish rfl
  unfold Machine.chainLoad
  split
  · dsimp only
    split
    · exact hfin _ _ _ _
    · split
      · exact hfin _ _ _ _
      · split
        · exact conclude_changes hR hafter ((changes_setEntry ..).trans (touchEntry_changes ..)) rfl rfl hx _ _ _ _
        · exact park_changes hR hafter (joinFill_changes ..) rfl rfl hx
  · split
    · exact hfin _ _ _ _
    · split
      · exact park_changes hR hafter (joinRequest_changes ..) rfl rfl hx
      · split
        · exact park_changes hR hafter (placeRequest_changes ..) rfl rfl hx
        · exact hx.wait rfl

theorem chainControl (hx : Concludes E q (s.queue q).head) (action : ChainAction) (addr : Word) :
    E s (chainControl q action addr s) := by
  have hfin := hx.finish rfl
  cases action with
  | load => exact chainLoad hR hafter hx false addr
  | loadPin => exact chainLoad hR hafter hx true addr
  | unpin =>
    change E s (chainUnpin q addr s)
    unfold chainUnpin
    split
    · dsimp only
      split
      · exact conclude_changes hR hafter (changes_setEntry ..) rfl rfl hx _ _ _ _
      · exact hfin _ _ _ _
    · exact hfin _ _ _ _
  | invalidate =>
    change E s (chainInvalidate q addr s)
    unfold chainInvalidate
    split
    · exact conclude_changes hR hafter (invalidate_changes ..) rfl rfl hx _ _ _ _
    · exact hfin _ _ _ _
  | invalidateAll =>
    change E s (chainInvalidateAll q s)
    unfold chainInvalidateAll
    exact conclude_changes hR hafter (invalidateAll_changes entryIds s) rfl rfl hx _ _ _ _

end

section

variable (hR : Closed R)

include hR

theorem retryControlPlace (hx : ∀ q, s.cu.work = some (.placeWait q) → Concludes R q (s.queue q).head) :
    R s (retryControlPlace s) := by
  unfold Machine.retryControlPlace
  split
  case h_1 q hw =>
    split
    · split
      · exact chainControl (E := R) hR (fun _ _ _ => hR.trans) (hx q hw) _ _
      · exact hR.refl s
    · exact hR.refl s
  case h_2 => exact hR.refl s

/-- FILL_BEGIN, where a record that waits for the CONTROL place ends within the relation in the state it is looked at. -/
theorem exec_fillBegin (order : List (Fin 4)) (s : State)
    (hx : ∀ (r : Request) (rest : List Request) (q : Fin 4),
      (Machine.retryJobPlace (Machine.beginFill r rest order s)).cu.work = some (.placeWait q) →
      Concludes R q ((Machine.retryJobPlace (Machine.beginFill r rest order s)).queue q).head) :
    Answers (R s) (exec (.fillBegin order) s) := by
  refine answers_taken (hR.refl s) ?_
  split
  case h_1 r rest _ _ =>
    exact hR.trans (hR.trans (hR.trans (hR.beginFill ..) (hR.retryJobPlace _)) (retryControlPlace hR (hx r rest)))
      (hR.drain _)
  case h_2 => exact hR.refl s

end

end Closed

theorem Ordinary.exec_snapshotWriteAnswer {R : State → State → Prop} (hR : Ordinary R) (ok : Bool) (s : State)
    (hrearm : ∀ q n a re bs, s.cu.work = some (.snapshot q n a re bs) → R s (s.setStream n (rearmStream (s.stream n))))
    (hfin : ∀ q n a re bs, s.cu.work = some (.snapshot q n a re bs) → ∀ {t : State}, (t.queue q).head = (s.queue q).head →
      ∀ st n d hit, R t (finishControl q st n d hit t)) :
    Answers (R s) (exec (.snapshotWriteAnswer ok) s) := by
  refine answers_taken (hR.refl s) ?_
  split
  case h_1 q n a re bs hw =>
    have hends := @hfin q n a re bs hw
    split
    · refine hR.trans ?_ (hR.drain _)
      split
      · exact hR.trans (hrearm q n a re bs hw) (hends (t := s.setStream n _) rfl _ _ _ _)
      · exact hends rfl _ _ _ _
    · exact hR.trans (hends rfl _ _ _ _) (hR.drain _)
  case h_2 => exact hR.refl s

namespace ControlClosed

variable {R E : State → State → Prop} {s t : State} {q : Fin 4}

theorem abortParked (hR : Closed R) (hwithdraw : ∀ p j, R s (withdrawSlot p j s)) {tq : Fin 4} {tpos : Nat} {th : Header}
    {body : ControlRec} (hh : (s.queue tq).head = .control tpos th body .parked) : R s (abortParked tq body s) := by
  unfold Machine.abortParked
  split
  case h_1 p j action =>
    refine hR.trans (hwithdraw p j) (hR.completeControl (pos := tpos) (h := th)
      (body := .bindSlot p j action) ?_ (.inr rfl) _ _ _ _)
    rw [(withdrawSlot_changes p j s).queue rfl, hh]
  case h_2 action addr =>
    refine hR.trans (hR.trans (hR.of_changes (withdrawWaiter_changes tq s) rfl) (hR.retryJobPlace _))
      (hR.completeControl (pos := tpos) (h := th) (body := .chainControl action addr) ?_ (.inr rfl) _ _ _ _)
    have hq : (withdrawWaiter tq s).queue tq = s.queue tq := (withdrawWaiter_changes tq s).queue rfl tq
    rw [retryJobPlace_queue _ (by rw [hq, hh]; rfl), hq, hh]
  case h_3 => exact hR.completeControl hh (.inr rfl) _ _ _ _

theorem abortParked_queue_ne {tq k : Fin 4} (body : ControlRec) (s : State) (hk : k ≠ tq)
    (hs : headIn .starting (s.queue k).head = false) : (Machine.abortParked tq body s).queue k = s.queue k := by
  unfold Machine.abortParked
  rw [completeControl_queue_ne _ _ _ _ _ hk]
  split
  · exact (withdrawSlot_changes ..).queue rfl k
  · have hq : (withdrawWaiter tq s).queue k = s.queue k := (withdrawWaiter_changes tq s).queue rfl k
    rw [retryJobPlace_queue _ (by rwa [hq]), hq]
  · rfl

theorem not_starting_of_executing {h : Head} (hx : ctlIn .executing h = true) : headIn .starting h = false := by
  obtain ⟨pos, hd, body, rfl⟩ := (ctlIn_iff .executing h).mp hx
  rfl

/-- An executing ABORT. -/
theorem abortTarget (hR : ControlClosed R E) (hwithdraw : ∀ p j, R s (withdrawSlot p j s)) (tq : Fin 4)
    (hx : ctlIn .executing (s.queue q).head = true) : E s (abortTarget q tq s) := by
  unfold Machine.abortTarget
  split
  case h_1 tpos th j hh =>
    have hne : q ≠ tq := by
      rintro rfl
      rw [hh] at hx
      cases hx
    split
    case h_1 hj =>
      exact hR.concludeAfter (hR.completeJob hh (.inl hj) _) (by rwa [completeJob_queue_ne _ _ hne]) _ _ _ _
    case h_2 hj =>
      exact hR.concludeAfter (hR.completeJob hh (.inr hj) _) (by rwa [completeJob_queue_ne _ _ hne]) _ _ _ _
    case h_3 hj =>
      have hwait : R s (withdrawWaiter tq s) := hR.of_changes (withdrawWaiter_changes ..) rfl
      refine hR.concludeAfter (hR.trans hwait (hR.fail (pos := tpos) (h := th) (j := j) .aborted ?_ hj)) ?_ _ _ _ _
      · rw [(withdrawWaiter_changes tq s).queue rfl, hh]
      · rwa [failStart_queue_ne _ _ hne, (withdrawWaiter_changes tq s).queue rfl]
    case h_4 hj =>
      refine hR.after (hR.of_changes (changes_stopReq s true) rfl) (hR.busy (s := { s with stopReq := true }) _ hx (fun a t hw => ?_)
        fun _ _ _ _ _ => nofun)
      cases hw
      exact (headIn_iff _ _).mpr ⟨_, _, _, hh, hj⟩
  case h_2 tpos th body st hh =>
    cases st with
    | controlWait =>
      have hne : q ≠ tq := by
        rintro rfl
        rw [hh] at hx
        cases hx
      exact hR.concludeAfter (hR.completeControl hh (.inl rfl) _ _ _ _) (by rwa [completeControl_queue_ne _ _ _ _ _ hne]) _ _ _ _
    | parked =>
      have hne : q ≠ tq := by
        rintro rfl
        rw [hh] at hx
        cases hx
      refine hR.concludeAfter (abortParked hR.toClosed hwithdraw hh) ?_ _ _ _ _
      rwa [abortParked_queue_ne body s hne (not_starting_of_executing hx)]
    | executing => exact hR.conclude _ _ _ _ hx
  case h_3 => exact hR.conclude _ _ _ _ hx

/-- The record changes the stream table, the slot maps or the context table. -/
def touchesTables : ControlRec → Bool
  | .defineStream _ _ _ _ _ _ _ _ => true
  | .retireStream _ => true
  | .bindSlot _ _ _ => true
  | .clearContext _ => true
  | _ => false

/-- An executing control record, for a relation that holds across the records that change a table. -/
theorem executeControl (hR : ControlClosed R E) (hwithdraw : ∀ p j, R s (withdrawSlot p j s)) {body : ControlRec}
    (hx : ctlIn .executing (s.queue q).head = true) (htable : touchesTables body = true → E s (executeControl q body s)) :
    E s (executeControl q body s) := by
  cases body with
  | readStream n addr rearm =>
    rw [Machine.executeControl, execRead]
    split
    case isTrue hdef =>
      refine hR.busy (.snapshot q n addr rearm _) hx (fun _ _ => nofun) fun q' n' a re bs hw => ?_
      cases hw
      exact hdef
    · exact hR.conclude _ _ _ _ hx
  | chainControl action addr => exact Closed.chainControl (E := E) hR.toClosed (fun _ _ _ => hR.after) (hR.concludes hx) action addr
  | abort tq tag =>
    rw [Machine.executeControl, execAbort]
    split
    · exact hR.abortTarget hwithdraw tq hx
    · exact hR.conclude _ _ _ _ hx
  | marker => exact hR.conclude _ _ _ _ hx
  | _ => exact htable rfl

end ControlClosed

/-! ### The ports -/

namespace Ordinary

variable {R : State → State → Prop} {s t : State} {p : PortId}

theorem takeSlots (hR : Ordinary R) (htake : ∀ s n f, R s (portTake n f s)) (frame : Word) (slots : List (Fin 32)) (s : State) :
    R s (takeSlots p frame slots s) := by
  induction slots generalizing s with
  | nil => exact hR.refl s
  | cons j rest ih =>
    refine hR.trans ?_ (ih _)
    cases h : slotStream (s.port p) .tx j with
    | none =>
      rw [takeSlot_of_unbound h]
      exact hR.of_changes (changes_setPort ..) rfl
    | some n =>
      rw [takeSlot_of_bound h]
      exact hR.next (htake s n frame) (changes_setPort ..) rfl

theorem appendSlots (hR : Ordinary R) (happend : ∀ s n f x, R s (portAppend n f x s)) (frame : Word) (slots : List (Fin 32))
    (s : State) : R s (appendSlots p frame slots s) := by
  induction slots generalizing s with
  | nil => exact hR.refl s
  | cons j rest ih =>
    refine hR.trans ?_ (ih _)
    unfold appendSlot
    split
    · exact happend ..
    · exact hR.refl s

theorem applySlots (hR : Ordinary R) (hmirror : ∀ s n dir m, R s (setMirror n dir m s)) (slots : List (Fin 32)) (s : State) :
    R s (applySlots p slots s) := by
  have hslot : ∀ j s, R s (applySlot p j s) := fun j s => by
    unfold applySlot
    dsimp only
    split
    · exact hR.refl s
    · exact hR.trans (hR.of_changes (changes_setPort ..) rfl) (hmirror ..)
    · split
      · exact hR.trans (hR.of_changes (changes_setPort ..) rfl) (hmirror ..)
      · exact hR.of_changes (changes_setPort ..) rfl
  induction slots generalizing s with
  | nil => exact hR.refl s
  | cons j rest ih => exact hR.trans (hslot j s) (ih _)

theorem lockEvent (hR : Ordinary R) (htake : ∀ s n f, R s (portTake n f s)) : R s (lockEvent p s) :=
  hR.trans (hR.next (hR.trans (hR.of_changes (changes_setPort ..) rfl) (hR.takeSlots htake ..)) (changes_setPort ..) rfl)
    (hR.event ..)

/-- A line event, for a relation that holds across the takes, the appends and the mirrors. -/
theorem takeLineEvent (hR : Ordinary R) (htake : ∀ s n f, R s (portTake n f s)) (happend : ∀ s n f x, R s (portAppend n f x s))
    (hmirror : ∀ s n dir m, R s (setMirror n dir m s)) (d : LineDue) : R s (takeLineEvent p d s) := by
  cases d with
  | frame mark =>
    rw [Machine.takeLineEvent, frameEvent_eq]
    refine hR.trans (hR.next ?_ (changes_setPort ..) rfl) (hR.releaseParked ..)
    exact hR.trans (hR.trans (hR.takeSlots htake ..) (hR.appendSlots happend ..)) (hR.applySlots hmirror ..)
  | huntMark => exact hR.of_changes (changes_setPort ..) rfl
  | drop => exact hR.of_changes (changes_setPort ..) rfl
  | lock => exact hR.lockEvent htake
  | loss reason =>
    exact hR.trans (hR.trans (hR.trans (hR.of_changes (changes_setPort ..) rfl) (hR.event ..)) (hR.applySlots hmirror ..))
      (hR.releaseParked ..)

theorem bitClock (hR : Ordinary R) (hline : ∀ d, (s.port p).due = some d → R s (Machine.takeLineEvent p d s)) (din sync : Bool) :
    R s (bitClock p din sync s) := by
  have hdue : R s (takeDue p s) := by
    cases hd : (s.port p).due with
    | none =>
      rw [takeDue_of_none hd]
      exact hR.refl s
    | some d =>
      rw [takeDue_of_due hd]
      exact hline d hd
  exact hR.next hdue (changes_setPort ..) rfl

end Ordinary

end Sys2Proof.Machine
end

section
/-! SUPPORT. What every operation inside a command keeps of the engine state, of the records in the heads and of the completion
writer: no record appears, nothing starts outside RUNNING, and a muted writer posts nothing. -/

namespace Sys2Proof.Machine

open Sys2Proof

/-! ### Heads and the writer from one state to the next -/

/-- The decoded record a head holds. -/
def heldRecord : Head → Option (DataRec ⊕ ControlRec)
  | .data _ _ j => some (.inl j.data)
  | .control _ _ body _ => some (.inr body)
  | _ => none

/-- A head holds the record it held, or none; unless `run`, it begins no fetch and enters neither STARTING nor EXECUTING. -/
structure HeadMoves (run : Prop) (h h' : Head) : Prop where
  record : heldRecord h' = none ∨ heldRecord h' = heldRecord h
  fetching : ¬ run → ∀ pos, h' = .fetching pos → h = .fetching pos
  starting : ¬ run → headIn .starting h' = true → headIn .starting h = true
  executing : ¬ run → ctlIn .executing h' = true → ctlIn .executing h = true

theorem HeadMoves.refl (run : Prop) (h : Head) : HeadMoves run h h :=
  ⟨.inr rfl, fun _ _ => id, fun _ => id, fun _ => id⟩

theorem HeadMoves.trans {run run' : Prop} {h h' h'' : Head} (a : HeadMoves run h h') (b : HeadMoves run' h' h'')
    (hr : run' → run) : HeadMoves run h h'' where
  record := b.record.elim .inl fun heq => heq ▸ a.record
  fetching := fun hn pos hp => a.fetching hn pos (b.fetching (fun h => hn (hr h)) pos hp)
  starting := fun hn hp => a.starting hn (b.starting (fun h => hn (hr h)) hp)
  executing := fun hn hp => a.executing hn (b.executing (fun h => hn (hr h)) hp)

theorem headMoves_empty (run : Prop) (h : Head) : HeadMoves run h .empty := ⟨.inl rfl, fun _ _ => nofun, nofun, nofun⟩

theorem headMoves_fetching {run : Prop} (h : Head) (pos : Nat) (hr : run) : HeadMoves run h (.fetching pos) :=
  ⟨.inl rfl, fun hn => absurd hr hn, nofun, nofun⟩

/-- The completion writer keeps its writes in agreement with WRLIST, and its counters. -/
structure WriterMoves (c c' : CqWriter) : Prop where
  writing : (c.wr = .idle ↔ c.wrlist = []) → (c'.wr = .idle ↔ c'.wrlist = [])
  ctimer : c'.ctimer = c.ctimer
  ccount : c'.ccount = c.ccount

theorem WriterMoves.refl (c : CqWriter) : WriterMoves c c := ⟨id, rfl, rfl⟩

theorem WriterMoves.trans {c c' c'' : CqWriter} (a : WriterMoves c c') (b : WriterMoves c' c'') : WriterMoves c c'' :=
  ⟨fun h => b.writing (a.writing h), b.ctimer.trans a.ctimer, b.ccount.trans a.ccount⟩

theorem writerMoves_cqPost (c : CqWriter) (r : CqRec) : WriterMoves c (cqPost c r) := by
  refine ⟨fun _ => ?_, rfl, rfl⟩
  have hwr : (cqPost c r).wr ≠ .idle := by
    simp only [cqPost]
    split
    · exact nofun
    case isFalse h => exact h
  have hlist : (cqPost c r).wrlist ≠ [] := by simp [cqPost]
  exact ⟨fun h => absurd h hwr, fun h => absurd h hlist⟩

theorem writerMoves_cqPostReserved (c : CqWriter) (r : CqRec) : WriterMoves c (cqPostReserved c r) := by
  obtain ⟨hwriting, -, -⟩ := writerMoves_cqPost c r
  exact ⟨hwriting, rfl, rfl⟩

/-- The engine is in OFF or CONFIGURING (R169). -/
def engineRests (s : State) : Prop := s.eng.st = .off ∨ s.eng.st = .configuring

/-- The writer takes nothing: FAULTED, or OFF or CONFIGURING with no record in a head. -/
def Muted (s : State) : Prop := s.eng.st = .faulted ∨ engineRests s ∧ ∀ q, heldRecord (s.queue q).head = none

/-- What an operation inside a command keeps of the engine state, the heads and the writer. -/
structure LooseMoves (s t : State) : Prop where
  eng : t.eng = s.eng ∨ s.eng.st = .draining ∧ t.eng = { s.eng with st := .halted }
  heads : ∀ q, HeadMoves (s.eng.st = .running) (s.queue q).head (t.queue q).head
  writer : WriterMoves s.cq t.cq

namespace LooseMoves

variable {s t u : State}

theorem refl (s : State) : LooseMoves s s := ⟨.inl rfl, fun _ => HeadMoves.refl .., WriterMoves.refl _⟩

theorem st_eq (h : LooseMoves s t) : t.eng.st = s.eng.st ∨ s.eng.st = .draining ∧ t.eng.st = .halted :=
  h.eng.imp (congrArg Engine.st) fun ⟨hd, he⟩ => ⟨hd, congrArg Engine.st he⟩

theorem running (h : LooseMoves s t) (ht : t.eng.st = .running) : s.eng.st = .running := by
  obtain he | ⟨-, he⟩ := h.st_eq
  · rwa [← he]
  · exact absurd (ht.symm.trans he) nofun

theorem rests (h : LooseMoves s t) : engineRests t ↔ engineRests s := by
  unfold engineRests
  obtain he | ⟨hs, ht⟩ := h.st_eq
  · rw [he]
  · rw [hs, ht]
    simp

theorem faulted (h : LooseMoves s t) : t.eng.st = .faulted ↔ s.eng.st = .faulted := by
  obtain he | ⟨hs, ht⟩ := h.st_eq
  · rw [he]
  · rw [hs, ht]
    simp

theorem muted_next (h : LooseMoves s t) (hm : Muted s) : Muted t := by
  obtain hf | ⟨hr, hnone⟩ := hm
  · exact .inl (h.faulted.mpr hf)
  · exact .inr ⟨h.rests.mpr hr, fun q => (h.heads q).record.elim id fun heq => heq.trans (hnone q)⟩

theorem trans (h : LooseMoves s t) (h' : LooseMoves t u) : LooseMoves s u where
  eng := by
    obtain he | ⟨hd, he⟩ := h.eng
    · rw [← he]
      exact h'.eng
    · obtain he' | ⟨hd', -⟩ := h'.eng
      · exact .inr ⟨hd, he'.trans he⟩
      · rw [he] at hd'
        cases hd'
  heads := fun q => (h.heads q).trans (h'.heads q) h.running
  writer := h.writer.trans h'.writer

/-- One head moves. -/
theorem of_setQueue {q : Fin 4} {r : QueueRec} (hm : HeadMoves (s.eng.st = .running) (s.queue q).head r.head) :
    LooseMoves s (s.setQueue q r) where
  eng := .inl rfl
  heads := fun k => by
    by_cases hk : k = q
    · subst hk
      rwa [State.queue_setQueue_self]
    · rw [State.queue_setQueue_ne _ _ hk]
      exact HeadMoves.refl ..
  writer := WriterMoves.refl _

theorem of_cq {c : CqWriter} (hc : WriterMoves s.cq c) : LooseMoves s { s with cq := c } :=
  ⟨.inl rfl, fun _ => HeadMoves.refl .., hc⟩

theorem of_waits (l : List (Fin 4 × Purpose)) : LooseMoves s { s with waitList := l } :=
  ⟨.inl rfl, fun _ => HeadMoves.refl .., WriterMoves.refl _⟩

end LooseMoves

/-- What an operation inside a command keeps, a muted writer and its wait list included. -/
structure Moves (s t : State) : Prop extends LooseMoves s t where
  muted : Muted s → t.waitList = s.waitList ∧ t.cq = { s.cq with resv := t.cq.resv }

namespace Moves

variable {s t u : State}

theorem refl (s : State) : Moves s s := ⟨LooseMoves.refl s, fun _ => ⟨rfl, rfl⟩⟩

theorem trans (h : Moves s t) (h' : Moves t u) : Moves s u where
  toLooseMoves := h.toLooseMoves.trans h'.toLooseMoves
  muted := fun hm => by
    obtain ⟨hw, hc⟩ := h.muted hm
    obtain ⟨hw', hc'⟩ := h'.muted (h.muted_next hm)
    exact ⟨hw'.trans hw, hc'.trans (by rw [hc])⟩

/-- Nothing of heads, writer and engine state changes. -/
theorem of_changes {F : List Part} (h : Changes F s t) (he : Part.eng.isIn F = false) (hq : Part.queues.isIn F = false)
    (hw : Part.waits.isIn F = false) (hc : Part.cq.isIn F = false) : Moves s t where
  eng := .inl (h.eng he)
  heads := fun q => by
    rw [h.queue hq]
    exact HeadMoves.refl ..
  writer := by
    rw [h.cq hc]
    exact WriterMoves.refl _
  muted := fun _ => ⟨h.waitList hw, by rw [h.cq hc]⟩

theorem of_setHead {q : Fin 4} {h : Head} (hm : HeadMoves (s.eng.st = .running) (s.queue q).head h) : Moves s (s.setHead q h) :=
  ⟨LooseMoves.of_setQueue hm, fun _ => ⟨rfl, rfl⟩⟩

theorem of_not_muted (h : LooseMoves s t) (hn : ¬ Muted s) : Moves s t := ⟨h, fun hm => absurd hm hn⟩

end Moves

theorem not_muted_of_live {s : State} (h : live s = true) : ¬ Muted s := by
  rw [live_iff] at h
  rintro (hf | ⟨hr | hr, -⟩) <;> simp_all

theorem not_muted_of_running {s : State} (h : s.eng.st = .running) : ¬ Muted s := not_muted_of_live ((live_iff s).mpr (.inl h))

/-- With a record in a head the writer is muted in FAULTED alone. -/
theorem faulted_of_muted {s : State} {q : Fin 4} (h : heldRecord (s.queue q).head ≠ none) (hm : Muted s) :
    s.eng.st = .faulted := hm.elim id fun ⟨_, hnone⟩ => absurd (hnone q) h

/-! ### The queue fetcher -/

section

variable {s : State}

theorem issueFetch_loose (q : Fin 4) (hrun : s.eng.st = .running) : LooseMoves s (issueFetch q s) :=
  (LooseMoves.of_cq (c := { s.cq with resv := s.cq.resv + 1 }) ⟨id, rfl, rfl⟩).trans
    (LooseMoves.of_setQueue (headMoves_fetching _ _ hrun))

theorem askIfEligible_moves (q : Fin 4) (s : State) : Moves s (askIfEligible q s) := by
  by_cases he : eligible s q = true
  · obtain ⟨hrun, -, -, -, -⟩ := (eligible_iff s q).mp he
    by_cases hl : listed s q = true
    · rw [askIfEligible_of_listed hl]
      exact Moves.refl s
    · refine Moves.of_not_muted ?_ (not_muted_of_running hrun)
      rw [askIfEligible_of_eligible he (Bool.eq_false_iff.mpr hl), askFetch]
      split
      · exact LooseMoves.of_waits _
      · exact issueFetch_loose q hrun
  · rw [askIfEligible_of_not_eligible (Bool.eq_false_iff.mpr he)]
    exact Moves.refl s

theorem flushedQueue_headMoves (run : Prop) (r : QueueRec) : HeadMoves run r.head (flushedQueue r).head := by
  unfold flushedQueue
  split
  · exact HeadMoves.refl ..
  · exact headMoves_empty ..

theorem flushEffect_loose (q : Fin 4) (s : State) : LooseMoves s (flushEffect q s) :=
  (LooseMoves.of_cq (writerMoves_cqPostReserved ..)).trans (LooseMoves.of_setQueue (flushedQueue_headMoves ..))

/-- A reservation granted to a queue that leaves the wait list. -/
theorem reserve_unlist_loose (q : Fin 4) (s : State) : LooseMoves s (reserve (unlist s q)) :=
  (LooseMoves.of_waits _).trans (LooseMoves.of_cq ⟨id, rfl, rfl⟩)

theorem flushOwn_loose (q : Fin 4) (s : State) : LooseMoves s (flushOwn q s) := by
  unfold flushOwn
  split
  · have hpend : LooseMoves s (s.setQueue q { s.queue q with flushPend := true }) := LooseMoves.of_setQueue (HeadMoves.refl ..)
    refine hpend.trans ?_
    unfold listForFlush
    split
    · exact LooseMoves.of_waits _
    · exact LooseMoves.of_waits _
  · exact (reserve_unlist_loose q s).trans (flushEffect_loose ..)

theorem serveEntries_loose (l : List (Fin 4 × Purpose)) (s : State) : LooseMoves s (serveEntries l s) := by
  induction l generalizing s with
  | nil => exact LooseMoves.refl s
  | cons e rest ih =>
    obtain ⟨q, p⟩ := e
    unfold serveEntries
    split
    · exact ih s
    case isFalse hp =>
      split
      · exact LooseMoves.refl s
      · cases p with
        | fetch =>
          have hrun : s.eng.st = .running := by simpa [purposeServed] using hp
          have hun : LooseMoves s (unlist s q) := LooseMoves.of_waits _
          exact (hun.trans (issueFetch_loose q hrun)).trans (ih _)
        | flush => exact ((reserve_unlist_loose q s).trans (flushEffect_loose ..)).trans (ih _)

theorem completeHead_loose (q : Fin 4) (r : CqRec) (s : State) : LooseMoves s (completeHead q r s) := by
  by_cases hf : s.eng.st = .faulted
  · rw [completeHead_of_faulted q r hf]
    exact (LooseMoves.of_cq (c := { s.cq with resv := s.cq.resv - 1 }) ⟨id, rfl, rfl⟩).trans
      (LooseMoves.of_setQueue (headMoves_empty ..))
  · rw [completeHead_of_posting q r hf]
    have hpost : LooseMoves s ({ s with cq := cqPostReserved s.cq r }.setHead q .empty) :=
      (LooseMoves.of_cq (writerMoves_cqPostReserved ..)).trans (LooseMoves.of_setQueue (headMoves_empty ..))
    refine hpost.trans ?_
    unfold afterEmpty
    split
    · exact flushOwn_loose ..
    · exact (askIfEligible_moves ..).toLooseMoves

theorem completeHead_moves {q : Fin 4} (r : CqRec) (hm : Muted s → s.eng.st = .faulted) : Moves s (completeHead q r s) where
  toLooseMoves := completeHead_loose q r s
  muted := fun h => by
    rw [completeHead_of_faulted q r (hm h)]
    exact ⟨rfl, rfl⟩

theorem postSummary_writer (s : State) : WriterMoves s.cq (postSummary s).cq := by
  unfold postSummary
  split
  · exact WriterMoves.refl _
  · obtain ⟨hwriting, -, -⟩ := writerMoves_cqPost s.cq (summaryRec s)
    exact ⟨hwriting, rfl, rfl⟩

theorem raiseEvent_moves (s : State) (kind : EvKind) (subject : Nat) (reason : EvReason) :
    Moves s (raiseEvent s kind subject reason) := by
  cases hl : live s with
  | false =>
    rw [raiseEvent_of_not_live hl]
    exact Moves.refl s
  | true =>
    refine Moves.of_not_muted ⟨.inl (raiseEvent_eng ..), fun q => ?_, ?_⟩ (not_muted_of_live hl)
    · rw [(raiseEvent_changes s kind subject reason).queue rfl]
      exact HeadMoves.refl ..
    · unfold raiseEvent
      rw [hl]
      dsimp only
      split
      · exact WriterMoves.refl _
      · split
        · exact (postSummary_writer s).trans ⟨id, rfl, rfl⟩
        · exact (postSummary_writer s).trans (writerMoves_cqPost ..)

theorem checkDrain_moves (s : State) : Moves s (checkDrain s) := by
  by_cases hd : s.eng.st = .draining ∧ atRest s = true
  · rw [checkDrain, if_pos hd]
    refine ⟨⟨.inr ⟨hd.1, rfl⟩, fun q => HeadMoves.refl .., WriterMoves.refl _⟩, fun _ => ⟨rfl, rfl⟩⟩
  · rw [checkDrain, if_neg hd]
    exact Moves.refl s

end

/-! ### The operations of the blocks -/

section

variable {s : State} {q : Fin 4} {pos : Nat} {h : Header} {j : JobRec}

theorem completeJob_moves (q : Fin 4) (st : Status) (s : State) : Moves s (completeJob q st s) := by
  unfold completeJob
  split
  case h_1 hh => exact completeHead_moves _ (faulted_of_muted (q := q) (by rw [hh]; exact nofun))
  case h_2 => exact Moves.refl s

theorem finishControl_moves (q : Fin 4) (st : Status) (n : Nat) (d : Detail) (hit : Bool) (s : State) :
    Moves s (finishControl q st n d hit s) := by
  have hcu : Moves s { s with cu := { s.cu with work := none } } := Moves.of_changes (changes_cu ..) rfl rfl rfl rfl
  refine hcu.trans ?_
  unfold finishControl completeControl
  split
  case h_1 hh => exact completeHead_moves _ (faulted_of_muted (q := q) (by rw [hh]; exact nofun))
  case h_2 => exact Moves.refl _

theorem failStart_moves (q : Fin 4) (st : Status) (s : State) : Moves s (failStart q st s) := by
  unfold failStart
  split
  · dsimp only
    split
    · exact Moves.trans (Moves.of_changes ((releaseStreams_changes ..).trans (useEndOf_changes ..)) rfl rfl rfl rfl)
        (completeJob_moves ..)
    · exact Moves.trans (Moves.of_changes (useEndOf_changes ..) rfl rfl rfl rfl) (completeJob_moves ..)
  · exact Moves.refl s

/-- A job record that is not STARTING takes the place of another one of the same data record. -/
theorem setJob_moves {j' : JobRec} (hh : (s.queue q).head = .data pos h j) (hd : j'.data = j.data)
    (hs : s.eng.st ≠ .running → j'.jstate = .starting → j.jstate = .starting) : Moves s (s.setHead q (.data pos h j')) := by
  refine Moves.of_setHead ?_
  rw [hh]
  refine ⟨.inr (by simp only [heldRecord, hd]), fun _ _ => nofun, fun hn hst => ?_, fun _ => nofun⟩
  exact decide_eq_true (hs hn (of_decide_eq_true hst))

theorem enterRunning_moves (reads : List ReadChoice) (hh : (s.queue q).head = .data pos h j) :
    Moves s (enterRunning q reads s) := by
  have hdp : Moves s { holdContext j s with dp := freshDp s q j } :=
    Moves.of_changes ((holdContext_changes j s).trans (changes_dp ..)) rfl rfl rfl rfl
  have hhead : (State.queue { holdContext j s with dp := freshDp s q j } q).head = .data pos h j := by
    have hq : (State.queue { holdContext j s with dp := freshDp s q j } q) = s.queue q := (holdContext_changes j s).queue rfl q
    rw [hq, hh]
  unfold enterRunning
  rw [headJob_of_data hh]
  dsimp only
  rw [setJob_of_data hhead]
  refine (hdp.trans (setJob_moves (j' := runningRec s j) hhead rfl fun _ => nofun)).trans ?_
  exact Moves.of_changes ((loadDelay_changes _).trans (issueReads_changes ..)) rfl rfl rfl rfl

theorem endAbort_moves (q : Fin 4) (s : State) : Moves s (endAbort q s) := by
  unfold endAbort
  split
  · split
    · exact finishControl_moves ..
    · exact Moves.refl s
  · exact Moves.refl s

theorem endOfJob_moves (s : State) : Moves s (endOfJob s) := by
  have hidle : Changes [.dp, .stopReq] s { s with dp := Datapath.idle, stopReq := false } :=
    Changes.mono ((changes_dp s Datapath.idle).trans (changes_stopReq _ false)) rfl
  unfold endOfJob
  dsimp only
  split
  case h_1 hh =>
    refine Moves.trans (Moves.trans (Moves.trans (Moves.of_changes (((hidle.trans (endStreams_changes ..)).trans
      (endContext_changes ..)).trans (useEndOf_changes ..)) rfl rfl rfl rfl) (completeHead_moves _ ?_)) (endAbort_moves ..))
      (checkDrain_moves _)
    refine faulted_of_muted (q := s.dp.jobq) ?_
    rw [(((hidle.trans (endStreams_changes ..)).trans (endContext_changes ..)).trans (useEndOf_changes ..)).queue rfl, hh]
    exact nofun
  case h_2 => exact Moves.of_changes hidle rfl rfl rfl rfl

theorem heldRecord_of_completable {h : Head} (hc : completable h) : heldRecord h ≠ none := by
  cases h with
  | empty => exact hc.elim
  | fetching pos => exact hc.elim
  | data pos hd j => exact nofun
  | control pos hd body c => exact nofun

theorem parkControl_moves (q : Fin 4) (s : State) : Moves s (parkControl q s) := by
  unfold parkControl
  split
  case h_1 pos h body c hh =>
    have hcu : Moves s { s with cu := { s.cu with work := none } } := Moves.of_changes (changes_cu ..) rfl rfl rfl rfl
    refine hcu.trans (Moves.of_setHead ?_)
    have hq : (State.queue { s with cu := { s.cu with work := none } } q).head = .control pos h body c := hh
    rw [hq]
    exact ⟨.inr rfl, fun _ _ => nofun, fun _ => nofun, fun _ => nofun⟩
  case h_2 => exact Moves.refl s

theorem closed_moves : Closed Moves where
  refl := Moves.refl
  trans := Moves.trans
  other := fun h => Moves.of_changes h rfl rfl rfl rfl
  drain := checkDrain_moves
  event := raiseEvent_moves
  complete := fun r hc => completeHead_moves r (faulted_of_muted (heldRecord_of_completable hc))
  job := fun hh hj => setJob_moves hh hj.data fun _ hs => by
    obtain ⟨hst, -⟩ | ⟨-, hq, -⟩ := hj.state
    · rwa [← hst]
    · rw [hs] at hq
      exact hq.elim nofun nofun
  fail := fun st _ _ => failStart_moves ..
  run := fun reads hh _ _ => enterRunning_moves reads hh
  finish := fun _ => endOfJob_moves _

theorem controlClosed_moves : ControlClosed Moves Moves where
  toClosed := closed_moves
  after := Moves.trans
  conclude := fun _ _ _ _ _ => finishControl_moves ..
  park := fun _ => parkControl_moves ..
  busy := fun _ _ _ _ => Moves.of_changes (changes_cu ..) rfl rfl rfl rfl

end

end Sys2Proof.Machine
end

section
/-! SUPPORT. The commands that keep what every operation keeps; the silence of a stopped engine (R169, R177, R180), and the fault
state and the completion writes in agreement (R155, R162, R172, R179). -/

namespace Sys2Proof.Machine

open Sys2Proof

/-! ### The selection of a control record -/

section

variable {s : State}

/-- What a selection answers: the record of a head in CONTROL_WAIT executes. -/
theorem exec_controlSelect_answers {P : State → Prop} (hs : P s)
    (hrun : ∀ q pos h body, s.eng.st = .running → s.cu.work = none → (s.queue q).head = .control pos h body .controlWait →
      P (executeControl q body (executing q pos h body s))) : Answers P (exec .controlSelect s) := by
  refine answers_taken hs ?_
  split
  case isTrue hsel =>
    obtain ⟨hst, hidle⟩ := hsel
    have hwork : s.cu.work = none := by simpa [controlIdle] using hidle
    split
    case h_1 q hq =>
      have hhead : ctlIn .controlWait (s.queue q).head = true := List.find?_some (p := fun q => ctlIn .controlWait (s.queue q).head) hq
      obtain ⟨pos, h, body, hh⟩ := (ctlIn_iff _ _).mp hhead
      have hcu : (State.queue { s with cu := { s.cu with last := q } } q).head = .control pos h body .controlWait := hh
      have hexec : { s with cu := { s.cu with last := q } } = { s with cu := { work := none, last := q } } := by rw [← hwork]
      unfold selectAndExecute
      simp only [hh]
      rw [hexec]
      exact hrun q pos h body hst hwork hh
    case h_2 => exact hs
  case isFalse => exact hs

end

/-! ### The arbiter's grant -/

section

variable {s : State} {q : Fin 4} {pos : Nat} {h : Header} {j : JobRec}

theorem ready_of_arbiterChoice (hq : arbiterChoice s = some q) : headIn .ready (s.queue q).head = true := by
  unfold arbiterChoice at hq
  split at hq
  case isTrue hturn =>
    obtain rfl := Option.some.inj hq
    exact hturn.1
  case isFalse => exact List.find?_some (p := fun q => headIn .ready (s.queue q).head) hq

/-- The job record of a granted head whose streams are claimed. -/
def claimedRec (j : JobRec) : JobRec :=
  { j with jstate := .starting, trun := false, claims := decide (namedStreams j.data ≠ []) }

/-- The state in which a granted job goes on with its chain: its streams claimed, its head STARTING. -/
def claimedState (q : Fin 4) (pos : Nat) (h : Header) (j : JobRec) (s : State) : State :=
  (setClaims true (namedStreams j.data) s).setHead q (.data pos h (claimedRec j))

/-- A relation holds across a grant where it holds across the move of the turn and across the start of a job whose streams were
claimed. -/
theorem Ordinary.exec_grant {R : State → State → Prop} (hR : Ordinary R) (harb : ∀ q s, R s (arbiterMove q s))
    (reads : List ReadChoice) (s : State)
    (hstart : ∀ {s : State} {q : Fin 4} {pos : Nat} {h : Header} {j : JobRec}, s.eng.st = .running →
      (∀ k, jobActive (s.queue k).head = false) → (s.queue q).head = .data pos h j → j.jstate = .ready →
      claimResult s j.data = .granted → R s (chainStep q reads (claimedState q pos h j s))) :
    Answers (R s) (exec (.grant reads) s) := by
  refine answers_taken (hR.refl s) ?_
  split
  case isTrue hgrant =>
    obtain ⟨hrun, hnone⟩ := (mayGrant_iff s).mp hgrant
    split
    case h_1 q hq =>
      have hqueue : ∀ k, (arbiterMove q s).queue k = s.queue k := (arbiterMove_changes q s).queue rfl
      obtain ⟨pos, h, j, hh, hj⟩ := (headIn_iff _ _).mp (ready_of_arbiterChoice hq)
      rw [← hqueue] at hh
      have hrun' : (arbiterMove q s).eng.st = .running := by rw [(arbiterMove_changes q s).eng rfl, hrun]
      have hnone' : ∀ k, jobActive ((arbiterMove q s).queue k).head = false := fun k => by rw [hqueue, hnone]
      refine hR.trans (harb q s) ?_
      rw [enterStarting_of_data hh]
      cases hc : claimResult (arbiterMove q s) j.data with
      | failed st =>
        rw [startSequence_of_failed hc]
        exact hR.complete _ (by rw [hh]; exact .inr hj)
      | unready =>
        rw [startSequence_of_unready hc]
        exact hR.job hh ⟨rfl, rfl, .inr ⟨.inr hj, .inl rfl, rfl⟩⟩ (.inr hj) (.inl rfl) rfl
      | granted =>
        rw [startSequence_of_granted hc]
        exact hstart hrun' hnone' hh hj hc
    case h_2 => exact hR.refl s
  case isFalse => exact hR.refl s

theorem Closed.exec_grant {R : State → State → Prop} (hR : Closed R) (harb : ∀ q s, R s (arbiterMove q s))
    (hclaim : ∀ {s : State} {q : Fin 4} {pos : Nat} {h : Header} {j : JobRec}, s.eng.st = .running →
      (∀ k, jobActive (s.queue k).head = false) → (s.queue q).head = .data pos h j → j.jstate = .ready →
      claimResult s j.data = .granted → R s (claimedState q pos h j s)) (reads : List ReadChoice) (s : State) :
    Answers (R s) (exec (.grant reads) s) :=
  hR.ordinary.exec_grant harb reads s fun {s q pos h j} hrun hnone hh hj hc =>
    hR.trans (hclaim hrun hnone hh hj hc) (hR.chainStep (pos := pos) (h := h) (j := claimedRec j)
      (by rw [claimedState, State.queue_setHead_self]) rfl reads)

end

/-! ### The commands inside which only operations run -/

/-- The command runs operations of the blocks alone: no engine command, no register write with an effect, no answer to a setup
read, to a fetch or to a completion write, no tick and no reset. -/
def inner : Instr → Bool
  | .engctlNone => true
  | .irqpendWrite _ => true
  | .irqmaskWrite _ => true
  | .registerWriteIgnored _ _ _ => true
  | .waitTimerExpiry _ => true
  | .controlSelect => true
  | .snapshotWriteAnswer _ => true
  | .stopRequest => true
  | .changeNotice _ _ => true
  | .grant _ => true
  | .fillBegin _ => true
  | .fillReadAnswer _ _ _ _ => true
  | .computeSample _ => true
  | .dpReadAnswer _ _ _ => true
  | .dpReadError _ => true
  | .dpWriteAnswer _ => true
  | .dpWriteError _ => true
  | .frameEvent _ => true
  | .huntSyncMark _ => true
  | .candidateDrop _ => true
  | .lockEvent _ => true
  | .lossEvent _ => true
  | .staleAnswerDiscard _ _ => true
  | .bitClock _ _ _ => true
  | _ => false

namespace ControlClosed

/-- What the grant needs of a relation, besides the guarded updates: the move of the turn and the claim of a READY job. -/
structure GrantTables (R : State → State → Prop) : Prop where
  arbiter : ∀ q s, R s (arbiterMove q s)
  claim : ∀ {s : State} {q : Fin 4} {pos : Nat} {h : Header} {j : JobRec}, s.eng.st = .running →
    (∀ k, jobActive (s.queue k).head = false) → (s.queue q).head = .data pos h j → j.jstate = .ready →
    claimResult s j.data = .granted → R s (claimedState q pos h j s)

/-- The records of the datapath and a rearmed stream too. -/
structure Tables (R : State → State → Prop) : Prop extends GrantTables R where
  dp : ∀ {s t : State}, DpMoves s t → R s t
  rearm : ∀ (s : State) n, R s (s.setStream n (rearmStream (s.stream n)))

/-- The record that keeps the control unit busy ends within the relation, where it ends. -/
structure UnitConcludes (R : State → State → Prop) (s : State) : Prop where
  snapshot : ∀ q n a re bs, s.cu.work = some (.snapshot q n a re bs) → Concludes R q (s.queue q).head
  place : ∀ (r : Request) (rest : List Request) (order : List (Fin 4)) (q : Fin 4),
    (retryJobPlace (beginFill r rest order s)).cu.work = some (.placeWait q) →
    Concludes R q ((retryJobPlace (beginFill r rest order s)).queue q).head

/-- The line commands and the selection of a control record, for a relation that the line events and the selection keep. -/
theorem exec_portCommand {R : State → State → Prop} (hR : Ordinary R) {s : State}
    (hline : ∀ (p : PortId) (d : LineDue), (s.port p).due = some d → R s (takeLineEvent p d s))
    {c : Instr} (hselect : c = .controlSelect → Answers (R s) (exec c s)) (hc : inner c = true)
    (hports : Part.ports.isIn (commandParts c) = true) : Answers (R s) (exec c s) := by
  cases c with
  | controlSelect => exact hselect rfl
  | frameEvent p => exact exec_frameEvent_answers (hR.refl s) (hline p)
  | huntSyncMark p => exact exec_huntSyncMark_answers (hR.refl s) (hline p)
  | candidateDrop p => exact exec_candidateDrop_answers (hR.refl s) (hline p)
  | lockEvent p => exact exec_lockEvent_answers (hR.refl s) (hline p)
  | lossEvent p => exact exec_lossEvent_answers (hR.refl s) (hline p)
  | bitClock p din sync => exact answers_taken (hR.refl s) (hR.bitClock (hline p) din sync)
  | setupReadAnswer off a => cases hc
  | clear => cases hc
  | pinReset => cases hc
  | _ => exact absurd hports Bool.false_ne_true

/-- The command steps the datapath. -/
def stepsDatapath : Instr → Bool
  | .stopRequest => true
  | .computeSample _ => true
  | .dpReadAnswer _ _ _ => true
  | .dpReadError _ => true
  | .dpWriteAnswer _ => true
  | .dpWriteError _ => true
  | _ => false

/-- The datapath's commands, for a relation that every step of its records keeps. -/
theorem exec_datapath {R : State → State → Prop} (hR : Ordinary R) (hdp : ∀ {s t : State}, DpMoves s t → R s t) {c : Instr}
    (hc : stepsDatapath c = true) (s : State) : Answers (R s) (exec c s) := by
  cases c with
  | stopRequest => exact hR.exec_stopRequest hdp s
  | computeSample reads => exact hR.exec_computeSample hdp reads s
  | dpReadAnswer k data reads => exact hR.exec_dpReadAnswer hdp k data reads s
  | dpReadError k => exact hR.exec_dpReadError hdp k s
  | dpWriteAnswer k => exact hR.exec_dpWriteAnswer hdp k s
  | dpWriteError k => exact hR.exec_dpWriteError hdp k s
  | _ => cases hc

/-- The command grants a job, serves the chain loader, or ends a snapshot. -/
def servesUnits : Instr → Bool
  | .grant _ => true
  | .fillBegin _ => true
  | .fillReadAnswer _ _ _ _ => true
  | .snapshotWriteAnswer _ => true
  | _ => false

/-- The commands that run operations alone, for a relation that the units' and the datapath's commands keep, and those that change
the ports. -/
theorem exec_inner_of_units {R : State → State → Prop} (hR : Ordinary R) {s : State}
    (hother : ∀ t, Changes [.irqPend, .irqMask, .stale] s t → R s t) {c : Instr} (hc : inner c = true)
    (hunits : servesUnits c = true → Answers (R s) (exec c s)) (hdatapath : stepsDatapath c = true → Answers (R s) (exec c s))
    (hports : Part.ports.isIn (commandParts c) = true → Answers (R s) (exec c s)) : Answers (R s) (exec c s) := by
  have hrow : within (commandParts c) [.irqPend, .irqMask, .stale] = true → Answers (R s) (exec c s) := fun hF =>
    exec_keeps_of_parts fun t h => hother t (h.mono hF)
  cases c with
  | engctlNone => exact hrow rfl
  | irqpendWrite v => exact hrow rfl
  | irqmaskWrite v => exact hrow rfl
  | registerWriteIgnored offset strobes v => exact hrow rfl
  | staleAnswerDiscard k n => exact hrow rfl
  | waitTimerExpiry q => exact hR.exec_waitTimerExpiry q s
  | changeNotice n order => exact hR.exec_changeNotice n order s
  | snapshotWriteAnswer ok => exact hunits rfl
  | grant reads => exact hunits rfl
  | fillBegin order => exact hunits rfl
  | fillReadAnswer off a order reads => exact hunits rfl
  | stopRequest => exact hdatapath rfl
  | computeSample reads => exact hdatapath rfl
  | dpReadAnswer k data reads => exact hdatapath rfl
  | dpReadError k => exact hdatapath rfl
  | dpWriteAnswer k => exact hdatapath rfl
  | dpWriteError k => exact hdatapath rfl
  | controlSelect => exact hports rfl
  | frameEvent p => exact hports rfl
  | huntSyncMark p => exact hports rfl
  | candidateDrop p => exact hports rfl
  | lockEvent p => exact hports rfl
  | lossEvent p => exact hports rfl
  | bitClock p din sync => exact hports rfl
  | _ => cases hc

/-- The commands that run operations alone, for a relation that the rearm of a snapshot's stream keeps, the datapath's commands,
and those that change the ports. -/
theorem exec_inner_of_datapath {R : State → State → Prop} (hR : Closed R) (hT : GrantTables R) {s : State}
    (hU : UnitConcludes R s) (hother : ∀ t, Changes [.irqPend, .irqMask, .stale] s t → R s t) {c : Instr} (hc : inner c = true)
    (hrearm : ∀ q n a re bs, s.cu.work = some (.snapshot q n a re bs) → R s (s.setStream n (rearmStream (s.stream n))))
    (hdatapath : stepsDatapath c = true → Answers (R s) (exec c s))
    (hports : Part.ports.isIn (commandParts c) = true → Answers (R s) (exec c s)) : Answers (R s) (exec c s) := by
  refine exec_inner_of_units hR.ordinary hother hc (fun hunits => ?_) hdatapath hports
  cases c with
  | snapshotWriteAnswer ok => exact hR.ordinary.exec_snapshotWriteAnswer ok s hrearm fun q n a re bs hw => (hU.snapshot q n a re bs hw).finish
  | grant reads => exact hR.exec_grant hT.arbiter hT.claim reads s
  | fillBegin order => exact hR.exec_fillBegin order s fun r rest q => hU.place r rest order q
  | fillReadAnswer off a order reads => exact hR.exec_fillReadAnswer off a order reads s
  | _ => cases hunits

theorem exec_inner {R : State → State → Prop} (hR : ControlClosed R R) (hT : Tables R) {s : State} (hU : UnitConcludes R s)
    (hother : ∀ t, Changes [.irqPend, .irqMask, .stale] s t → R s t) {c : Instr} (hc : inner c = true)
    (hports : Part.ports.isIn (commandParts c) = true → Answers (R s) (exec c s)) : Answers (R s) (exec c s) :=
  exec_inner_of_datapath hR.toClosed hT.toGrantTables hU hother hc (fun _ _ _ _ _ _ => hT.rearm ..) (fun hd => exec_datapath hR.toClosed.ordinary hT.dp hd s) hports

/-- A relation across which every control record ends. -/
theorem unitConcludes {R : State → State → Prop} (hfin : ∀ q st n d hit (t : State), R t (finishControl q st n d hit t))
    (hpark : ∀ q (t : State), R t (parkControl q t)) (hcu : ∀ (t : State) c, R t { t with cu := c }) (s : State) :
    UnitConcludes R s :=
  have h : ∀ q hd, Concludes R q hd := fun q _ => ⟨fun _ st n d hit => hfin q st n d hit _, fun _ => hpark q _, fun _ => hcu _ _⟩
  ⟨fun _ _ _ _ _ _ => h .., fun _ _ _ _ _ => h ..⟩

end ControlClosed

/-! ### Control records that change a table -/

/-- The parts the records that change a stream or a slot may change, besides the end of their execution. -/
abbrev slotParts : List Part := [.store, .streams, .notices, .ports]

/-- The parts the records that change a table may change, besides the end of their execution. -/
abbrev tableParts : List Part := .contexts :: slotParts

namespace ControlClosed

variable {R E : State → State → Prop} (hR : ControlClosed R E) {s t : State} {q : Fin 4}

include hR

theorem concludeTable {F : List Part} (hst : R s t) (hc : Changes F s t) (hq : Part.queues.isIn F = false)
    (hx : ctlIn .executing (s.queue q).head = true) (st : Status) (n : Nat) (d : Detail) (hit : Bool) :
    E s (finishControl q st n d hit t) :=
  hR.concludeAfter hst (by rw [hc.queue hq]; exact hx) st n d hit

/-- An executing control record, for a relation that any change of streams and slots keeps. -/
theorem executeControl_of_streams (hstreams : ∀ {s t : State}, Changes slotParts s t → R s t) (body : ControlRec)
    (hx : ctlIn .executing (s.queue q).head = true)
    (hclear : ∀ c, (s.context c).held = false → R s (s.setContext c Context.unbound)) : E s (Machine.executeControl q body s) := by
  have htable : ∀ {F : List Part} {t : State}, Changes F s t → within F slotParts = true → Part.queues.isIn F = false →
      ∀ st n d hit, E s (finishControl q st n d hit t) := fun hc hF hq st n d hit =>
    concludeTable hR (hstreams (hc.mono hF)) hc hq hx st n d hit
  refine hR.executeControl (fun p j => hstreams ((withdrawSlot_changes p j s).mono rfl)) hx fun htouches => ?_
  cases body with
  | defineStream n base length hist producer consumer policy idle =>
    rw [Machine.executeControl, execDefine]
    split
    · exact hR.conclude _ _ _ _ hx
    · split
      · exact hR.conclude _ _ _ _ hx
      · exact htable (((changes_store ..).trans (changes_setStream ..)).trans (notify_changes ..)) rfl rfl _ _ _ _
  | retireStream n =>
    rw [Machine.executeControl]
    unfold execRetire
    split
    · exact htable ((changes_setStream ..).trans (notify_changes ..)) rfl rfl _ _ _ _
    · exact hR.conclude _ _ _ _ hx
  | bindSlot p j action =>
    rw [Machine.executeControl]
    unfold execBind
    split
    · split
      · have hc := recordPending_changes p j action q s
        exact hR.after (hstreams (hc.mono rfl)) (hR.park (by rw [hc.queue rfl]; exact hx))
      · exact htable ((recordPending_changes p j action q s).trans (applySlot_changes ..)) rfl rfl _ _ _ _
    · exact hR.conclude _ _ _ _ hx
  | clearContext c =>
    rw [Machine.executeControl, execClearContext]
    split
    · exact hR.conclude _ _ _ _ hx
    case isFalse hheld =>
      split
      · exact concludeTable hR (hclear c (Bool.eq_false_iff.mpr hheld)) (changes_setContext ..) rfl hx _ _ _ _
      · exact hR.conclude _ _ _ _ hx
  | _ => cases htouches

theorem executeControl_of_tables (htables : ∀ {s t : State}, Changes tableParts s t → R s t) (body : ControlRec)
    (hx : ctlIn .executing (s.queue q).head = true) : E s (Machine.executeControl q body s) :=
  hR.executeControl_of_streams (fun hc => htables (hc.mono rfl)) body hx fun c _ => htables ((changes_setContext s c _).mono rfl)

end ControlClosed

/-! ### Relations on the heads, the wait list, the engine and the completion writer -/

/-- A relation that reads of a state only the engine, the queues, the wait list and the completion writer. -/
structure RecordClosed (R : State → State → Prop) : Prop extends ControlClosed R R where
  tables : ∀ {F : List Part} {s t : State}, Changes F s t → Part.eng.isIn F = false → Part.queues.isIn F = false →
    Part.waits.isIn F = false → Part.cq.isIn F = false → R s t
  ended : ∀ q st n d hit s, R s (finishControl q st n d hit s)
  parked : ∀ q s, R s (parkControl q s)
  start : ∀ {s : State} {q : Fin 4} {pos : Nat} {h : Header} {j : JobRec}, s.eng.st = .running → (s.queue q).head = .data pos h j →
    R s (s.setHead q (.data pos h (claimedRec j)))
  select : ∀ {s : State} {q : Fin 4} {pos : Nat} {h : Header} {body : ControlRec}, s.eng.st = .running →
    (s.queue q).head = .control pos h body .controlWait → R s (s.setHead q (.control pos h body .executing))

namespace RecordClosed

variable {R : State → State → Prop} (hR : RecordClosed R) {s t : State} {q : Fin 4} {pos : Nat} {h : Header}

include hR

theorem exec_controlSelect (s : State) : Answers (R s) (exec .controlSelect s) := by
  refine exec_controlSelect_answers (hR.refl s) fun q pos h body hrun hidle hh => ?_
  have hcu : R s { s with cu := { work := none, last := q } } := hR.tables (changes_cu ..) rfl rfl rfl rfl
  refine hR.trans (hR.trans hcu (hR.select (s := { s with cu := { work := none, last := q } }) hrun hh))
    (hR.toControlClosed.executeControl_of_tables (fun hc => hR.tables hc rfl rfl rfl rfl) body ?_)
  rw [State.queue_setHead_self]
  rfl

theorem portTake (s : State) (n : Fin 48) (f : Word) : R s (portTake n f s) := by
  have hstream : ∀ r, R s (s.setStream n r) := fun r => hR.tables (changes_setStream ..) rfl rfl rfl rfl
  unfold Machine.portTake
  dsimp only
  split
  · exact hR.trans (hstream _) (hR.of_changes (notify_changes ..) rfl)
  · split
    · exact hR.trans (hstream _) (hR.event ..)
    · exact hstream _

theorem portAppend (s : State) (n : Fin 48) (f : Word) (x : Sample) : R s (portAppend n f x s) := by
  unfold Machine.portAppend
  dsimp only
  split
  · exact hR.tables (((changes_store ..).trans (changes_setStream ..)).trans (notify_changes ..)) rfl rfl rfl rfl
  · have hover : ∀ u, Changes [.streams, .store] s u → R s u := fun u h => hR.tables h rfl rfl rfl rfl
    have hfull : Changes [.streams, .store] s (if overrunReason (s.stream n) = .oldDropped then
        { s.setStream n (overrunRec (s.stream n) f) with
          store := storeWrite s.store (ringWord (s.stream n) (s.stream n).wrpos) x }
        else s.setStream n (overrunRec (s.stream n) f)) := by
      split
      · exact Changes.mono ((changes_setStream s n _).trans (changes_store ..)) rfl
      · exact (changes_setStream ..).mono rfl
    split
    · exact hR.trans (hover _ hfull) (hR.event ..)
    · exact hover _ hfull

theorem takeLineEvent (s : State) (p : PortId) (d : LineDue) : R s (takeLineEvent p d s) :=
  hR.toClosed.ordinary.takeLineEvent hR.portTake hR.portAppend (fun s n dir m => hR.tables (setMirror_changes n dir m s) rfl rfl rfl rfl) d

theorem claimed {j : JobRec} (hrun : s.eng.st = .running) (hh : (s.queue q).head = .data pos h j) :
    R s (claimedState q pos h j s) := by
  have hclaims := setClaims_changes true (namedStreams j.data) s
  refine hR.trans (hR.tables hclaims rfl rfl rfl rfl) (hR.start ?_ ?_)
  · rw [hclaims.eng rfl, hrun]
  · rw [hclaims.queue rfl, hh]

theorem commandTables : ControlClosed.Tables R where
  arbiter := fun q s => hR.tables (arbiterMove_changes q s) rfl rfl rfl rfl
  claim := fun hrun _ hh _ _ => hR.claimed hrun hh
  dp := fun h => hR.tables h.parts rfl rfl rfl rfl
  rearm := fun s n => hR.tables (changes_setStream s n _) rfl rfl rfl rfl

theorem exec_inner {c : Instr} (hc : inner c = true) (s : State) : Answers (R s) (exec c s) :=
  hR.toControlClosed.exec_inner hR.commandTables
    (ControlClosed.unitConcludes hR.ended hR.parked (fun t c => hR.tables (changes_cu t c) rfl rfl rfl rfl) s)
    (fun _ h => hR.tables h rfl rfl rfl rfl) hc
    (ControlClosed.exec_portCommand hR.toClosed.ordinary (fun p d _ => hR.takeLineEvent s p d)
      (fun h => by rw [h]; exact hR.exec_controlSelect s) hc)

end RecordClosed

theorem recordClosed_moves : RecordClosed Moves where
  toControlClosed := controlClosed_moves
  tables := Moves.of_changes
  ended := finishControl_moves
  parked := parkControl_moves
  start := fun hrun hh => setJob_moves (j' := claimedRec _) hh rfl fun hn => absurd hrun hn
  select := fun hrun hh => Moves.of_setHead (by
    rw [hh]
    exact ⟨.inr rfl, fun _ _ => nofun, fun _ => nofun, fun hn => absurd hrun hn⟩)

theorem exec_moves {c : Instr} (hc : inner c = true) (s : State) : Answers (Moves s) (exec c s) :=
  recordClosed_moves.exec_inner hc s

/-! ### Heads under every command -/

/-- The record a decode gives. -/
def decodedRecord (q : Fin 4) (bytes : List Byte) : Option (DataRec ⊕ ControlRec) :=
  (decodeBody q bytes).map fun
    | .data d => .inl d
    | .control c => .inr c

/-- The record of a head from one state to the next: none, the one it was, or one that decoded. -/
def RecordSteps (q : Fin 4) (h h' : Head) : Prop :=
  heldRecord h' = none ∨ heldRecord h' = heldRecord h ∨ ∃ bytes, heldRecord h' = decodedRecord q bytes

theorem RecordSteps.trans {q : Fin 4} {h h' h'' : Head} (a : RecordSteps q h h') (b : RecordSteps q h' h'') :
    RecordSteps q h h'' := by
  obtain hn | hs | hd := b
  · exact .inl hn
  · unfold RecordSteps
    rw [hs]
    exact a
  · exact .inr (.inr hd)

/-- A head from one state to the next: its record is none, the one it was, or one that decoded; unless `run`, it begins no fetch
and enters neither STARTING nor EXECUTING. -/
structure HeadSteps (q : Fin 4) (run : Prop) (h h' : Head) : Prop where
  record : RecordSteps q h h'
  fetching : ¬ run → ∀ pos, h' = .fetching pos → h = .fetching pos
  starting : ¬ run → headIn .starting h' = true → headIn .starting h = true
  executing : ¬ run → ctlIn .executing h' = true → ctlIn .executing h = true

theorem HeadMoves.steps {q : Fin 4} {run run' : Prop} {h h' : Head} (hm : HeadMoves run h h') (hr : run → run') :
    HeadSteps q run' h h' :=
  ⟨hm.record.imp_right .inl, fun hn => hm.fetching fun x => hn (hr x), fun hn => hm.starting fun x => hn (hr x),
    fun hn => hm.executing fun x => hn (hr x)⟩

/-- Every head from `s` to `t`. -/
def HeadsStep (s t : State) : Prop :=
  ∀ q, HeadSteps q (s.eng.st = .running ∨ t.eng.st = .running) (s.queue q).head (t.queue q).head

section

variable {s t u : State} {q : Fin 4}

theorem headsStep_of_heads (h : ∀ q, (t.queue q).head = (s.queue q).head) : HeadsStep s t := fun q => by
  rw [h q]
  exact (HeadMoves.refl (s.eng.st = .running) _).steps .inl

theorem headsStep_of_empty (h : ∀ q, (t.queue q).head = .empty) : HeadsStep s t := fun q => by
  rw [h q]
  exact (headMoves_empty (s.eng.st = .running) _).steps .inl

theorem LooseMoves.headsStep (h : LooseMoves u t) (hu : ∀ q, (u.queue q).head = (s.queue q).head)
    (hr : u.eng.st = .running → s.eng.st = .running ∨ t.eng.st = .running) : HeadsStep s t := fun q => by
  have hq := h.heads q
  rw [hu q] at hq
  exact hq.steps hr

theorem headsStep_setHead {h' : Head} (hq : HeadSteps q (s.eng.st = .running) (s.queue q).head h') :
    HeadsStep s (s.setHead q h') := fun k => by
  by_cases hk : k = q
  · subst hk
    rw [State.queue_setHead_self]
    exact ⟨hq.record, fun hn => hq.fetching fun x => hn (.inl x), fun hn => hq.starting fun x => hn (.inl x),
      fun hn => hq.executing fun x => hn (.inl x)⟩
  · rw [State.queue_setHead_ne _ _ hk]
    exact (HeadMoves.refl (s.eng.st = .running) _).steps .inl

theorem head_setQueue {r : QueueRec} (hr : r.head = (s.queue q).head) (k : Fin 4) :
    ((s.setQueue q r).queue k).head = (s.queue k).head := by
  by_cases hk : k = q
  · subst hk
    rw [State.queue_setQueue_self, hr]
  · rw [State.queue_setQueue_ne _ _ hk]

/-- A queue whose other fields change asks. -/
theorem askIfEligible_headsStep {r : QueueRec} (hr : r.head = (s.queue q).head) :
    HeadsStep s (askIfEligible q (s.setQueue q r)) :=
  (askIfEligible_moves q _).toLooseMoves.headsStep (head_setQueue hr) .inl

theorem newJob_queued (s : State) (d : DataRec) : queuedState (newJob s d).jstate := by
  rw [newJob]
  dsimp only
  split
  · exact .inr rfl
  · exact .inl rfl

theorem decodeHead_headsStep (q : Fin 4) (pos : Nat) (bytes : List Byte) (s : State) : HeadsStep s (decodeHead q pos bytes s) := by
  have hcomplete : ∀ r, HeadsStep s (completeHead q r s) := fun r =>
    (completeHead_loose q r s).headsStep (fun _ => rfl) .inl
  unfold decodeHead
  dsimp only
  split
  · exact hcomplete _
  case h_2 d hd =>
    unfold admitData
    split
    · exact hcomplete _
    · refine headsStep_setHead ⟨.inr (.inr ⟨bytes, ?_⟩), fun _ _ => nofun, fun _ hst => ?_, fun _ => nofun⟩
      · simp only [heldRecord, newJob, decodedRecord, hd, Option.map_some]
      · have hstart : (newJob s d).jstate = .starting := of_decide_eq_true hst
        have hqueued := newJob_queued s d
        rw [hstart] at hqueued
        exact hqueued.elim nofun nofun
  case h_3 c hc =>
    refine headsStep_setHead ⟨.inr (.inr ⟨bytes, ?_⟩), fun _ _ => nofun, fun _ => nofun, fun _ => nofun⟩
    simp only [heldRecord, decodedRecord, hc, Option.map_some]

theorem tickHead_headMoves (run : Prop) (h : Head) : HeadMoves run h (tickHead h) := by
  have hjob : ∀ j : JobRec, (tickJob j).data = j.data ∧ (tickJob j).jstate = j.jstate := fun j => by
    unfold tickJob
    split <;> exact ⟨rfl, rfl⟩
  cases h with
  | data pos hd j =>
    obtain ⟨hdata, hstate⟩ := hjob j
    exact ⟨.inr (by simp only [tickHead, heldRecord, hdata]), fun _ _ => nofun,
      fun _ h => by simpa only [tickHead, headIn, hstate] using h, fun _ => nofun⟩
  | empty => exact HeadMoves.refl ..
  | fetching pos => exact HeadMoves.refl ..
  | control pos hd body c => exact HeadMoves.refl ..

end

theorem queue_tickQueues {s : State} (hf : s.eng.st ≠ .faulted) (q : Fin 4) :
    (tickQueues s).queue q = tickQueue (s.queue q) := by
  rw [tickQueues, if_neg hf]
  fin_cases q <;> rfl

theorem exec_headsStep (c : Instr) (s : State) : Answers (HeadsStep s) (exec c s) := by
  have hsame : Part.queues.isIn (commandParts c) = false → Answers (HeadsStep s) (exec c s) := fun hq =>
    exec_keeps_of_parts fun t h => headsStep_of_heads fun q => by rw [h.queue hq]
  have hrefl : HeadsStep s s := headsStep_of_heads fun _ => rfl
  cases c with
  | run =>
    refine answers_taken hrefl ?_
    split
    · exact headsStep_of_heads fun q => by rw [(runFromOff_changes s).queue rfl]
    · have hserve := serveEntries_loose (acceptCommand .running s).waitList (acceptCommand .running s)
      have hask := hserve.trans ((((askIfEligible_moves 0 _).trans (askIfEligible_moves 1 _)).trans
        (askIfEligible_moves 2 _)).trans (askIfEligible_moves 3 _)).toLooseMoves
      refine hask.headsStep (fun _ => rfl) fun _ => .inr ?_
      obtain he | ⟨hd, -⟩ := hask.st_eq
      · exact he
      · cases hd
    · exact hrefl
  | clear =>
    refine answers_taken hrefl ?_
    split
    · exact headsStep_of_empty fun q => congrArg QueueRec.head (queue_reset q)
    · exact hrefl
  | pinReset => exact answers_next (headsStep_of_empty fun q => congrArg QueueRec.head (queue_reset q))
  | postAdvance q index =>
    refine answers_taken hrefl ?_
    split
    · exact askIfEligible_headsStep rfl
    · exact hrefl
  | postRestart q =>
    refine answers_taken hrefl ?_
    split
    · exact askIfEligible_headsStep rfl
    · exact hrefl
  | postFlush q =>
    refine answers_taken hrefl ?_
    dsimp only
    split
    · exact hrefl
    · split
      · exact hrefl
      · split
        · exact headsStep_of_heads (head_setQueue rfl)
        · split
          · exact (flushEffect_loose q s).headsStep (fun _ => rfl) .inl
          · exact (flushOwn_loose q s).headsStep (fun _ => rfl) .inl
  | cqheadWrite index =>
    refine answers_taken hrefl ?_
    split
    · dsimp only
      split
      · refine (serveEntries_loose _ _).headsStep (fun q => ?_) fun h => .inl ?_
        · rw [(postSummary_changes _).queue rfl]
          rfl
        · rw [(postSummary_changes _).eng rfl] at h
          exact h
      · exact headsStep_of_heads fun _ => rfl
    · exact hrefl
  | tick =>
    refine answers_taken hrefl ?_
    by_cases hf : s.eng.st = .faulted
    · have hkept : tickQueues s = s := if_pos hf
      have hqueue : ∀ q, (tickQueues s).queue q = s.queue q := fun q => by rw [hkept]
      exact headsStep_of_heads fun q => congrArg QueueRec.head (hqueue q)
    · intro q
      have hq : (tickQueues s).queue q = tickQueue (s.queue q) := queue_tickQueues hf q
      have hm := tickHead_headMoves (s.eng.st = .running) (s.queue q).head
      have hhead : ((tickQueues s).queue q).head = tickHead (s.queue q).head := by rw [hq, tickQueue]
      rw [← hhead] at hm
      exact hm.steps .inl
  | setupReadAnswer off a =>
    refine answers_taken hrefl ?_
    split
    · exact hrefl
    · split
      · dsimp only
        split
        · unfold setupDone
          split
          · exact headsStep_of_heads fun _ => rfl
          · dsimp only
            split
            · exact headsStep_of_heads fun _ => rfl
            · refine headsStep_of_empty fun q => ?_
              rw [setupAccept_queue, loadedQueue]
              split <;> rfl
        · exact hrefl
      · exact hrefl
  | headFetchData q bytes =>
    refine answers_taken hrefl ?_
    split
    · split
      · exact hrefl
      · split
        · have hempty : LooseMoves s (s.setQueue q { s.queue q with head := .empty, discard := false }) :=
            LooseMoves.of_setQueue (headMoves_empty ..)
          exact (hempty.trans (askIfEligible_moves q _).toLooseMoves).headsStep (fun _ => rfl) .inl
        · exact decodeHead_headsStep _ _ _ _
    · exact hrefl
  | headFetchError q =>
    refine answers_taken hrefl ?_
    split
    · split
      · have hempty : LooseMoves s (s.setQueue q { s.queue q with head := .empty, discard := false }) :=
          LooseMoves.of_setQueue (headMoves_empty ..)
        exact (hempty.trans (askIfEligible_moves q _).toLooseMoves).headsStep (fun _ => rfl) .inl
      · exact (completeHead_loose q _ _).headsStep (head_setQueue rfl) .inl
    · exact hrefl
  | halt => exact hsame rfl
  | engctlReservedCode code => exact hsame rfl
  | postReservedAction q => exact hsame rfl
  | setupadrWrite v => exact hsame rfl
  | resetRelease => exact hsame rfl
  | coalescingTimerExpiry => exact hsame rfl
  | bodyWriteAnswer => exact hsame rfl
  | phaseWriteAnswer => exact hsame rfl
  | cqWriteError => exact hsame rfl
  | _ => exact (exec_moves rfl s).imp fun t h => h.toLooseMoves.headsStep (fun _ => rfl) .inl

end Sys2Proof.Machine
end

section
/-! SUPPORT. The fault state and the completion writes in agreement under every command (R155, R162, R172, R179). -/

namespace Sys2Proof.Machine

open Sys2Proof

section

variable {s t u : State}

/-- The laws read the state, the fault, the setup read, and the writer's list, write and counters. -/
theorem engineSound_congr (h : EngineSound s) (hst : t.eng.st = s.eng.st) (hfault : t.eng.fault = s.eng.fault)
    (hidx : t.eng.faultIdx = s.eng.faultIdx) (hsetup : t.eng.setup.isSome = s.eng.setup.isSome)
    (hlist : t.cq.wrlist = s.cq.wrlist) (hwr : t.cq.wr = s.cq.wr) (htimer : t.cq.ctimer.isSome = s.cq.ctimer.isSome)
    (hcount : t.cq.ccount = s.cq.ccount) : EngineSound t where
  setup := by
    rw [SetupSound, hsetup, hst]
    exact h.setup
  faulted := by
    rw [hst, hfault, hidx, hlist]
    exact h.faulted
  rest := by
    rw [hst, hlist]
    exact h.rest
  writing := by
    rw [hwr, hlist]
    exact h.writing
  timer := by
    rw [htimer, hcount]
    exact h.timer
  faultIdx := by
    rw [hidx]
    exact h.faultIdx

/-- Only the command flags of the engine change. -/
theorem engineSound_flags (h : EngineSound s) {refused : Bool} {src : ErrSrc} {eq : Fin 4} :
    EngineSound { s with eng := { s.eng with refused := refused, errSrc := src, errQ := eq } } :=
  engineSound_congr h rfl rfl rfl rfl rfl rfl rfl rfl

theorem engineSound_refusePost (h : EngineSound s) (q : Fin 4) : EngineSound (refusePost q s) :=
  engineSound_congr h rfl rfl rfl rfl rfl rfl rfl rfl

theorem engineSound_refuseCqhead (h : EngineSound s) : EngineSound (refuseCqhead s) :=
  engineSound_congr h rfl rfl rfl rfl rfl rfl rfl rfl

theorem engineSound_of_loose (h : EngineSound s) (hr : ¬ engineRests s) (hf : s.eng.st ≠ .faulted) (hm : LooseMoves s t) :
    EngineSound t := by
  have hr' : ¬ engineRests t := fun ht => hr (hm.rests.mp ht)
  have hf' : t.eng.st ≠ .faulted := fun ht => hf (hm.faulted.mp ht)
  refine ⟨?_, fun ht => absurd ht hf', fun ht => absurd ht hr', hm.writer.writing h.writing, ?_, ?_⟩
  · have hsetup : t.eng.setup = s.eng.setup := by
      obtain he | ⟨-, he⟩ := hm.eng <;> rw [he]
    rw [SetupSound, hsetup]
    exact ⟨fun hsome => absurd (.inr (h.setup.mp hsome)) hr, fun hc => absurd (.inr hc) hr'⟩
  · rw [hm.writer.ctimer, hm.writer.ccount]
    exact h.timer
  · have hidx : t.eng.faultIdx = s.eng.faultIdx := by
      obtain he | ⟨-, he⟩ := hm.eng <;> rw [he]
    rw [hidx]
    exact h.faultIdx

/-- A muted writer keeps its list and its write. -/
theorem engineSound_of_muted (h : EngineSound s) (hmuted : Muted s) (hm : Moves s t) : EngineSound t := by
  obtain ⟨-, hc⟩ := hm.muted hmuted
  have he : t.eng = s.eng := by
    obtain he | ⟨hd, -⟩ := hm.eng
    · exact he
    · obtain hf | ⟨hr | hr, -⟩ := hmuted
      · rw [hd] at hf
        cases hf
      · rw [hd] at hr
        cases hr
      · rw [hd] at hr
        cases hr
  exact engineSound_congr h (congrArg Engine.st he) (congrArg Engine.fault he) (congrArg Engine.faultIdx he)
    (congrArg (fun e => e.setup.isSome) he) (by rw [hc]) (by rw [hc]) (by rw [hc]) (by rw [hc])

theorem engineSound_of_moves (h : EngineSound s) (hr : engineRests s → ∀ q, heldRecord (s.queue q).head = none)
    (hm : Moves s t) : EngineSound t := by
  by_cases hmuted : Muted s
  · exact engineSound_of_muted h hmuted hm
  · exact engineSound_of_loose h (fun hrest => hmuted (.inr ⟨hrest, hr hrest⟩)) (fun hf => hmuted (.inl hf)) hm.toLooseMoves

end

/-! ### RUN, setup and the completion writes -/

section

variable {s : State}

theorem engineSound_setupFail (h : EngineSound s) (hlist : s.cq.wrlist = []) (code : FaultCode) {idx : Nat} (hidx : idx ≤ 4) :
    EngineSound (setupFail code idx s) where
  setup := ⟨nofun, nofun⟩
  faulted := nofun
  rest := fun _ => hlist
  writing := h.writing
  timer := h.timer
  faultIdx := hidx

theorem engineSound_runFromOff (h : EngineSound s) (hoff : s.eng.st = .off) : EngineSound (runFromOff s) := by
  have hlist := h.rest (.inl hoff)
  have hread : EngineSound { s with eng := { s.eng with
      st := .configuring, refused := false, fault := .none, faultIdx := 0, setup := some (bufNew Config.setupBytes) } } :=
    ⟨⟨fun _ => rfl, fun _ => rfl⟩, nofun, fun _ => hlist, h.writing, h.timer, Nat.zero_le 4⟩
  unfold runFromOff
  dsimp only
  split
  · exact hread
  · exact engineSound_setupFail hread hlist _ (Nat.zero_le 4)

/-- The unit that a failing check of setup reports is a queue, a port or the completion ring. -/
theorem setupChecks_idx {r : SetupRec} {c : SetupCheck} (hc : c ∈ setupChecks r) : c.idx ≤ 4 := by
  have hover : ∀ (rings before : List MemRing), (∀ x ∈ rings, x.unit ≤ 4) → ∀ c ∈ overlapChecks before rings, c.idx ≤ 4 := by
    intro rings
    induction rings with
    | nil => exact fun _ _ c hc => absurd hc List.not_mem_nil
    | cons x rest ih =>
      intro before hx c hc
      obtain rfl | hc := List.mem_cons.mp hc
      · exact hx x List.mem_cons_self
      · exact ih _ (fun y hy => hx y (List.mem_cons_of_mem _ hy)) c hc
  have hrings : ∀ x ∈ setupRings r, x.unit ≤ 4 := by
    intro x hx
    simp only [setupRings, List.mem_append, List.mem_map, List.mem_singleton] at hx
    obtain ⟨q, -, rfl⟩ | rfl := hx
    · exact Nat.le_of_lt q.isLt
    · exact Nat.le_refl 4
  simp only [setupChecks, List.mem_append, List.mem_flatMap] at hc
  obtain ((((⟨q, -, hq⟩ | hcq) | hp) | hp) | ho) := hc
  · rw [queueChecks_eq] at hq
    have hidx : c.idx = q.val := by
      split at hq
      · simp only [List.mem_cons, List.not_mem_nil, or_false] at hq
        obtain rfl | rfl | rfl | rfl := hq <;> rfl
      · cases hq
    rw [hidx]
    exact Nat.le_of_lt q.isLt
  · rw [cqChecks_eq] at hcq
    simp only [List.mem_cons, List.not_mem_nil, or_false] at hcq
    obtain rfl | rfl | rfl | rfl := hcq <;> exact Nat.le_refl 4
  · rw [portChecks_eq] at hp
    simp only [List.mem_cons, List.not_mem_nil, or_false] at hp
    obtain rfl | rfl | rfl := hp <;> exact Nat.zero_le 4
  · rw [portChecks_eq] at hp
    simp only [List.mem_cons, List.not_mem_nil, or_false] at hp
    obtain rfl | rfl | rfl := hp <;> exact Nat.le_of_ble_eq_true rfl
  · exact hover _ _ hrings c ho

theorem engineSound_setupDone (h : EngineSound s) (hsetup : s.eng.setup.isSome = true) (b : ReadBuf) :
    EngineSound (setupDone b s) := by
  have hlist := h.rest (.inr (h.setup.mp hsetup))
  unfold setupDone
  split
  · exact engineSound_setupFail h hlist _ (Nat.zero_le 4)
  · dsimp only
    split
    case h_1 c hc => exact engineSound_setupFail h hlist _ (setupChecks_idx (List.mem_of_find?_eq_some hc))
    case h_2 => exact ⟨⟨nofun, nofun⟩, nofun, fun _ => rfl, ⟨fun _ => rfl, fun _ => rfl⟩, nofun, h.faultIdx⟩

theorem engineSound_reportCompletions (h : EngineSound s) : EngineSound (reportCompletions s) :=
  ⟨h.setup, h.faulted, h.rest, h.writing, nofun, h.faultIdx⟩

theorem engineSound_recordWritten (h : EngineSound s) (hw : s.cq.wr = .phase) : EngineSound (recordWritten s) := by
  have hne : s.cq.wrlist ≠ [] := fun hl => by
    rw [h.writing.mpr hl] at hw
    cases hw
  obtain ⟨r, rest, hl⟩ := List.exists_cons_of_ne_nil hne
  rw [recordWritten_eq hl]
  have hlive : EngineSound { s with cq := { s.cq with wrlist := rest, wr := if rest = [] then .idle else .body } } := by
    refine ⟨h.setup, fun hf => absurd (h.faulted hf).2.2 hne, fun hr => absurd (h.rest hr) hne, ?_, h.timer, h.faultIdx⟩
    by_cases hrest : rest = []
    · exact ⟨fun _ => hrest, fun _ => if_pos hrest⟩
    · have hbody : (if rest = [] then CqPhase.idle else .body) = .body := if_neg hrest
      exact ⟨fun hw => absurd (hbody.symm.trans hw) nofun, fun hr => absurd hr hrest⟩
  unfold countWritten
  dsimp only
  split
  · exact engineSound_reportCompletions hlive
  · exact { hlive with timer := fun _ => Nat.le_add_left 1 _ }

end

/-! ### Every command -/

theorem heldRecord_of_rest {s : State} (h : RestSound s) (hr : engineRests s) (q : Fin 4) : heldRecord (s.queue q).head = none := by
  rw [(h hr).2 q]
  rfl

/-- A queue that changes but for its head, and then moves of an operation. -/
theorem engineSound_queue_moves {s t : State} {q : Fin 4} {r : QueueRec} (h : EngineSound s) (hrest : RestSound s)
    (hr : heldRecord r.head = none ∨ heldRecord r.head = heldRecord (s.queue q).head) (hm : Moves (s.setQueue q r) t) :
    EngineSound t := by
  have hu : EngineSound (s.setQueue q r) := engineSound_congr h rfl rfl rfl rfl rfl rfl rfl rfl
  refine engineSound_of_moves hu (fun hrests k => ?_) hm
  by_cases hk : k = q
  · subst hk
    rw [State.queue_setQueue_self]
    exact hr.elim id fun heq => heq.trans (heldRecord_of_rest hrest hrests k)
  · rw [State.queue_setQueue_ne _ _ hk]
    exact heldRecord_of_rest hrest hrests k

theorem engineSound_discardFetch {s : State} (h : EngineSound s) (hrest : RestSound s) (q : Fin 4) :
    EngineSound (discardFetch q s) := engineSound_queue_moves h hrest (.inl rfl) (askIfEligible_moves ..)

/-- A head that is not EMPTY is muted in FAULTED alone. -/
theorem faulted_of_muted_head {s : State} {q : Fin 4} (hrest : RestSound s) (hh : (s.queue q).head ≠ .empty) (hm : Muted s) :
    s.eng.st = .faulted := hm.elim id fun ⟨hr, _⟩ => absurd ((hrest hr).2 q) hh

theorem engineSound_decodeHead {s : State} {q : Fin 4} {pos : Nat} (h : EngineSound s) (hrest : RestSound s)
    (hh : (s.queue q).head = .fetching pos) (bytes : List Byte) : EngineSound (decodeHead q pos bytes s) := by
  have hcomplete : ∀ r, EngineSound (completeHead q r s) := fun r =>
    engineSound_of_moves h (heldRecord_of_rest hrest)
      (completeHead_moves r (faulted_of_muted_head (q := q) hrest (by rw [hh]; exact nofun)))
  have hset : ∀ h', EngineSound (s.setHead q h') := fun _ => engineSound_congr h rfl rfl rfl rfl rfl rfl rfl rfl
  unfold decodeHead
  dsimp only
  split
  · exact hcomplete _
  · unfold admitData
    split
    · exact hcomplete _
    · exact hset _
  · exact hset _

theorem exec_run_engineSound {s : State} (h : EngineSound s) : Answers EngineSound (exec .run s) := by
  refine answers_taken h ?_
  split
  case h_1 hoff => exact engineSound_runFromOff h hoff
  case h_2 hhalted =>
    have haccept : EngineSound (acceptCommand .running s) := by
      refine ⟨?_, nofun, nofun, h.writing, h.timer, h.faultIdx⟩
      refine ⟨fun hsome => ?_, nofun⟩
      have hconf := h.setup.mp hsome
      rw [hhalted] at hconf
      cases hconf
    exact engineSound_of_loose haccept (fun hr => hr.elim nofun nofun) nofun
      ((serveEntries_loose _ _).trans ((((askIfEligible_moves 0 _).trans (askIfEligible_moves 1 _)).trans
        (askIfEligible_moves 2 _)).trans (askIfEligible_moves 3 _)).toLooseMoves)
  case h_3 => exact engineSound_flags h

theorem exec_halt_engineSound {s : State} (h : EngineSound s) : Answers EngineSound (exec .halt s) := by
  refine answers_taken h ?_
  split
  case isTrue hrun =>
    have haccept : EngineSound (acceptCommand .draining s) := by
      refine ⟨?_, nofun, nofun, h.writing, h.timer, h.faultIdx⟩
      refine ⟨fun hsome => ?_, nofun⟩
      have hconf := h.setup.mp hsome
      rw [hrun] at hconf
      cases hconf
    exact engineSound_of_loose haccept (fun hr => hr.elim nofun nofun) nofun (checkDrain_moves _).toLooseMoves
  case isFalse => exact engineSound_flags h

theorem exec_postFlush_engineSound {s : State} (h : EngineSound s) (q : Fin 4) :
    Answers EngineSound (exec (.postFlush q) s) := by
  refine answers_taken h ?_
  dsimp only
  split
  · exact engineSound_refusePost h q
  case isFalse hlive =>
    have hn : ¬ Muted s := not_muted_of_live (by
      rw [Bool.not_eq_true, Bool.not_eq_false', Bool.and_eq_true] at hlive
      exact hlive.1)
    have hloose : ∀ t, LooseMoves s t → EngineSound t := fun t ht => by
      refine engineSound_of_loose h (fun hr => ?_) (fun hf => hn (.inl hf)) ht
      rw [Bool.not_eq_true, Bool.not_eq_false', Bool.and_eq_true, live_iff] at hlive
      obtain hr | hr := hr <;> simp [hr] at hlive
    split
    · exact h
    · split
      · exact engineSound_congr h rfl rfl rfl rfl rfl rfl rfl rfl
      · split
        · exact hloose _ (flushEffect_loose ..)
        · exact hloose _ (flushOwn_loose ..)

theorem exec_cqheadWrite_engineSound {s : State} (h : EngineSound s) (index : BitVec 16) :
    Answers EngineSound (exec (.cqheadWrite index) s) := by
  refine answers_taken h ?_
  split
  · have hmove : EngineSound { s with cq := { s.cq with headx := index.toNat } } :=
      engineSound_congr h rfl rfl rfl rfl rfl rfl rfl rfl
    dsimp only
    split
    case isTrue hlive =>
      rw [Bool.and_eq_true, live_iff] at hlive
      obtain ⟨hlive, -⟩ := hlive
      have hsummary : LooseMoves { s with cq := { s.cq with headx := index.toNat } }
          (postSummary { s with cq := { s.cq with headx := index.toNat } }) :=
        ⟨.inl ((postSummary_changes _).eng rfl), fun q => by
          rw [(postSummary_changes _).queue rfl]
          exact HeadMoves.refl .., postSummary_writer _⟩
      refine engineSound_of_loose hmove (fun hr => ?_) (fun hf => ?_) (hsummary.trans (serveEntries_loose _ _))
      · obtain hr | hr := hr <;> simp [show s.eng.st = _ from hr] at hlive
      · simp [show s.eng.st = _ from hf] at hlive
    case isFalse => exact hmove
  · exact engineSound_refuseCqhead h

theorem exec_headFetchError_engineSound {s : State} (h : EngineSound s) (hrest : RestSound s) (q : Fin 4) :
    Answers EngineSound (exec (.headFetchError q) s) := by
  refine answers_taken h ?_
  split
  case h_1 pos hh =>
    have hne : (s.queue q).head ≠ .empty := by rw [hh]; exact nofun
    split
    · exact engineSound_discardFetch h hrest q
    · refine engineSound_queue_moves (r := { s.queue q with state := .stopped }) h hrest (.inr rfl)
        (completeHead_moves _ fun hm => ?_)
      exact hm.elim id fun ⟨hr, _⟩ => absurd ((hrest hr).2 q) hne
  case h_2 => exact h

theorem exec_engineSound (c : Instr) {s : State} (hrest : RestSound s) (h : EngineSound s) :
    Answers EngineSound (exec c s) := by
  have hsame : ∀ t : State, t.eng = s.eng → t.cq = s.cq → EngineSound t := fun t he hc => by
    exact engineSound_congr h (by rw [he]) (by rw [he]) (by rw [he]) (by rw [he]) (by rw [hc]) (by rw [hc]) (by rw [hc]) (by rw [hc])
  cases c with
  | run => exact exec_run_engineSound h
  | halt => exact exec_halt_engineSound h
  | clear =>
    refine answers_taken h ?_
    split
    · exact ⟨⟨nofun, nofun⟩, nofun, fun _ => rfl, ⟨fun _ => rfl, fun _ => rfl⟩, nofun, h.faultIdx⟩
    · exact engineSound_flags h
  | pinReset => exact answers_next ⟨⟨nofun, nofun⟩, nofun, fun _ => rfl, ⟨fun _ => rfl, fun _ => rfl⟩, nofun, Nat.zero_le 4⟩
  | resetRelease => exact answers_next (engineSound_congr h rfl rfl rfl rfl rfl rfl rfl rfl)
  | engctlReservedCode code =>
    refine fun t ht => ?_
    by_cases hcode : 4 ≤ code.toNat
    · rw [exec, execEngctlReservedCode, if_pos hcode] at ht
      exact answers_taken h (engineSound_flags h) t ht
    · rw [exec, execEngctlReservedCode, if_neg hcode] at ht
      cases ht
  | postReservedAction q => exact answers_taken h (engineSound_refusePost h q)
  | setupadrWrite v =>
    refine answers_taken h ?_
    split
    · exact engineSound_congr h rfl rfl rfl rfl rfl rfl rfl rfl
    · exact h
  | postAdvance q index =>
    refine answers_taken h ?_
    split
    · exact engineSound_queue_moves (r := { s.queue q with prod := index.toNat }) h hrest (.inr rfl) (askIfEligible_moves q _)
    · exact engineSound_refusePost h q
  | postRestart q =>
    refine answers_taken h ?_
    split
    · exact engineSound_queue_moves (r := { s.queue q with state := .active }) h hrest (.inr rfl) (askIfEligible_moves q _)
    · exact h
  | postFlush q => exact exec_postFlush_engineSound h q
  | cqheadWrite index => exact exec_cqheadWrite_engineSound h index
  | tick =>
    refine answers_taken h ?_
    have he : (tickQueues s).eng = s.eng := (tickQueues_changes s).eng rfl
    have hc : (tickQueues s).cq = s.cq := (tickQueues_changes s).cq rfl
    have ht := hsame _ he hc
    exact engineSound_congr ht rfl rfl rfl rfl rfl rfl Option.isSome_map rfl
  | coalescingTimerExpiry =>
    refine answers_taken h ?_
    split
    · split
      · exact engineSound_reportCompletions h
      · exact ⟨h.setup, h.faulted, h.rest, h.writing, nofun, h.faultIdx⟩
    · exact h
  | setupReadAnswer off a =>
    refine answers_taken h ?_
    split
    · exact h
    case h_2 b hb =>
      have hsome : s.eng.setup.isSome = true := by rw [hb]; rfl
      split
      · dsimp only
        split
        · exact engineSound_setupDone h hsome _
        · exact engineSound_congr h rfl rfl rfl hsome.symm rfl rfl rfl rfl
      · exact h
  | headFetchData q bytes =>
    refine answers_taken h ?_
    split
    case h_1 pos hh =>
      split
      · exact h
      · split
        · exact engineSound_discardFetch h hrest q
        · exact engineSound_decodeHead h hrest hh bytes
    case h_2 => exact h
  | headFetchError q => exact exec_headFetchError_engineSound h hrest q
  | bodyWriteAnswer =>
    refine answers_taken h ?_
    split
    case isTrue hw =>
      refine { h with writing := ⟨nofun, fun hl => ?_⟩ }
      rw [h.writing.mpr hl] at hw
      cases hw
    case isFalse => exact h
  | phaseWriteAnswer =>
    refine answers_taken h ?_
    split
    case isTrue hw => exact engineSound_recordWritten h hw
    case isFalse => exact h
  | cqWriteError =>
    refine answers_taken h ?_
    split
    case isTrue => exact h
    case isFalse hw =>
      have hr : s.eng.st ≠ .configuring := fun hc => hw (h.writing.mpr (h.rest (.inr hc)))
      exact ⟨⟨fun hsome => absurd (h.setup.mp hsome) hr, nofun⟩, fun _ => ⟨rfl, rfl, rfl⟩, fun _ => rfl,
        ⟨fun _ => rfl, fun _ => rfl⟩, h.timer, Nat.zero_le 4⟩
  | _ => exact (exec_moves rfl s).imp fun t ht => engineSound_of_moves h (heldRecord_of_rest hrest) ht

/-- A step runs a command in a state that differs in the waiting commands alone, or idles. -/
theorem step_next_cases {s t : State} (h : step s = .next t) :
    t = s ∨ ∃ (c : Instr) (l : List Instr), exec c { s with pending := l } = .next t := by
  unfold step at h
  split at h
  · exact .inr ⟨_, _, h⟩
  · exact .inl (Host.Outcome.next.inj h).symm

/-- Settles O9: the operations keep the engine state and the writer's list in agreement, and a muted writer posts nothing; each
engine command, register write and completion write by its own case. -/
theorem engineStaysSound : Obligations.EngineStaysSound := fun s t hh he hstep => by
  obtain rfl | ⟨c, l, hc⟩ := step_next_cases hstep
  · exact he
  · exact exec_engineSound c (s := { s with pending := l }) hh.rest { he with } t hc

/-! ### A stopped engine (R169, R177, R179, R180) -/

/-- What FAULTED keeps of the writer. -/
def FaultKept (s t : State) : Prop :=
  t.eng.st = .faulted ∧ t.cq.tailx = s.cq.tailx ∧ t.cq.wrlist = s.cq.wrlist ∧ t.cq.wr = .idle ∧
    t.cq.foldSet = s.cq.foldSet ∧ t.cq.foldCnt = s.cq.foldCnt

section

variable {s t u : State}

theorem faultKept_of_same (hf : s.eng.st = .faulted) (hw : s.cq.wr = .idle) (he : t.eng.st = s.eng.st) (hc : t.cq = s.cq) :
    FaultKept s t := ⟨he.trans hf, by rw [hc], by rw [hc], by rw [hc, hw], by rw [hc], by rw [hc]⟩

theorem Moves.faultKept (h : Moves u t) (hf : u.eng.st = .faulted) (hw : s.cq.wr = .idle) (hc : u.cq = s.cq) : FaultKept s t := by
  have hcq := (h.muted (.inl hf)).2
  rw [hc] at hcq
  refine ⟨h.faulted.mpr hf, ?_, ?_, ?_, ?_, ?_⟩
  all_goals rw [hcq]
  exact hw

end

theorem exec_faultKept {c : Instr} {s : State} (he : EngineSound s) (hf : s.eng.st = .faulted) (hclear : c ≠ .clear)
    (hreset : c ≠ .pinReset) : Answers (FaultKept s) (exec c s) := by
  have hw : s.cq.wr = .idle := he.writing.mpr (he.faulted hf).2.2
  have hs : FaultKept s s := faultKept_of_same hf hw rfl rfl
  have hlive : live s = false := by
    rw [Bool.eq_false_iff, ne_eq, live_iff, hf]
    exact fun h => h.elim nofun fun h => h.elim nofun nofun
  have hsetup : s.eng.setup = none := by
    refine Option.not_isSome_iff_eq_none.mp fun hsome => ?_
    have hconf := he.setup.mp hsome
    rw [hf] at hconf
    cases hconf
  have hask : ∀ (q : Fin 4) (r : QueueRec), FaultKept s (askIfEligible q (s.setQueue q r)) := fun q r =>
    (askIfEligible_moves q (s.setQueue q r)).faultKept hf hw rfl
  cases c with
  | clear => exact absurd rfl hclear
  | pinReset => exact absurd rfl hreset
  | run =>
    refine answers_taken hs ?_
    rw [hf]
    exact faultKept_of_same hf hw rfl rfl
  | halt =>
    refine answers_taken hs ?_
    rw [hf]
    exact faultKept_of_same hf hw rfl rfl
  | engctlReservedCode code =>
    refine fun t ht => ?_
    by_cases hcode : 4 ≤ code.toNat
    · rw [exec, execEngctlReservedCode, if_pos hcode] at ht
      exact answers_taken hs (faultKept_of_same (t := refuseCommand s) hf hw rfl rfl) t ht
    · rw [exec, execEngctlReservedCode, if_neg hcode] at ht
      cases ht
  | postReservedAction q => exact answers_taken hs (faultKept_of_same hf hw rfl rfl)
  | resetRelease => exact answers_next (faultKept_of_same hf hw rfl rfl)
  | setupadrWrite v =>
    refine answers_taken hs ?_
    split
    · exact faultKept_of_same hf hw rfl rfl
    · exact hs
  | postAdvance q index =>
    refine answers_taken hs ?_
    split
    · exact hask q _
    · exact faultKept_of_same hf hw rfl rfl
  | postRestart q =>
    refine answers_taken hs ?_
    split
    · exact hask q _
    · exact hs
  | postFlush q =>
    refine answers_taken hs ?_
    dsimp only
    rw [hlive]
    exact faultKept_of_same hf hw rfl rfl
  | cqheadWrite index =>
    refine answers_taken hs ?_
    split
    · dsimp only
      rw [hlive]
      exact ⟨hf, rfl, rfl, hw, rfl, rfl⟩
    · exact faultKept_of_same hf hw rfl rfl
  | tick =>
    refine answers_taken hs ?_
    have he : (tickQueues s).eng = s.eng := (tickQueues_changes s).eng rfl
    have hc : (tickQueues s).cq = s.cq := (tickQueues_changes s).cq rfl
    refine ⟨(congrArg Engine.st he).trans hf, ?_, ?_, ?_, ?_, ?_⟩
    all_goals
      dsimp only
      rw [hc]
    exact hw
  | coalescingTimerExpiry =>
    refine answers_taken hs ?_
    split
    · split
      · exact ⟨hf, rfl, rfl, hw, rfl, rfl⟩
      · exact ⟨hf, rfl, rfl, hw, rfl, rfl⟩
    · exact hs
  | setupReadAnswer off a =>
    refine answers_taken hs ?_
    rw [hsetup]
    exact hs
  | headFetchData q bytes =>
    refine answers_taken hs ?_
    split
    · split
      · exact hs
      · split
        · exact hask q _
        · have hcomplete : ∀ r, FaultKept s (completeHead q r s) := fun r =>
            (completeHead_moves r fun _ => hf).faultKept hf hw rfl
          unfold decodeHead
          dsimp only
          split
          · exact hcomplete _
          · unfold admitData
            split
            · exact hcomplete _
            · exact faultKept_of_same hf hw rfl rfl
          · exact faultKept_of_same hf hw rfl rfl
    · exact hs
  | headFetchError q =>
    refine answers_taken hs ?_
    split
    · split
      · exact hask q _
      · exact Moves.faultKept (u := s.setQueue q { s.queue q with state := .stopped }) (completeHead_moves _ fun _ => hf) hf hw rfl
    · exact hs
  | bodyWriteAnswer =>
    refine answers_taken hs ?_
    rw [hw]
    exact hs
  | phaseWriteAnswer =>
    refine answers_taken hs ?_
    rw [hw]
    exact hs
  | cqWriteError =>
    refine answers_taken hs ?_
    rw [hw]
    exact hs
  | _ => exact (exec_moves rfl s).imp fun t ht => ht.faultKept hf hw rfl

/-- Settles O20: no operation begins a fetch or starts a head outside RUNNING, and in FAULTED the writer is muted. -/
theorem stoppedEngineIsSilent : Obligations.StoppedEngineIsSilent := by
  refine ⟨fun c s t q ht hs hrun => ?_, fun c s t he hf ht hclear hreset => exec_faultKept he hf hclear hreset t ht⟩
  have hstep := exec_headsStep c s t ht q
  have hn : ¬ (s.eng.st = .running ∨ t.eng.st = .running) := fun h => h.elim hs hrun
  exact ⟨hstep.fetching hn, hstep.starting hn, hstep.executing hn⟩

end Sys2Proof.Machine
end

section
/-! SUPPORT. The definitions of the streams under every command, and the DEFINED rings inside the store and apart (R19 to R22). -/

namespace Sys2Proof.Machine

open Sys2Proof

/-! ### What the operations leave of a stream's record -/

/-- A stream's record without what a frame, a job and a rearm move. -/
def settings (r : StreamRec) : StreamRec :=
  { r with
    wrpos := 0, rdpos := 0, fill := 0, ovrcnt := 0, undcnt := 0, ovrarm := false, undarm := false, claimed := false, stamp := 0 }

/-- What DEFINE_STREAM alone sets of a stream's record, and RETIRE_STREAM removes. -/
def definitionOf (r : StreamRec) : StreamRec := { settings r with rxbind := none, txbind := none }

section

variable {α : Type} (K : StreamRec → α)

/-- A value that the settings of a record fix. -/
def Steady : Prop := ∀ r r', settings r' = settings r → K r' = K r

/-- Every stream keeps a value of its record. -/
structure StreamsKeep (s t : State) : Prop where
  value : ∀ n, K (t.stream n) = K (s.stream n)

end

theorem steady_settings : Steady settings := fun _ _ h => h

theorem steady_definitionOf : Steady definitionOf := fun _ _ h => by rw [definitionOf, h, definitionOf]

/-- A stream's record without its mirrors. -/
def unmirrored (r : StreamRec) : StreamRec := { r with rxbind := none, txbind := none }

/-- A value that the record without its mirrors fixes. -/
def Unbound {α : Type} (K : StreamRec → α) : Prop := ∀ r r', unmirrored r' = unmirrored r → K r' = K r

theorem unbound_unmirrored : Unbound unmirrored := fun _ _ h => h

theorem unbound_definitionOf : Unbound definitionOf := fun r r' h => by
  change definitionOf (unmirrored r') = definitionOf (unmirrored r)
  rw [h]

/-- The record changes a stream's definition. -/
def redefines : ControlRec → Bool
  | .defineStream _ _ _ _ _ _ _ _ => true
  | .retireStream _ => true
  | _ => false

namespace StreamsKeep

variable {α : Type} {K : StreamRec → α} {s t u : State} {q : Fin 4} {pos : Nat} {h : Header} {j : JobRec}

theorem refl (s : State) : StreamsKeep K s s := ⟨fun _ => rfl⟩

theorem trans (h : StreamsKeep K s t) (h' : StreamsKeep K t u) : StreamsKeep K s u :=
  ⟨fun n => (h'.value n).trans (h.value n)⟩

theorem of_changes {F : List Part} (h : Changes F s t) (hs : Part.streams.isIn F = false) : StreamsKeep K s t :=
  ⟨fun n => by rw [h.stream hs]⟩

theorem of_setStream {n : Fin 48} {r : StreamRec} (hr : K r = K (s.stream n)) : StreamsKeep K s (s.setStream n r) := by
  refine ⟨fun m => ?_⟩
  by_cases hm : m = n
  · subst hm
    rw [State.stream_setStream_self, hr]
  · rw [State.stream_setStream_ne _ _ hm]

/-- An operation after another one that leaves the streams. -/
theorem next (h : StreamsKeep K s t) {F : List Part} (hc : Changes F t u) (hs : Part.streams.isIn F = false) :
    StreamsKeep K s u := h.trans (of_changes hc hs)

section

variable (hK : Steady K)
include hK

theorem of_settings (h : ∀ n, settings (t.stream n) = settings (s.stream n)) : StreamsKeep K s t :=
  ⟨fun n => hK _ _ (h n)⟩

theorem setClaims (b : Bool) (ns : List (Fin 48)) (s : State) : StreamsKeep K s (setClaims b ns s) :=
  of_settings hK fun n => by
    rw [setClaims_record]
    rfl

theorem releaseStreams (d : DataRec) (s : State) : StreamsKeep K s (releaseStreams d s) :=
  of_settings hK fun n => by
    rw [releaseStreams_stream]
    rfl

theorem commitRoles (k : Nat) (l : List (Fin 48 × Role)) (s : State) : StreamsKeep K s (commitRoles k l s) := by
  induction l generalizing s with
  | nil => exact refl s
  | cons x l ih =>
    obtain ⟨n, role⟩ := x
    refine trans (of_setStream (hK _ _ ?_)) (ih _)
    cases role <;> rfl

theorem failStart (q : Fin 4) (st : Status) (s : State) : StreamsKeep K s (failStart q st s) := by
  unfold Machine.failStart
  split
  · dsimp only
    split
    · exact (releaseStreams hK ..).next ((useEndOf_changes ..).trans (completeJob_changes ..)) rfl
    · exact of_changes ((useEndOf_changes ..).trans (completeJob_changes ..)) rfl
  · exact refl s

theorem endStreams (j : JobRec) (dp : Datapath) (s : State) : StreamsKeep K s (endStreams j dp s) := by
  unfold Machine.endStreams
  split
  · exact (commitRoles hK ..).trans (releaseStreams hK ..)
  · exact releaseStreams hK ..

theorem endOfJob (s : State) : StreamsKeep K s (endOfJob s) := by
  have hidle : Changes [.dp, .stopReq] s { s with dp := Datapath.idle, stopReq := false } :=
    Changes.mono ((changes_dp s Datapath.idle).trans (changes_stopReq _ false)) rfl
  unfold Machine.endOfJob
  dsimp only
  split
  · exact ((of_changes hidle rfl).trans (endStreams hK ..)).next (((((endContext_changes ..).trans (useEndOf_changes ..)).trans
      (completeHead_changes ..)).trans (endAbort_changes ..)).trans (checkDrain_changes _)) rfl
  · exact of_changes hidle rfl

theorem closed : ControlClosed (StreamsKeep K) (StreamsKeep K) where
  after := trans
  refl := refl
  trans := trans
  other := fun h => of_changes h rfl
  drain := fun s => of_changes (checkDrain_changes s) rfl
  event := fun s k n r => of_changes (raiseEvent_changes s k n r) rfl
  complete := fun _ _ => of_changes (completeHead_changes ..) rfl
  job := fun _ _ => of_changes (changes_setHead ..) rfl
  fail := fun _ _ _ => failStart hK ..
  run := fun _ _ _ _ => of_changes (enterRunning_changes ..) rfl
  finish := fun _ => endOfJob hK _
  conclude := fun _ _ _ _ _ => of_changes (finishControl_changes ..) rfl
  park := fun _ => of_changes (parkControl_changes ..) rfl
  busy := fun _ _ _ _ => of_changes (changes_cu ..) rfl

theorem tables : ControlClosed.Tables (StreamsKeep K) where
  arbiter := fun q s => of_changes (arbiterMove_changes q s) rfl
  claim := fun _ _ _ _ _ => (setClaims hK ..).next (changes_setHead ..) rfl
  dp := fun h => of_changes h.parts rfl
  rearm := fun _ _ => of_setStream (hK _ _ rfl)

omit hK in
theorem unitConcludes (s : State) : ControlClosed.UnitConcludes (StreamsKeep K) s :=
  ControlClosed.unitConcludes (fun _ _ _ _ _ _ => of_changes (finishControl_changes ..) rfl)
    (fun _ _ => of_changes (parkControl_changes ..) rfl) (fun _ _ => of_changes (changes_cu ..) rfl) s

theorem portTake (s : State) (n : Fin 48) (f : Word) : StreamsKeep K s (portTake n f s) := by
  unfold Machine.portTake
  dsimp only
  split
  · refine (of_setStream ?_).next (notify_changes ..) rfl
    exact hK (s.stream n) _ rfl
  · have hset : StreamsKeep K s (s.setStream n { s.stream n with
        undcnt := satSucc (s.stream n).undcnt, stamp := f, undarm := false }) := of_setStream (hK _ _ rfl)
    split
    · exact hset.next (raiseEvent_changes ..) rfl
    · exact hset

theorem portAppend (s : State) (n : Fin 48) (f : Word) (x : Sample) : StreamsKeep K s (portAppend n f x s) := by
  unfold Machine.portAppend
  dsimp only
  split
  · refine (trans (of_changes (changes_store ..) rfl) (of_setStream ?_)).next (notify_changes ..) rfl
    exact hK (s.stream n) _ rfl
  · have hover : StreamsKeep K s (s.setStream n (overrunRec (s.stream n) f)) := of_setStream (hK _ _ (by
      unfold overrunRec
      split <;> rfl))
    have hfull : StreamsKeep K s (if overrunReason (s.stream n) = .oldDropped then
        { s.setStream n (overrunRec (s.stream n) f) with
          store := storeWrite s.store (ringWord (s.stream n) (s.stream n).wrpos) x }
        else s.setStream n (overrunRec (s.stream n) f)) := by
      split
      · exact hover.next (changes_store ..) rfl
      · exact hover
    split
    · exact hfull.next (raiseEvent_changes ..) rfl
    · exact hfull

end

/-! ### The mirrors -/

section

variable (hU : Unbound K)

include hU

theorem setMirror (s : State) (n : Fin 48) (dir : Dir) (m : Option BindMirror) :
    StreamsKeep K s (setMirror n dir m s) := by
  cases dir <;> exact of_setStream (hU _ _ rfl)

theorem recordPending (p : PortId) (k : Fin 32) (action : BindAction) (q : Fin 4) (s : State) :
    StreamsKeep K s (recordPending p k action q s) := by
  have hport : ∀ r, StreamsKeep K s (s.setPort p r) := fun r => of_changes (changes_setPort ..) rfl
  unfold Machine.recordPending
  dsimp only
  split
  · exact (hport _).trans (setMirror hU ..)
  · split
    · exact (hport _).trans (setMirror hU ..)
    · exact hport _

theorem applySlot (p : PortId) (k : Fin 32) (s : State) : StreamsKeep K s (applySlot p k s) := by
  have hport : ∀ r, StreamsKeep K s (s.setPort p r) := fun r => of_changes (changes_setPort ..) rfl
  unfold Machine.applySlot
  dsimp only
  split
  · exact refl s
  · exact (hport _).trans (setMirror hU ..)
  · split
    · exact (hport _).trans (setMirror hU ..)
    · exact hport _

theorem withdrawSlot (p : PortId) (k : Fin 32) (s : State) : StreamsKeep K s (withdrawSlot p k s) := by
  have hport : ∀ r, StreamsKeep K s (s.setPort p r) := fun r => of_changes (changes_setPort ..) rfl
  unfold Machine.withdrawSlot
  dsimp only
  split
  · exact refl s
  · exact (hport _).trans (setMirror hU ..)
  · split
    · exact (hport _).trans (setMirror hU ..)
    · exact hport _

theorem takeLineEvent (hK : Steady K) (s : State) (p : PortId) (d : LineDue) : StreamsKeep K s (takeLineEvent p d s) :=
  (closed hK).toClosed.ordinary.takeLineEvent (portTake hK) (portAppend hK) (setMirror hU) d

end

/-! ### The definitions -/

theorem defined (h : StreamsKeep definitionOf s t) (n : Fin 48) : (t.stream n).defined = (s.stream n).defined :=
  show (definitionOf _).defined = (definitionOf _).defined by rw [h.value]

theorem base (h : StreamsKeep definitionOf s t) (n : Fin 48) : (t.stream n).base = (s.stream n).base :=
  show (definitionOf _).base = (definitionOf _).base by rw [h.value]

theorem length (h : StreamsKeep definitionOf s t) (n : Fin 48) : (t.stream n).length = (s.stream n).length :=
  show (definitionOf _).length = (definitionOf _).length by rw [h.value]

theorem hist (h : StreamsKeep definitionOf s t) (n : Fin 48) : (t.stream n).hist = (s.stream n).hist :=
  show (definitionOf _).hist = (definitionOf _).hist by rw [h.value]

theorem executeControl {body : ControlRec} (hx : ctlIn .executing (s.queue q).head = true) (hb : redefines body = false) :
    StreamsKeep definitionOf s (executeControl q body s) := by
  refine (closed steady_definitionOf).executeControl (fun p k => withdrawSlot unbound_definitionOf p k s) hx fun htable => ?_
  cases body with
  | bindSlot p k action =>
    rw [Machine.executeControl]
    unfold execBind
    split
    · split
      · exact (recordPending unbound_definitionOf p k action q s).next (parkControl_changes ..) rfl
      · exact ((recordPending unbound_definitionOf p k action q s).trans (applySlot unbound_definitionOf p k _)).next (finishControl_changes ..) rfl
    · exact of_changes (finishControl_changes ..) rfl
  | clearContext c => exact of_changes (execClearContext_changes q c s) rfl
  | defineStream n base length hist producer consumer policy idle => cases hb
  | retireStream n => cases hb
  | _ => cases htable

end StreamsKeep

/-! ### The streams under every command -/

section

variable {s : State} {c : Instr}

/-- The commands that change no port leave the settings of the streams. -/
theorem exec_streamsKeep {α : Type} {K : StreamRec → α} (hK : Steady K) (hc : inner c = true)
    (hports : Part.ports.isIn (commandParts c) = false) : Answers (StreamsKeep K s) (exec c s) :=
  (StreamsKeep.closed hK).exec_inner (StreamsKeep.tables hK) (StreamsKeep.unitConcludes s)
    (fun _ h => StreamsKeep.of_changes h rfl) hc fun hp => absurd (hports.symm.trans hp) nofun

/-- CLEAR and the pin reset. -/
def resets : Instr → Bool
  | .clear => true
  | .pinReset => true
  | _ => false

/-- A command that may change the streams runs operations alone, or resets the block. -/
theorem inner_of_streams (c : Instr) : (inner c || resets c || !Part.streams.isIn (commandParts c)) = true := by
  cases c <;> rfl

/-- Every command but the resets and the selection of a control record leaves the definitions of the streams. -/
theorem exec_definitionsKeep (hreset : resets c = false) (hselect : c ≠ .controlSelect) :
    Answers (StreamsKeep definitionOf s) (exec c s) := by
  cases hc : inner c with
  | true =>
    cases hports : Part.ports.isIn (commandParts c) with
    | true =>
      exact ControlClosed.exec_portCommand (StreamsKeep.closed steady_definitionOf).toClosed.ordinary
        (fun p d _ => StreamsKeep.takeLineEvent unbound_definitionOf steady_definitionOf s p d) (fun h => absurd h hselect) hc hports
    | false => exact exec_streamsKeep steady_definitionOf hc hports
  | false =>
    have hparts := inner_of_streams c
    rw [hc, hreset] at hparts
    exact exec_keeps_of_parts fun t h => StreamsKeep.of_changes h (by simpa using hparts)

/-! ### The DEFINE_STREAM records held (R19) -/

theorem defineFits_of_record {h h' : Head} (hr : heldRecord h' = heldRecord h) (hf : defineFits h) : defineFits h' := by
  cases h' with
  | control pos hd body c =>
    cases h with
    | control pos' hd' body' c' =>
      obtain rfl := Sum.inr.inj (Option.some.inj hr)
      cases body <;> exact hf
    | _ => cases hr
  | _ => trivial

theorem defineFits_of_none {h : Head} (hr : heldRecord h = none) : defineFits h := by
  cases h with
  | control pos hd body c => cases hr
  | _ => trivial

theorem redefines_decodeRead {bs : List Byte} {f : Bool} {b : ControlRec} (h : decodeRead bs f = some b) :
    redefines b = false := by
  unfold decodeRead at h
  dsimp only at h
  split at h
  · obtain ⟨n, -, rfl⟩ := Option.map_eq_some_iff.mp h
    rfl
  · cases h

theorem redefines_decodeBind {bs : List Byte} {b : ControlRec} (h : decodeBind bs = some b) : redefines b = false := by
  unfold decodeBind at h
  split at h
  · split at h
    · obtain ⟨n, -, rfl⟩ := Option.map_eq_some_iff.mp h
      rfl
    · obtain ⟨n, -, rfl⟩ := Option.map_eq_some_iff.mp h
      rfl
    · cases h
      rfl
    · cases h
  · cases h

theorem redefines_decodeAbort {bs : List Byte} {q : Fin 4} {b : ControlRec} (h : decodeAbort bs q = some b) :
    redefines b = false := by
  unfold decodeAbort at h
  split at h
  · split at h
    · cases h
    · cases h
      rfl
  · cases h

/-- What decodes as a DEFINE_STREAM passed its checks (R19). -/
theorem ringFits_of_decodeBody {q : Fin 4} {bs : List Byte} {n : Fin 48} {base length hist : Nat} {producer : Producer}
    {consumer : Consumer} {policy : OverrunPolicy} {idle : Sample}
    (hb : decodeBody q bs = some (.control (.defineStream n base length hist producer consumer policy idle))) :
    ringFits base length hist := by
  unfold decodeBody at hb
  dsimp only at hb
  split at hb
  case h_3 =>
    obtain ⟨-, hnone⟩ | ⟨hranges, k, -, hsome⟩ := decodeDefine_eq bs
    · rw [hnone] at hb
      cases hb
    · rw [hsome] at hb
      cases hb
      exact ⟨by rw [Config.storeWords]; omega, by omega⟩
  case h_5 =>
    obtain ⟨b, hread, ⟨⟩⟩ := Option.map_eq_some_iff.mp hb
    cases redefines_decodeRead hread
  case h_6 =>
    obtain ⟨b, hbind, ⟨⟩⟩ := Option.map_eq_some_iff.mp hb
    cases redefines_decodeBind hbind
  case h_9 =>
    obtain ⟨b, habort, ⟨⟩⟩ := Option.map_eq_some_iff.mp hb
    cases redefines_decodeAbort habort
  all_goals simp at hb

theorem defineFits_of_decoded {q : Fin 4} {bytes : List Byte} {h : Head} (hr : heldRecord h = decodedRecord q bytes) :
    defineFits h := by
  cases h with
  | control pos hd body c =>
    have hbody : decodeBody q bytes = some (.control body) := by
      rw [decodedRecord] at hr
      cases hd : decodeBody q bytes with
      | none => rw [hd] at hr; cases hr
      | some b =>
        rw [hd] at hr
        cases b with
        | data d => cases hr
        | control b =>
          cases hr
          rfl
    cases body with
    | defineStream n base length hist producer consumer policy idle => exact ringFits_of_decodeBody hbody
    | _ => trivial
  | _ => trivial

/-! ### The rings (R19 to R22) -/

/-- The DEFINED rings of a state, each in the store and no two sharing a word. -/
structure RingLaws (s : State) : Prop where
  fits : ∀ n : Fin 48, (s.stream n).defined = true → ringFits (s.stream n).base (s.stream n).length (s.stream n).hist
  apart : ∀ n m : Fin 48, n ≠ m → (s.stream n).defined = true → (s.stream m).defined = true →
    rangesMeet (s.stream n).base (s.stream n).length (s.stream m).base (s.stream m).length = false

theorem RingsSound.laws (h : RingsSound s) : RingLaws s := ⟨h.fits, h.apart⟩

theorem RingLaws.keep {t : State} (h : RingLaws s) (hk : StreamsKeep definitionOf s t) : RingLaws t := by
  constructor
  · intro n
    rw [hk.defined, hk.base, hk.length, hk.hist]
    exact h.fits n
  · intro n m
    rw [hk.defined, hk.defined, hk.base, hk.base, hk.length, hk.length]
    exact h.apart n m

theorem ringLaws_of_no_ring (h : ∀ n, (s.stream n).defined = false) : RingLaws s :=
  ⟨fun n hn => absurd ((h n).symm.trans hn) nofun, fun n _ _ hn => absurd ((h n).symm.trans hn) nofun⟩

theorem rangesMeet_comm (a la b lb : Nat) : rangesMeet a la b lb = rangesMeet b lb a la := Bool.and_comm ..

/-- A definition that passes the overlap check keeps the laws. -/
theorem RingLaws.define {n : Fin 48} {r : StreamRec} (h : RingLaws s) (hfits : ringFits r.base r.length r.hist)
    (hclear : placementMeets s n r.base r.length = false) : RingLaws (s.setStream n r) := by
  have hother : ∀ m, m ≠ n → (s.stream m).defined = true →
      rangesMeet r.base r.length (s.stream m).base (s.stream m).length = false := fun m hm hd => by
    refine Bool.eq_false_iff.mpr fun hmeet => ?_
    rw [rangesMeet, Bool.and_eq_true, decide_eq_true_eq, decide_eq_true_eq] at hmeet
    exact absurd (hclear.symm.trans ((placementMeets_iff s n _ _).mpr ⟨m, hm, hd, hmeet⟩)) nofun
  constructor
  · intro m hd
    by_cases hm : m = n
    · subst hm
      rwa [State.stream_setStream_self]
    · rw [State.stream_setStream_ne _ _ hm] at hd ⊢
      exact h.fits m hd
  · intro m k hne hdm hdk
    by_cases hm : m = n
    · subst hm
      rw [State.stream_setStream_ne _ _ hne.symm] at hdk ⊢
      rw [State.stream_setStream_self]
      exact hother k hne.symm hdk
    · rw [State.stream_setStream_ne _ _ hm] at hdm ⊢
      by_cases hk : k = n
      · subst hk
        rw [State.stream_setStream_self, rangesMeet_comm]
        exact hother m hm hdm
      · rw [State.stream_setStream_ne _ _ hk] at hdk ⊢
        exact h.apart m k hne hdm hdk

theorem RingLaws.retire (h : RingLaws s) (n : Fin 48) : RingLaws (s.setStream n StreamRec.free) := by
  have hd : ∀ m, ((s.setStream n StreamRec.free).stream m).defined = true → m ≠ n := fun m hm hn => by
    subst hn
    rw [State.stream_setStream_self] at hm
    cases hm
  constructor
  · intro m hm
    have hne := hd m hm
    rw [State.stream_setStream_ne _ _ hne] at hm ⊢
    exact h.fits m hm
  · intro m k hmk hm hk
    have hnem := hd m hm
    have hnek := hd k hk
    rw [State.stream_setStream_ne _ _ hnem] at hm ⊢
    rw [State.stream_setStream_ne _ _ hnek] at hk ⊢
    exact h.apart m k hmk hm hk

theorem executeControl_ringLaws {q : Fin 4} {pos : Nat} {h : Header} {body : ControlRec}
    (hh : (s.queue q).head = .control pos h body .executing) (hfits : defineFits (s.queue q).head) (hl : RingLaws s) :
    RingLaws (executeControl q body s) := by
  have hx : ctlIn .executing (s.queue q).head = true := by rw [hh]; rfl
  have hfin : ∀ {u : State} (st : Status) n d hit, RingLaws u → RingLaws (finishControl q st n d hit u) :=
    fun st n d hit hu => hu.keep (StreamsKeep.of_changes (finishControl_changes ..) rfl)
  rw [hh] at hfits
  cases body with
  | defineStream n base length hist producer consumer policy idle =>
    rw [executeControl, execDefine]
    split
    case isTrue => exact hfin _ _ _ _ hl
    case isFalse hclear =>
      split
      · exact hfin _ _ _ _ hl
      · refine hfin _ _ _ _ (RingLaws.keep (RingLaws.define (r := definedStream base length hist producer consumer policy idle)
          (hl.keep (StreamsKeep.of_changes (changes_store ..) rfl)) hfits ?_)
          (StreamsKeep.of_changes (notify_changes ..) rfl))
        exact Bool.eq_false_iff.mpr hclear
  | retireStream n =>
    rw [executeControl]
    unfold execRetire
    split
    · exact hfin _ _ _ _ ((hl.retire n).keep (StreamsKeep.of_changes (notify_changes ..) rfl))
    · exact hfin _ _ _ _ hl
  | _ => exact hl.keep (StreamsKeep.executeControl hx rfl)

theorem exec_ringLaws (h : RingsSound s) : Answers RingLaws (exec c s) := by
  by_cases hsel : c = .controlSelect
  · rw [hsel]
    refine exec_controlSelect_answers h.laws fun q pos hd body _ _ hh => ?_
    have hhead : ((executing q pos hd body s).queue q).head = .control pos hd body .executing := by
      rw [executing, State.queue_setHead_self]
    refine executeControl_ringLaws hhead ?_ (h.laws.keep ⟨fun _ => rfl⟩)
    rw [hhead]
    exact defineFits_of_record (by rw [hh]; rfl) (h.held q)
  · cases hres : resets c with
    | false => exact (exec_definitionsKeep hres hsel).imp fun t ht => h.laws.keep ht
    | true =>
      cases c with
      | clear =>
        refine answers_taken h.laws ?_
        split
        · exact ringLaws_of_no_ring fun n => congrArg StreamRec.defined (stream_reset n)
        · exact h.laws.keep ⟨fun _ => rfl⟩
      | pinReset => exact answers_next (ringLaws_of_no_ring fun n => congrArg StreamRec.defined (stream_reset n))
      | _ => cases hres

/-- Settles O10: the definitions change in the control unit alone, and a head holds only records that decoded. -/
theorem ringsStaySound : Obligations.RingsStaySound := by
  intro s t h hstep
  refine step_keeps (P := RingsSound) h (fun l h => { h with }) (fun c u h t ht => ?_) hstep
  have hlaws := exec_ringLaws h t ht
  refine ⟨hlaws.fits, hlaws.apart, fun q => ?_⟩
  obtain hnone | hsame | ⟨bytes, hdecoded⟩ := (exec_headsStep c u t ht q).record
  · exact defineFits_of_none hnone
  · exact defineFits_of_record hsame (h.held q)
  · exact defineFits_of_decoded hdecoded

end

end Sys2Proof.Machine
end

section
/-! SUPPORT. The slot maps and the binding mirror under every step (R26, R142 to R149). -/

namespace Sys2Proof.Machine

open Sys2Proof

/-! ### One slot and its mirror -/

/-- The slot maps and the mirror in agreement, and the bound streams DEFINED with the right endpoint. -/
structure BindLaws (s : State) : Prop where
  slots : ∀ (p : PortId) (j : Fin 32), slotFits ((s.port p).slot j)
  mirrored : ∀ (p : PortId) (j : Fin 32) (dir : Dir) (n : Fin 48) (ph : BindPhase),
    slotPhase ((s.port p).slot j) = some (dir, n, ph) ↔ mirror (s.stream n) dir = some ⟨p, j, ph⟩
  kinds : ∀ (n : Fin 48) (dir : Dir), (mirror (s.stream n) dir).isSome = true →
    (s.stream n).defined = true ∧ bindKindOk (s.stream n) dir = true

theorem BindingsSound.laws {s : State} (h : BindingsSound s) : BindLaws s := ⟨h.slots, h.mirrored, h.kinds⟩

section

variable {s t : State} {p : PortId} {j : Fin 32} {dir : Dir} {n : Fin 48}

/-- The slots of both ports and the settings of the streams stay. -/
structure BindingsKeep (s t : State) : Prop where
  map : ∀ p, (t.port p).map = (s.port p).map
  streams : StreamsKeep settings s t

theorem BindingsKeep.slot (h : BindingsKeep s t) (p : PortId) (j : Fin 32) : (t.port p).slot j = (s.port p).slot j := by
  rw [PortRec.slot, h.map, PortRec.slot]

theorem mirror_of_settings {r r' : StreamRec} (h : settings r' = settings r) (dir : Dir) : mirror r' dir = mirror r dir := by
  cases dir with
  | rx => exact show (settings r').rxbind = (settings r).rxbind by rw [h]
  | tx => exact show (settings r').txbind = (settings r).txbind by rw [h]

theorem bindKindOk_of_definition {r r' : StreamRec} (h : definitionOf r' = definitionOf r) (dir : Dir) :
    bindKindOk r' dir = bindKindOk r dir := by
  have hp : r'.producer = r.producer := show (definitionOf r').producer = (definitionOf r).producer by rw [h]
  have hc : r'.consumer = r.consumer := show (definitionOf r').consumer = (definitionOf r).consumer by rw [h]
  cases dir with
  | rx => rw [bindKindOk, hp, bindKindOk]
  | tx => rw [bindKindOk, hc, bindKindOk]

theorem StreamsKeep.definitions (h : StreamsKeep settings s t) : StreamsKeep definitionOf s t :=
  ⟨fun n => steady_definitionOf _ _ (h.value n)⟩

theorem BindLaws.keep (h : BindLaws s) (hk : BindingsKeep s t) : BindLaws t := by
  refine ⟨fun p j => ?_, fun p j dir n ph => ?_, fun n dir => ?_⟩
  · rw [hk.slot]
    exact h.slots p j
  · rw [hk.slot, mirror_of_settings (hk.streams.value n)]
    exact h.mirrored p j dir n ph
  · rw [mirror_of_settings (hk.streams.value n), hk.streams.definitions.defined,
      bindKindOk_of_definition (hk.streams.definitions.value n)]
    exact h.kinds n dir

theorem mirror_setMirror (s : State) (n k : Fin 48) (dir d : Dir) (m : Option BindMirror) :
    mirror ((setMirror n dir m s).stream k) d = if k = n ∧ d = dir then m else mirror (s.stream k) d := by
  by_cases hk : k = n
  · subst hk
    cases dir <;> cases d <;> simp [setMirror, mirror]
  · cases dir <;> simp [setMirror, hk]

theorem slot_setSlot_port (s : State) (p k : PortId) (j i : Fin 32) (x : Slot) :
    ((s.setPort p ((s.port p).setSlot j x)).port k).slot i = if k = p ∧ i = j then x else (s.port k).slot i := by
  by_cases hk : k = p
  · subst hk
    simp [PortRec.slot_setSlot]
  · rw [State.port_setPort_ne _ _ hk, if_neg (fun h => hk h.1)]

/-- A slot and the mirror of one stream change together, to one phase or to none. -/
theorem BindLaws.rebind (h : BindLaws s) {x : Slot} {ph : Option BindPhase} (hfits : slotFits x)
    (hphase : slotPhase x = ph.map (fun ph => (dir, n, ph)))
    (hslot : ∀ d k ph, slotPhase ((s.port p).slot j) = some (d, k, ph) → d = dir ∧ k = n)
    (hmirror : ∀ m, mirror (s.stream n) dir = some m → m.port = p ∧ m.slot = j)
    (hkind : (s.stream n).defined = true ∧ bindKindOk (s.stream n) dir = true) :
    BindLaws (setMirror n dir (ph.map (fun ph => ⟨p, j, ph⟩)) (s.setPort p ((s.port p).setSlot j x))) := by
  have hkeep := StreamsKeep.setMirror unbound_definitionOf (s.setPort p ((s.port p).setSlot j x)) n dir (ph.map (fun ph => ⟨p, j, ph⟩))
  have hstream : ∀ k, (s.setPort p ((s.port p).setSlot j x)).stream k = s.stream k := (changes_setPort ..).stream rfl
  refine ⟨fun k i => ?_, fun k i d m φ => ?_, fun m d => ?_⟩
  · rw [setMirror_port, slot_setSlot_port]
    split
    · exact hfits
    · exact h.slots k i
  · rw [setMirror_port, slot_setSlot_port, mirror_setMirror]
    rw [hstream]
    by_cases hs : k = p ∧ i = j
    · obtain ⟨rfl, rfl⟩ := hs
      rw [if_pos ⟨rfl, rfl⟩, hphase]
      by_cases hm : m = n ∧ d = dir
      · obtain ⟨rfl, rfl⟩ := hm
        rw [if_pos ⟨rfl, rfl⟩]
        cases ph <;> simp
      · rw [if_neg hm]
        refine ⟨fun hx => ?_, fun hx => ?_⟩
        · obtain ⟨φ', -, heq⟩ := Option.map_eq_some_iff.mp hx
          obtain ⟨rfl, rfl⟩ : dir = d ∧ n = m := by simpa using And.intro (congrArg Prod.fst heq) (congrArg (·.2.1) heq)
          exact absurd ⟨rfl, rfl⟩ hm
        · obtain ⟨rfl, rfl⟩ := hslot d m φ ((h.mirrored k i d m φ).mpr hx)
          exact absurd ⟨rfl, rfl⟩ hm
    · rw [if_neg hs]
      by_cases hm : m = n ∧ d = dir
      · obtain ⟨rfl, rfl⟩ := hm
        rw [if_pos ⟨rfl, rfl⟩]
        refine ⟨fun hx => ?_, fun hx => ?_⟩
        · exact absurd (hmirror _ ((h.mirrored k i d m φ).mp hx)) hs
        · obtain ⟨φ', -, heq⟩ := Option.map_eq_some_iff.mp hx
          exact absurd ⟨(congrArg BindMirror.port heq).symm, (congrArg BindMirror.slot heq).symm⟩ hs
      · rw [if_neg hm]
        exact h.mirrored k i d m φ
  · rw [mirror_setMirror, hkeep.defined, bindKindOk_of_definition (hkeep.value m)]
    rw [hstream]
    intro hsome
    by_cases hm : m = n ∧ d = dir
    · obtain ⟨rfl, rfl⟩ := hm
      exact hkind
    · rw [if_neg hm] at hsome
      exact h.kinds m d hsome

/-- A slot that stands in some phase changes with its mirror. -/
theorem BindLaws.rebind_of_phase (h : BindLaws s) {x : Slot} {ph : Option BindPhase} {φ : BindPhase}
    (hold : slotPhase ((s.port p).slot j) = some (dir, n, φ)) (hfits : slotFits x)
    (hphase : slotPhase x = ph.map (fun ph => (dir, n, ph))) :
    BindLaws (setMirror n dir (ph.map (fun ph => ⟨p, j, ph⟩)) (s.setPort p ((s.port p).setSlot j x))) := by
  have hm := (h.mirrored p j dir n φ).mp hold
  refine h.rebind hfits hphase (fun d k ψ hψ => ?_) (fun m hm' => ?_) (h.kinds n dir (by rw [hm]; rfl))
  · obtain ⟨rfl, rfl, -⟩ : d = dir ∧ k = n ∧ ψ = φ := by simpa using hψ.symm.trans hold
    exact ⟨rfl, rfl⟩
  · rw [hm] at hm'
    obtain rfl := Option.some.inj hm'
    exact ⟨rfl, rfl⟩

/-! ### The changes of a slot -/

theorem current_of_bind_pending {x : Slot} {q : Fin 4} (hf : slotFits x) (hp : x.pending = some (.bind dir n q)) :
    x.current = none := by
  cases hc : x.current with
  | none => rfl
  | some c => simp [slotFits, hc, hp] at hf

theorem current_of_unbind_pending {x : Slot} {q : Fin 4} (hf : slotFits x) (hp : x.pending = some (.unbind q)) :
    ∃ d k, x.current = some (d, k) := by
  cases hc : x.current with
  | none => simp [slotFits, hc, hp] at hf
  | some c => exact ⟨c.1, c.2, rfl⟩

theorem BindLaws.applySlot (h : BindLaws s) (p : PortId) (j : Fin 32) : BindLaws (applySlot p j s) := by
  have hf := h.slots p j
  cases hp : ((s.port p).slot j).pending with
  | none => rwa [applySlot_of_none hp]
  | some c =>
    cases c with
    | bind dir n q =>
      have hc := current_of_bind_pending hf hp
      rw [applySlot_of_bind hp]
      exact h.rebind_of_phase (x := ⟨some (dir, n), none⟩) (ph := some .current) (φ := .pending) (by simp [slotPhase, hc, hp])
        (by simp [slotFits]) (by simp [slotPhase])
    | unbind q =>
      obtain ⟨dir, n, hc⟩ := current_of_unbind_pending hf hp
      rw [applySlot_of_unbind hp hc]
      exact h.rebind_of_phase (x := Slot.free) (ph := none) (φ := .unbinding) (by simp [slotPhase, hc, hp])
        (by simp [slotFits, Slot.free]) rfl

theorem BindLaws.applySlots (h : BindLaws s) (p : PortId) (l : List (Fin 32)) : BindLaws (applySlots p l s) := by
  induction l generalizing s with
  | nil => exact h
  | cons j l ih => exact ih (h.applySlot p j)

theorem BindLaws.withdrawSlot (h : BindLaws s) (p : PortId) (j : Fin 32) : BindLaws (withdrawSlot p j s) := by
  have hf := h.slots p j
  unfold Machine.withdrawSlot
  dsimp only
  split
  case h_1 => exact h
  case h_2 dir n q hp =>
    have hc := current_of_bind_pending hf hp
    exact h.rebind_of_phase (x := { (s.port p).slot j with pending := none }) (ph := none) (φ := .pending)
      (by simp [slotPhase, hc, hp]) (by simp [slotFits, hc]) (by simp [slotPhase, hc])
  case h_3 q hp =>
    obtain ⟨dir, n, hc⟩ := current_of_unbind_pending hf hp
    simp only [hc]
    rw [← hc]
    exact h.rebind_of_phase (x := { (s.port p).slot j with pending := none }) (ph := some .current) (φ := .unbinding)
      (by simp [slotPhase, hc, hp]) (by simp [slotFits, hc]) (by simp [slotPhase, hc])

/-- A change that passes the checks is recorded. -/
theorem BindLaws.recordPending (h : BindLaws s) {action : BindAction} (hok : bindStatus s p j action = .ok) (q : Fin 4) :
    BindLaws (recordPending p j action q s) := by
  obtain ⟨hl, hj⟩ := slot_of_bindStatus_ok hok
  cases action with
  | bind dir n =>
    rw [bindStatus_bind hl hj] at hok
    have hdef : ¬ (s.stream n).defined = false := fun hd => by simp [hd] at hok
    have hkind : ¬ bindKindOk (s.stream n) dir = false := fun hk => by simp [hdef, hk] at hok
    have hidle : ¬ (((s.port p).slot j).current ≠ none ∨ ((s.port p).slot j).pending ≠ none) := fun hi => by
      simp only [hdef, hkind, hi, if_true] at hok
      cases hok
    have hfree : mirror (s.stream n) dir = none := by
      by_contra hm
      simp only [hdef, hkind, hidle, hm, ne_eq, not_false_eq_true, if_true, if_false] at hok
      cases hok
    obtain ⟨hc, hp⟩ : ((s.port p).slot j).current = none ∧ ((s.port p).slot j).pending = none := by simpa using hidle
    refine h.rebind (x := { (s.port p).slot j with pending := some (.bind dir n q) }) (ph := some .pending)
      (by simp [slotFits, hc]) (by simp [slotPhase, hc]) (fun d k ph hs => ?_) (fun m hm => ?_)
      ⟨by simpa using hdef, by simpa using hkind⟩
    · simp [slotPhase, hc, hp] at hs
    · rw [hfree] at hm
      cases hm
  | unbind =>
    rw [bindStatus_unbind hl hj] at hok
    have hcur : ((s.port p).slot j).current ≠ none := fun hc => by simp [hc] at hok
    have hp : ((s.port p).slot j).pending = none := by
      by_contra hp
      simp [hcur, hp] at hok
    obtain ⟨⟨dir, n⟩, hc⟩ := Option.ne_none_iff_exists'.mp hcur
    rw [recordPending_unbind q hc]
    exact h.rebind_of_phase (x := { (s.port p).slot j with pending := some (.unbind q) }) (ph := some .unbinding) (φ := .current)
      (by simp [slotPhase, hc, hp]) (by simp [slotFits, hc]) (by simp [slotPhase, hc])

/-- A stream without a mirror may be defined or retired. -/
theorem BindLaws.setStream (h : BindLaws s) {r : StreamRec} (hold : ∀ dir, mirror (s.stream n) dir = none)
    (hnew : ∀ dir, mirror r dir = none) : BindLaws (s.setStream n r) := by
  have hport : ∀ p, (s.setStream n r).port p = s.port p := fun p => (changes_setStream ..).port rfl p
  have hmirror : ∀ m dir, mirror ((s.setStream n r).stream m) dir = mirror (s.stream m) dir := fun m dir => by
    by_cases hm : m = n
    · subst hm
      rw [State.stream_setStream_self, hold, hnew]
    · rw [State.stream_setStream_ne _ _ hm]
  refine ⟨fun p j => ?_, fun p j dir m ph => ?_, fun m dir hm => ?_⟩
  · rw [hport]
    exact h.slots p j
  · rw [hport, hmirror]
    exact h.mirrored p j dir m ph
  · rw [hmirror] at hm
    by_cases hmn : m = n
    · subst hmn
      rw [hold] at hm
      cases hm
    · rw [State.stream_setStream_ne _ _ hmn]
      exact h.kinds m dir hm

theorem BindingsKeep.of_changes {F : List Part} (h : Changes F s t) (hs : Part.streams.isIn F = false)
    (hp : Part.ports.isIn F = false) : BindingsKeep s t := ⟨fun p => by rw [h.port hp], StreamsKeep.of_changes h hs⟩

theorem BindingsKeep.trans {u : State} (h : BindingsKeep s t) (h' : BindingsKeep t u) : BindingsKeep s u :=
  ⟨fun p => (h'.map p).trans (h.map p), h.streams.trans h'.streams⟩

theorem BindingsKeep.setPort {r : PortRec} (hr : r.map = (s.port p).map) : BindingsKeep s (s.setPort p r) := by
  refine ⟨fun k => ?_, StreamsKeep.of_changes (changes_setPort ..) rfl⟩
  by_cases hk : k = p
  · subst hk
    rw [State.port_setPort_self, hr]
  · rw [State.port_setPort_ne _ _ hk]

/-! ### The line events -/

theorem takeSlots_bindingsKeep (p : PortId) (f : Word) (l : List (Fin 32)) (s : State) :
    BindingsKeep s (takeSlots p f l s) := by
  refine ⟨fun k => ?_, (StreamsKeep.closed steady_settings).toClosed.ordinary.takeSlots (StreamsKeep.portTake steady_settings) f l s⟩
  by_cases hk : k = p
  · subst hk
    rw [takeSlots_port_self]
  · rw [takeSlots_port_ne _ _ hk]

theorem appendSlots_bindingsKeep (p : PortId) (f : Word) (l : List (Fin 32)) (s : State) :
    BindingsKeep s (appendSlots p f l s) :=
  ⟨fun k => by rw [(appendSlots_changes ..).port rfl],
    (StreamsKeep.closed steady_settings).toClosed.ordinary.appendSlots (StreamsKeep.portAppend steady_settings) f l s⟩

theorem BindLaws.takeLineEvent (h : BindLaws s) (p : PortId) (d : LineDue) : BindLaws (takeLineEvent p d s) := by
  have hnext : ∀ {u v : State} {F : List Part}, BindLaws u → Changes F u v → Part.streams.isIn F = false →
      Part.ports.isIn F = false → BindLaws v := fun hu hc hs hp => hu.keep (BindingsKeep.of_changes hc hs hp)
  cases d with
  | frame mark =>
    rw [Machine.takeLineEvent, frameEvent_eq]
    have hset : BindLaws (frameSettled p s) :=
      (h.keep ((takeSlots_bindingsKeep ..).trans (appendSlots_bindingsKeep ..))).applySlots p slotIds
    exact hnext (hset.keep (BindingsKeep.setPort (by rw [shiftBit_eq]))) (releaseParked_changes ..) rfl rfl
  | huntMark => exact h.keep (BindingsKeep.setPort rfl)
  | drop => exact h.keep (BindingsKeep.setPort rfl)
  | lock =>
    have hset : BindingsKeep s (s.setPort p { s.port p with
        lock := .locked, bitpos := 0, miss := false, candidate := none, due := none }) := BindingsKeep.setPort rfl
    refine hnext (h.keep (hset.trans ((takeSlots_bindingsKeep ..).trans (BindingsKeep.setPort ?_)))) (raiseEvent_changes ..) rfl rfl
    rw [shiftBit_eq]
  | loss reason =>
    have hset : BindingsKeep s (s.setPort p { s.port p with
        lock := .hunting, miss := false, candidate := if reason = .misplaced then some 0 else none,
        txhold := Vector.replicate 32 none, due := none }) := BindingsKeep.setPort rfl
    exact hnext (BindLaws.applySlots (hnext (h.keep hset) (raiseEvent_changes ..) rfl rfl) p slotIds)
      (releaseParked_changes ..) rfl rfl

theorem withDue_frame (r : PortRec) (d : Option LineDue) : (withDue r d).map = r.map ∧ (withDue r d).mode = r.mode := by
  cases d with
  | none => rw [withDue, shiftBit_eq]; exact ⟨rfl, rfl⟩
  | some d => exact ⟨rfl, rfl⟩

/-- A bit clock leaves the mode and the slots. -/
theorem clockPort_frame (din sync : Bool) (r : PortRec) :
    (clockPort din sync r).map = r.map ∧ (clockPort din sync r).mode = r.mode := by
  unfold clockPort
  split
  · exact ⟨rfl, rfl⟩
  · exact ⟨rfl, rfl⟩
  · split
    · unfold masterClock
      split
      · rw [shiftBit_eq]; exact ⟨rfl, rfl⟩
      · exact withDue_frame ..
    · exact withDue_frame ..

theorem BindLaws.bitClock (h : BindLaws s) (p : PortId) (din sync : Bool) : BindLaws (bitClock p din sync s) := by
  have hdue : BindLaws (takeDue p s) := by
    unfold takeDue
    split
    · exact h.takeLineEvent p _
    · exact h
  exact hdue.keep (BindingsKeep.setPort (clockPort_frame ..).1)

/-! ### The control records -/

theorem BindLaws.next (h : BindLaws s) {F : List Part} (hc : Changes F s t) (hs : Part.streams.isIn F = false)
    (hp : Part.ports.isIn F = false) : BindLaws t := h.keep (BindingsKeep.of_changes hc hs hp)

theorem BindLaws.abortParked (h : BindLaws s) (tq : Fin 4) (body : ControlRec) : BindLaws (abortParked tq body s) := by
  refine BindLaws.next ?_ (completeControl_changes ..) rfl rfl
  split
  · exact h.withdrawSlot _ _
  · refine (h.next (withdrawWaiter_changes tq s) rfl rfl).keep ⟨fun p => ?_, ?_⟩
    · rw [(retryJobPlace_changes _).port rfl]
    · exact (StreamsKeep.closed steady_settings).toClosed.retryJobPlace _
  · exact h

theorem BindLaws.abortTarget (h : BindLaws s) (q tq : Fin 4) : BindLaws (abortTarget q tq s) := by
  have hfin : ∀ {u : State} (st : Status), BindLaws u → BindLaws (finishControl q st 0 .none false u) :=
    fun st hu => hu.next (finishControl_changes ..) rfl rfl
  unfold Machine.abortTarget
  split
  · split
    · exact hfin _ (h.next (completeJob_changes ..) rfl rfl)
    · exact hfin _ (h.next (completeJob_changes ..) rfl rfl)
    · refine hfin _ ((h.next (withdrawWaiter_changes tq s) rfl rfl).keep ⟨fun p => ?_, StreamsKeep.failStart steady_settings ..⟩)
      rw [abortStarting, (failStart_changes ..).port rfl]
    · exact h.keep ⟨fun _ => rfl, ⟨fun _ => rfl⟩⟩
  · split
    · exact hfin _ (h.next (completeControl_changes ..) rfl rfl)
    · exact hfin _ (h.abortParked tq _)
    · exact hfin _ h
  · exact hfin _ h

theorem mirror_of_retire {n : Fin 48} (hok : retireStatus (s.stream n) = .ok) (dir : Dir) : mirror (s.stream n) dir = none := by
  have hfree : (s.stream n).rxbind = none ∧ (s.stream n).txbind = none := by
    unfold retireStatus at hok
    split at hok
    · cases hok
    · split at hok
      · cases hok
      · split at hok
        · cases hok
        case isFalse hb => simpa using hb
  cases dir
  exacts [hfree.1, hfree.2]

theorem BindLaws.executeControl {q : Fin 4} (h : BindLaws s) (body : ControlRec) : BindLaws (executeControl q body s) := by
  have hfin : ∀ {u : State} (st : Status) n d hit, BindLaws u → BindLaws (finishControl q st n d hit u) :=
    fun st n d hit hu => hu.next (finishControl_changes ..) rfl rfl
  cases body with
  | defineStream n base length hist producer consumer policy idle =>
    rw [Machine.executeControl, execDefine]
    split
    · exact hfin _ _ _ _ h
    · split
      · exact hfin _ _ _ _ h
      case isFalse hd =>
        have hfree : ∀ dir, mirror (s.stream n) dir = none := fun dir => by
          by_contra hm
          exact hd (h.kinds n dir (Option.isSome_iff_ne_none.mpr hm)).1
        have hdefine : BindLaws ({ s with store := storeWriteAll s.store (historyZeroes base length hist) }.setStream n
            (definedStream base length hist producer consumer policy idle)) :=
          (h.next (changes_store ..) rfl rfl).setStream hfree fun dir => by cases dir <;> rfl
        exact hfin _ _ _ _ (hdefine.next (notify_changes ..) rfl rfl)
  | retireStream n =>
    rw [Machine.executeControl]
    unfold execRetire
    split
    case h_1 hok =>
      have hretire : BindLaws (s.setStream n StreamRec.free) :=
        h.setStream (mirror_of_retire hok) fun dir => by cases dir <;> rfl
      exact hfin _ _ _ _ (hretire.next (notify_changes ..) rfl rfl)
    case h_2 => exact hfin _ _ _ _ h
  | bindSlot p j action =>
    rw [Machine.executeControl]
    unfold execBind
    split
    case h_1 hok =>
      split
      · exact (h.recordPending hok q).next (parkControl_changes ..) rfl rfl
      · exact hfin _ _ _ _ ((h.recordPending hok q).applySlot p j)
    case h_2 => exact hfin _ _ _ _ h
  | clearContext c => exact h.next (execClearContext_changes q c s) rfl rfl
  | readStream n addr rearm => exact h.next (execRead_changes q n addr rearm s) rfl rfl
  | chainControl action addr => exact h.next (chainControl_changes q action addr s) rfl rfl
  | abort tq tag =>
    rw [Machine.executeControl, execAbort]
    split
    · exact h.abortTarget q tq
    · exact hfin _ _ _ _ h
  | marker => exact hfin _ _ _ _ h

/-! ### The laws and the modes of the ports under every command -/

/-- A next state of the laws whose ports keep their modes. -/
structure BindNext (s t : State) : Prop where
  laws : BindLaws t
  modes : ∀ p, (t.port p).mode = (s.port p).mode

theorem BindNext.of_keep (h : BindLaws s) (hk : BindingsKeep s t) (hm : ∀ p, (t.port p).mode = (s.port p).mode) :
    BindNext s t := ⟨h.keep hk, hm⟩

theorem takeLineEvent_mode (d : LineDue) : ((takeLineEvent p d s).port p).mode = (s.port p).mode := by
  cases d with
  | frame mark =>
    obtain ⟨tx, m, hport, -⟩ := frameSettled_port_self (p := p) s
    rw [takeLineEvent, frameEvent_port_self, shiftBit_eq, hport]
  | huntMark => rw [takeLineEvent, huntMark_port_self]
  | drop => rw [takeLineEvent, dropCandidate_port_self]
  | lock => rw [takeLineEvent, lockEvent_port_self, shiftBit_eq]
  | loss reason => rw [takeLineEvent, lossEvent_port_self]

theorem takeLineEvent_bindNext (h : BindLaws s) (p : PortId) (d : LineDue) : BindNext s (takeLineEvent p d s) := by
  refine ⟨h.takeLineEvent p d, fun k => ?_⟩
  by_cases hk : k = p
  · subst hk
    exact takeLineEvent_mode d
  · rw [takeLineEvent_port_ne hk]

theorem bitClock_bindNext (h : BindLaws s) (p : PortId) (din sync : Bool) : BindNext s (bitClock p din sync s) := by
  refine ⟨h.bitClock p din sync, fun k => ?_⟩
  by_cases hk : k = p
  · subst hk
    rw [bitClock_port_self, (clockPort_frame ..).2]
    unfold takeDue
    split
    · exact takeLineEvent_mode _
    · rfl
  · rw [bitClock_port_ne hk]

theorem exec_bindNext (h : BindLaws s) {c : Instr} (hreset : resets c = false) (hsetup : ∀ off a, c ≠ .setupReadAnswer off a) :
    Answers (BindNext s) (exec c s) := by
  have hrefl : BindNext s s := ⟨h, fun _ => rfl⟩
  have hline : ∀ p d, (s.port p).due = some d → BindNext s (takeLineEvent p d s) := fun p d _ => takeLineEvent_bindNext h p d
  have hkeep : Part.ports.isIn (commandParts c) = false → Answers (BindNext s) (exec c s) := fun hports t ht => by
    have hc := exec_changes c s t ht
    refine BindNext.of_keep h ⟨fun p => by rw [hc.port hports], ?_⟩ fun p => by rw [hc.port hports]
    cases hin : inner c with
    | true => exact exec_streamsKeep steady_settings hin hports t ht
    | false =>
      have hparts := inner_of_streams c
      rw [hin, hreset] at hparts
      exact StreamsKeep.of_changes hc (by simpa using hparts)
  cases c with
  | clear => cases hreset
  | pinReset => cases hreset
  | setupReadAnswer off a => exact absurd rfl (hsetup off a)
  | controlSelect =>
    refine fun t ht => ⟨?_, fun k => by rw [(exec_controlSelect_mapMoves s k t ht).rest]⟩
    refine exec_controlSelect_answers h (fun q pos hd body _ _ _ => BindLaws.executeControl (h.keep ⟨fun p => ?_, ?_⟩) body) t ht
    · cases p <;> rfl
    · exact ⟨fun _ => rfl⟩
  | frameEvent p => exact exec_frameEvent_answers hrefl (hline p)
  | huntSyncMark p => exact exec_huntSyncMark_answers hrefl (hline p)
  | candidateDrop p => exact exec_candidateDrop_answers hrefl (hline p)
  | lockEvent p => exact exec_lockEvent_answers hrefl (hline p)
  | lossEvent p => exact exec_lossEvent_answers hrefl (hline p)
  | bitClock p din sync => exact answers_taken hrefl (bitClock_bindNext h p din sync)
  | _ => exact hkeep rfl

end

/-! ### The engine at rest (R169) -/

section

variable {s : State}

theorem not_rests_of_st {st : EngState} (hst : s.eng.st = st) (hoff : st ≠ .off) (hconf : st ≠ .configuring) : ¬ engineRests s := by
  rintro (h | h)
  · exact hoff (hst.symm.trans h)
  · exact hconf (hst.symm.trans h)

/-- Every command but the resets leads to OFF and CONFIGURING from there alone. -/
theorem exec_rests {c : Instr} (hreset : resets c = false) (hsetup : SetupSound s) :
    Answers (fun t => engineRests t → engineRests s) (exec c s) := by
  have hsame : Part.eng.isIn (commandParts c) = false → Answers (fun t => engineRests t → engineRests s) (exec c s) := fun he =>
    exec_keeps_of_parts fun t h hr => by rwa [engineRests, h.eng he] at hr
  have hrefuse : ∀ q, engineRests (refusePost q s) → engineRests s := fun _ => id
  cases c with
  | clear => cases hreset
  | pinReset => cases hreset
  | run =>
    refine answers_taken id ?_
    split
    case h_1 hoff => exact fun _ => .inl hoff
    case h_2 =>
      have hask := ((((askIfEligible_moves 0 (serveWaitList (acceptCommand .running s))).trans (askIfEligible_moves 1 _)).trans
        (askIfEligible_moves 2 _)).trans (askIfEligible_moves 3 _)).toLooseMoves
      intro hr
      exact absurd (((serveEntries_loose _ _).trans hask).rests.mp hr)
        (not_rests_of_st (st := .running) rfl nofun nofun)
    case h_3 => exact id
  | halt =>
    refine answers_taken id ?_
    split
    · intro hr
      exact absurd ((checkDrain_moves _).rests.mp hr) (not_rests_of_st (st := .draining) rfl nofun nofun)
    · exact id
  | engctlReservedCode code =>
    intro t ht
    by_cases hcode : 4 ≤ code.toNat
    · rw [exec, execEngctlReservedCode, if_pos hcode] at ht
      exact answers_taken (P := fun t => engineRests t → engineRests s) (t := refuseCommand s) id id t ht
    · rw [exec, execEngctlReservedCode, if_neg hcode] at ht
      cases ht
  | postAdvance q index =>
    refine answers_taken id ?_
    split
    · exact fun hr => (askIfEligible_moves q (s.setQueue q { s.queue q with prod := index.toNat })).rests.mp hr
    · exact hrefuse q
  | postReservedAction q => exact answers_taken id (hrefuse q)
  | postFlush q =>
    refine answers_taken id ?_
    dsimp only
    split
    · exact hrefuse q
    · split
      · exact id
      · split
        · exact id
        · split
          · exact (flushEffect_loose q s).rests.mp
          · exact (flushOwn_loose q s).rests.mp
  | cqheadWrite index =>
    refine answers_taken id ?_
    split
    · dsimp only
      split
      · intro hr
        have hs : engineRests (postSummary { s with cq := { s.cq with headx := index.toNat } }) := (serveEntries_loose _ _).rests.mp hr
        rwa [engineRests, (postSummary_changes _).eng rfl] at hs
      · exact id
    · exact id
  | setupadrWrite v =>
    refine answers_taken id ?_
    split
    · exact id
    · exact id
  | resetRelease => exact answers_next id
  | setupReadAnswer off a =>
    refine answers_taken id ?_
    split
    · exact id
    case h_2 b hb => exact fun _ => .inr (hsetup.mp (by rw [hb]; rfl))
  | cqWriteError =>
    refine answers_taken id ?_
    split
    · exact id
    · exact fun hr => absurd hr (not_rests_of_st (st := .faulted) rfl nofun nofun)
  | postRestart q => exact hsame rfl
  | tick => exact hsame rfl
  | coalescingTimerExpiry => exact hsame rfl
  | headFetchData q bytes => exact hsame rfl
  | headFetchError q => exact hsame rfl
  | bodyWriteAnswer => exact hsame rfl
  | phaseWriteAnswer => exact hsame rfl
  | _ => exact (exec_moves rfl s).imp fun t h => h.rests.mp

end

/-! ### The laws under every step -/

section

variable {s : State}

theorem modes_iff (s : State) : (s.portA.mode = .off ∧ s.portB.mode = .off) ↔ ∀ p, (s.port p).mode = .off :=
  ⟨fun h p => by cases p; exacts [h.1, h.2], fun h => ⟨h .a, h .b⟩⟩

theorem bindLaws_of_unmirrored (hslot : ∀ p j, (s.port p).slot j = Slot.free) (hmirror : ∀ n dir, mirror (s.stream n) dir = none) :
    BindLaws s where
  slots := fun p j => by rw [hslot]; trivial
  mirrored := fun p j dir n ph => by
    rw [hslot, hmirror]
    exact ⟨nofun, nofun⟩
  kinds := fun n dir h => by
    rw [hmirror] at h
    cases h

/-- A block whose ports are OFF binds no stream. -/
theorem mirror_of_modes (h : BindLaws s) (hports : PortsSound s) (hoff : ∀ p, (s.port p).mode = .off) (n : Fin 48) (dir : Dir) :
    mirror (s.stream n) dir = none := by
  cases hm : mirror (s.stream n) dir with
  | none => rfl
  | some m =>
    have hfree := (((portsSound_iff s).mp hports m.port).unused m.slot (.inl (hoff m.port))).1
    have hphase := (h.mirrored m.port m.slot dir n m.phase).mpr hm
    rw [hfree] at hphase
    cases hphase

theorem loadedPort_slot (x : SetupPort) (r : PortRec) (j : Fin 32) : (loadedPort x r).slot j = Slot.free := by
  unfold loadedPort
  split <;> exact slot_reset j

theorem exec_setupReadAnswer_bindings (off : Nat) (a : Answer) (he : EngineSound s) (hports : PortsSound s) (h : BindingsSound s) :
    Answers BindingsSound (exec (.setupReadAnswer off a) s) := by
  refine answers_taken h ?_
  split
  · exact h
  case h_2 b hb =>
    have hrests : engineRests s := .inr (he.setup.mp (by rw [hb]; rfl))
    have hoff := (modes_iff s).mp (h.rest hrests)
    split
    · dsimp only
      split
      · unfold setupDone
        split
        · exact { h with rest := fun _ => h.rest hrests }
        · dsimp only
          split
          · exact { h with rest := fun _ => h.rest hrests }
          · have hmirror := mirror_of_modes h.laws hports hoff
            refine { bindLaws_of_unmirrored (s := setupAccept _ s) (fun p j => ?_) hmirror with
              rest := fun hr => hr.elim nofun nofun }
            cases p <;> exact loadedPort_slot ..
      · exact { h with rest := fun _ => h.rest hrests }
    · exact h

theorem bindingsSound_of_reset {t : State} (hport : ∀ p, t.port p = PortRec.reset) (hstream : ∀ n, t.stream n = StreamRec.free) :
    BindingsSound t := by
  refine { bindLaws_of_unmirrored (s := t) (fun p j => ?_) (fun n dir => ?_) with rest := fun _ => (modes_iff t).mpr fun p => ?_ }
  · rw [hport, slot_reset]
  · rw [hstream]
    cases dir <;> rfl
  · rw [hport]
    rfl

theorem exec_bindingsSound (c : Instr) (he : EngineSound s) (hports : PortsSound s) (h : BindingsSound s) :
    Answers BindingsSound (exec c s) := by
  cases hreset : resets c with
  | true =>
    cases c with
    | clear =>
      refine answers_taken h ?_
      split
      · exact bindingsSound_of_reset (fun p => by cases p <;> rfl) stream_reset
      · exact { h with }
    | pinReset => exact answers_next (bindingsSound_of_reset (fun p => by cases p <;> rfl) stream_reset)
    | _ => cases hreset
  | false =>
    by_cases hsetup : ∃ off a, c = .setupReadAnswer off a
    · obtain ⟨off, a, rfl⟩ := hsetup
      exact exec_setupReadAnswer_bindings off a he hports h
    · intro t ht
      obtain ⟨hlaws, hmodes⟩ := exec_bindNext h.laws hreset (fun off a hc => hsetup ⟨off, a, hc⟩) t ht
      refine { hlaws with rest := fun hr => (modes_iff t).mpr fun p => ?_ }
      rw [hmodes p]
      exact (modes_iff s).mp (h.rest (exec_rests hreset he.setup t ht hr)) p

end

/-- Settles O15: a slot and its mirror change together, each operation to one phase or to none. -/
theorem bindingsStaySound : Obligations.BindingsStaySound := fun s t he hp h hstep => by
  obtain rfl | ⟨c, l, hc⟩ := step_next_cases hstep
  · exact h
  · exact exec_bindingsSound (s := { s with pending := l }) c { he with } hp { h with } t hc

end Sys2Proof.Machine
end

section
/-! SUPPORT. Reservations, the reservation wait list and the completion ring under every operation (R27, R35 to R38, R46, R151). -/

namespace Sys2Proof.Machine

open Sys2Proof

/-! ### The completion ring's counts (R151, R153, R154) -/

/-- The indices are in range, `k` entries are reserved, and posted and reserved entries fit the ring. -/
structure RingHolds (c : CqWriter) (k : Nat) : Prop where
  indices : indicesSound c
  resv : c.resv = k
  fits : postedCount c + k ≤ c.size

section

variable {c c' : CqWriter} {k : Nat} {r : CqRec}

/-- The posted count without its modulus. -/
theorem postedCount_of_indices (h : indicesSound c) :
    postedCount c = if c.headx ≤ c.tailx then c.tailx - c.headx else c.tailx + 2 * c.size - c.headx := by
  unfold indicesSound at h
  rw [postedCount]
  by_cases hz : c.size = 0
  · rw [if_pos hz] at h
    simp [hz, h.1, h.2]
  · rw [if_neg hz] at h
    split
    case isTrue hle =>
      have heq : c.tailx + 2 * c.size - c.headx = (c.tailx - c.headx) + 2 * c.size := by omega
      rw [heq, Nat.add_mod_right, Nat.mod_eq_of_lt (by omega)]
    case isFalse hlt => rw [Nat.mod_eq_of_lt (by omega)]

theorem ringHolds_congr (h : RingHolds c k) (hs : c'.size = c.size) (ht : c'.tailx = c.tailx) (hh : c'.headx = c.headx)
    (hr : c'.resv = c.resv) : RingHolds c' k := by
  obtain ⟨hi, hres, hf⟩ := h
  refine ⟨?_, hr.trans hres, ?_⟩
  · rw [indicesSound, hs, ht, hh]
    exact hi
  · rw [postedCount, hs, ht, hh]
    exact hf

/-- A record is posted into a free entry. -/
theorem RingHolds.post (h : RingHolds c k) (hfree : postedCount c + k < c.size) : RingHolds (cqPost c r) k := by
  obtain ⟨hi, hres, -⟩ := h
  have hz : c.size ≠ 0 := by omega
  have hrange : c.tailx < 2 * c.size ∧ c.headx < 2 * c.size := by
    rwa [indicesSound, if_neg hz] at hi
  have hp := postedCount_of_indices hi
  have hnext : (c.tailx + 1) % (2 * c.size) = if c.tailx + 1 = 2 * c.size then 0 else c.tailx + 1 := by
    split
    case isTrue heq => rw [heq, Nat.mod_self]
    case isFalse hne => exact Nat.mod_eq_of_lt (by omega)
  have hi' : indicesSound (cqPost c r) := by
    rw [indicesSound]
    exact (if_neg hz).mpr ⟨Nat.mod_lt _ (by omega), hrange.2⟩
  refine ⟨hi', hres, ?_⟩
  rw [postedCount_of_indices hi']
  change (if c.headx ≤ (c.tailx + 1) % (2 * c.size) then (c.tailx + 1) % (2 * c.size) - c.headx
    else (c.tailx + 1) % (2 * c.size) + 2 * c.size - c.headx) + k ≤ c.size
  rw [hp] at hfree
  rw [hnext]
  split at hfree <;> split <;> split <;> omega

theorem RingHolds.post_free (h : RingHolds c k) (hfree : freeCount c ≠ 0) : RingHolds (cqPost c r) k :=
  h.post (by
    have hresv := h.resv
    rw [freeCount] at hfree
    omega)

/-- A record is posted against a reservation. -/
theorem RingHolds.postReserved (h : RingHolds c (k + 1)) : RingHolds (cqPostReserved c r) k := by
  have hfits := h.fits
  have hresv := h.resv
  have hpost : RingHolds (cqPost { c with resv := k } r) k :=
    RingHolds.post ⟨h.indices, rfl, show postedCount c + k ≤ c.size by omega⟩ (show postedCount c + k < c.size by omega)
  exact ringHolds_congr hpost rfl rfl rfl (show c.resv - 1 = k by omega)

theorem RingHolds.reserve (h : RingHolds c k) (hfree : freeCount c ≠ 0) : RingHolds { c with resv := c.resv + 1 } (k + 1) := by
  obtain ⟨hi, hresv, hf⟩ := h
  rw [freeCount] at hfree
  exact ⟨hi, by rw [← hresv], show postedCount c + (k + 1) ≤ c.size by omega⟩

theorem RingHolds.unreserve (h : RingHolds c (k + 1)) : RingHolds { c with resv := c.resv - 1 } k := by
  obtain ⟨hi, hresv, hf⟩ := h
  exact ⟨hi, show c.resv - 1 = k by omega, show postedCount c + k ≤ c.size by omega⟩

/-- CQHEAD moves over posted records alone (R157). -/
theorem RingHolds.advance {index : Nat} (h : RingHolds c k) (hrange : index < 2 * c.size)
    (hd : headDistance c index ≤ postedCount c) : RingHolds { c with headx := index } k := by
  obtain ⟨hi, hresv, hf⟩ := h
  have hz : c.size ≠ 0 := by omega
  have hp := postedCount_of_indices hi
  have hrange' : c.tailx < 2 * c.size ∧ c.headx < 2 * c.size := by
    rwa [indicesSound, if_neg hz] at hi
  have hi' : indicesSound { c with headx := index } := (if_neg hz).mpr ⟨hrange'.1, hrange⟩
  have hdist : headDistance c index = if c.headx ≤ index then index - c.headx else index + 2 * c.size - c.headx := by
    have hsame := postedCount_of_indices (c := { c with tailx := index }) ((if_neg hz).mpr ⟨hrange, hrange'.2⟩)
    exact hsame
  refine ⟨hi', hresv, ?_⟩
  rw [postedCount_of_indices hi']
  change (if index ≤ c.tailx then c.tailx - index else c.tailx + 2 * c.size - index) + k ≤ c.size
  rw [hdist, hp] at hd
  rw [hp] at hf
  split at hd <;> split at hf <;> split at hd <;> split <;> omega

end

/-! ### The wait list, DISCARD and RESV together -/

/-- What an entry of the wait list says of its queue's record (R37, R38). -/
def entryFits (r : QueueRec) : Purpose → Prop
  | .fetch => r.head = .empty ∧ r.flushPend = false
  | .flush => (r.head = .empty ∨ discarding r = true) ∧ r.flushPend = true

theorem waitEntrySound_iff (s : State) (e : Fin 4 × Purpose) : waitEntrySound s e ↔ entryFits (s.queue e.1) e.2 := by
  obtain ⟨q, p⟩ := e
  cases p <;> exact Iff.rfl

/-- The wait list and DISCARD in agreement with the heads. -/
structure WaitsSound (s : State) : Prop where
  once : (s.waitList.map Prod.fst).Nodup
  fits : ∀ e ∈ s.waitList, entryFits (s.queue e.1) e.2
  discard : DiscardSound s

/-- The completion ring in agreement with them too. -/
structure ReserveSound (s : State) : Prop extends WaitsSound s where
  ring : RingHolds s.cq (reservationsHeld s)

theorem HeadsSound.reserve {s : State} (h : HeadsSound s) : ReserveSound s where
  once := h.wait.1
  fits := fun e he => (waitEntrySound_iff s e).mp (h.wait.2 e he)
  discard := h.discard
  ring := ⟨h.ring.1, h.ring.2.1, by rw [← h.ring.2.1]; exact h.ring.2.2⟩

theorem ReserveSound.waitListSound {s : State} (h : ReserveSound s) : WaitListSound s :=
  ⟨h.once, fun e he => (waitEntrySound_iff s e).mpr (h.fits e he)⟩

theorem ReserveSound.ringSound {s : State} (h : ReserveSound s) : RingSound s :=
  ⟨h.ring.indices, h.ring.resv, by rw [h.ring.resv]; exact h.ring.fits⟩

/-- Number of heads of the other queues that hold a reservation. -/
def heldElsewhere (s : State) (q : Fin 4) : Nat :=
  (queueIds.filter (fun k => decide (k ≠ q) && holdsReservation (s.queue k))).length

theorem reservationsHeld_eq (s : State) (q : Fin 4) :
    reservationsHeld s = heldElsewhere s q + (holdsReservation (s.queue q)).toNat := by
  have hcount : ∀ b : Bool, (if b = true then 1 else 0) = b.toNat := fun b => by cases b <;> rfl
  rw [reservationsHeld, heldElsewhere, ← List.countP_eq_length_filter, ← List.countP_eq_length_filter]
  fin_cases q <;> simp [queueIds, List.countP_cons, hcount] <;> omega

theorem heldElsewhere_congr {s t : State} {q : Fin 4} (h : ∀ k, k ≠ q → t.queue k = s.queue k) :
    heldElsewhere t q = heldElsewhere s q := by
  rw [heldElsewhere, heldElsewhere]
  refine congrArg List.length (List.filter_congr fun k _ => ?_)
  by_cases hk : k = q
  · simp [hk]
  · rw [h k hk]

section

variable {s t : State} {q : Fin 4}

/-- A change of one queue's record, of the wait list and of the ring. -/
theorem WaitsSound.update (h : WaitsSound s) (q : Fin 4) (hne : ∀ k, k ≠ q → t.queue k = s.queue k)
    (hlist : (t.waitList.map Prod.fst).Nodup) (hmem : ∀ e ∈ t.waitList, e.1 ≠ q → e ∈ s.waitList)
    (hfits : ∀ p, (q, p) ∈ t.waitList → entryFits (t.queue q) p)
    (hd : (t.queue q).discard = true → discarding (t.queue q) = true)
    (hring : RingHolds t.cq (heldElsewhere s q + (holdsReservation (t.queue q)).toNat)) : ReserveSound t where
  once := hlist
  fits := fun e he => by
    obtain ⟨k, p⟩ := e
    by_cases hk : k = q
    · subst hk
      exact hfits p he
    · rw [hne k hk]
      exact h.fits (k, p) (hmem _ he hk)
  discard := fun k => by
    by_cases hk : k = q
    · subst hk
      exact hd
    · rw [hne k hk]
      exact h.discard k
  ring := by
    rw [reservationsHeld_eq t q, heldElsewhere_congr hne]
    exact hring

/-- A change of a record alone keeps the laws where the head holds as before and the entries still fit. -/
theorem ReserveSound.setQueue (h : ReserveSound s) {r : QueueRec} (hfits : ∀ p, (q, p) ∈ s.waitList → entryFits r p)
    (hd : r.discard = true → discarding r = true) (hh : holdsReservation r = holdsReservation (s.queue q)) :
    ReserveSound (s.setQueue q r) := by
  refine h.update q (fun k hk => State.queue_setQueue_ne _ _ hk) h.once (fun e he _ => he) ?_ ?_ ?_
  · rw [State.queue_setQueue_self]
    exact hfits
  · rw [State.queue_setQueue_self]
    exact hd
  · rw [State.queue_setQueue_self, hh, ← reservationsHeld_eq]
    exact h.ring

/-- Two records say the same of reservations and of the wait list. -/
structure SameReserve (r r' : QueueRec) : Prop where
  empty : r'.head = .empty ↔ r.head = .empty
  discarding : discarding r' = discarding r
  discard : r'.discard = r.discard
  flushPend : r'.flushPend = r.flushPend

theorem sameReserve_of_head {r r' : QueueRec} (hh : r'.head = r.head) (hd : r'.discard = r.discard)
    (hf : r'.flushPend = r.flushPend) : SameReserve r r' :=
  ⟨by rw [hh], by rw [discarding, discarding, hh, hd], hd, hf⟩

theorem ReserveSound.congr (h : ReserveSound s) (hq : ∀ k, SameReserve (s.queue k) (t.queue k))
    (hw : t.waitList = s.waitList) (hc : RingHolds t.cq (reservationsHeld s)) : ReserveSound t := by
  have hheld : reservationsHeld t = reservationsHeld s := by
    rw [reservationsHeld, reservationsHeld]
    refine congrArg List.length (List.filter_congr fun k _ => ?_)
    rw [holdsReservation, holdsReservation, (hq k).discarding]
    simp only [ne_eq, (hq k).empty]
  refine ⟨⟨by rw [hw]; exact h.once, fun e he => ?_, fun k => ?_⟩, by rw [hheld]; exact hc⟩
  · rw [hw] at he
    obtain ⟨k, p⟩ := e
    have hf := h.fits (k, p) he
    cases p with
    | fetch => exact ⟨(hq k).empty.mpr hf.1, (hq k).flushPend.trans hf.2⟩
    | flush => exact ⟨hf.1.imp (hq k).empty.mpr (hq k).discarding.trans, (hq k).flushPend.trans hf.2⟩
  · rw [(hq k).discard, (hq k).discarding]
    exact h.discard k

theorem SameReserve.refl (r : QueueRec) : SameReserve r r := ⟨Iff.rfl, rfl, rfl, rfl⟩

theorem ReserveSound.of_cq (h : ReserveSound s) {c : CqWriter} (hc : RingHolds c (reservationsHeld s)) :
    ReserveSound { s with cq := c } := h.congr (fun _ => SameReserve.refl _) rfl hc

theorem ReserveSound.of_changes {F : List Part} (h : ReserveSound s) (hc : Changes F s t) (hq : Part.queues.isIn F = false)
    (hw : Part.waits.isIn F = false) (hcq : Part.cq.isIn F = false) : ReserveSound t :=
  h.congr (fun k => by rw [hc.queue hq]; exact SameReserve.refl _) (hc.waitList hw) (by rw [hc.cq hcq]; exact h.ring)

/-! ### What a head says of the reservation and the list -/

theorem holds_of_record {r : QueueRec} (h : heldRecord r.head ≠ none) : holdsReservation r = true ∧ discarding r = false := by
  cases hh : r.head with
  | empty => rw [hh] at h; exact absurd rfl h
  | fetching pos => rw [hh] at h; exact absurd rfl h
  | data pos hd j => simp [holdsReservation, discarding, hh]
  | control pos hd body c => simp [holdsReservation, discarding, hh]

theorem holds_of_empty {r : QueueRec} (h : r.head = .empty) : holdsReservation r = false := by simp [holdsReservation, h]

theorem holds_of_discarding {r : QueueRec} (h : discarding r = true) : holdsReservation r = false := by
  simp [holdsReservation, h]

theorem holds_of_fits {r : QueueRec} {p : Purpose} (h : entryFits r p) : holdsReservation r = false := by
  cases p with
  | fetch => exact holds_of_empty h.1
  | flush => exact h.1.elim holds_of_empty holds_of_discarding

/-- A queue whose head holds a reservation does not wait for one. -/
theorem WaitsSound.not_listed (h : WaitsSound s) (hh : holdsReservation (s.queue q) = true) : listed s q = false := by
  rw [listed_eq_false_iff]
  rintro ⟨k, p⟩ he rfl
  rw [holds_of_fits (h.fits _ he)] at hh
  cases hh

theorem not_mem_of_not_listed (hl : listed s q = false) (p : Purpose) : (q, p) ∉ s.waitList := fun he =>
  (listed_eq_false_iff s q).mp hl _ he rfl

theorem WaitsSound.discard_of_head (h : WaitsSound s) (hh : discarding (s.queue q) = false) :
    (s.queue q).discard = false := Bool.eq_false_iff.mpr fun hd => absurd (hh.symm.trans (h.discard q hd)) nofun

/-! ### Fetches and flushes -/

theorem ReserveSound.issueFetch (h : ReserveSound s) (hl : listed s q = false) (hh : (s.queue q).head = .empty)
    (hfree : freeCount s.cq ≠ 0) : ReserveSound (issueFetch q s) := by
  have hd : (s.queue q).discard = false := h.discard_of_head (by simp [discarding, hh])
  refine h.update (t := Machine.issueFetch q s) q (fun k hk => State.queue_setQueue_ne _ _ hk) h.once (fun e he _ => he)
    (fun p hp => absurd hp (not_mem_of_not_listed hl p)) ?_ ?_
  · rw [Machine.issueFetch, State.queue_setQueue_self]
    intro hdisc
    exact absurd (hd.symm.trans hdisc) nofun
  · have hheld : holdsReservation ((Machine.issueFetch q s).queue q) = true := by
      rw [Machine.issueFetch, State.queue_setQueue_self]
      simp [holdsReservation, discarding, hd]
    have hring := h.ring
    rw [reservationsHeld_eq s q, holds_of_empty hh] at hring
    rw [hheld]
    exact hring.reserve hfree

/-- A queue that is not listed joins the list with a purpose that fits. -/
theorem ReserveSound.list (h : ReserveSound s) {p : Purpose} (hl : listed s q = false) (hp : entryFits (s.queue q) p) :
    ReserveSound { s with waitList := s.waitList ++ [(q, p)] } := by
  refine h.update q (fun _ _ => rfl) ?_ (fun e he hne => ?_) (fun p' hp' => ?_) (h.discard q) ?_
  · rw [List.map_append, List.nodup_append]
    refine ⟨h.once, List.nodup_singleton _, fun k hk k' hk' => ?_⟩
    obtain ⟨e, he, rfl⟩ := List.mem_map.mp hk
    rw [List.mem_singleton.mp hk']
    exact (listed_eq_false_iff s q).mp hl e he
  · obtain he | he := List.mem_append.mp he
    · exact he
    · rw [List.mem_singleton.mp he] at hne
      exact absurd rfl hne
  · obtain he | he := List.mem_append.mp hp'
    · exact absurd he (not_mem_of_not_listed hl p')
    · cases List.mem_singleton.mp he
      exact hp
  · change RingHolds s.cq (heldElsewhere s q + (holdsReservation (s.queue q)).toNat)
    rw [← reservationsHeld_eq]
    exact h.ring

theorem ReserveSound.askIfEligible (h : ReserveSound s) (q : Fin 4) : ReserveSound (askIfEligible q s) := by
  unfold Machine.askIfEligible
  split
  case isTrue hask =>
    rw [Bool.and_eq_true, eligible_iff] at hask
    obtain ⟨⟨-, -, -, hh, hpend⟩, hl⟩ := hask
    have hl' : Machine.listed s q = false := by simpa using hl
    unfold askFetch
    split
    case isTrue => exact h.list hl' ⟨hh, hpend⟩
    case isFalse hfree => exact h.issueFetch hl' hh hfree
  case isFalse => exact h

theorem flushedQueue_record (r : QueueRec) : (flushedQueue r).head = .empty ∧ (flushedQueue r).discard = r.discard ∨
    (∃ pos, (flushedQueue r).head = .fetching pos) ∧ (flushedQueue r).discard = true := by
  unfold flushedQueue
  split
  case h_1 pos hh => exact .inr ⟨⟨pos, hh⟩, rfl⟩
  case h_2 => exact .inl ⟨rfl, rfl⟩

theorem flushedQueue_holds (r : QueueRec) : holdsReservation (flushedQueue r) = false := by
  obtain ⟨hh, -⟩ | ⟨⟨pos, hh⟩, hd⟩ := flushedQueue_record r
  · exact holds_of_empty hh
  · exact holds_of_discarding (by simp [discarding, hh, hd])

theorem WaitsSound.unlist (h : WaitsSound s) (q : Fin 4) : WaitsSound (unlist s q) where
  once := h.once.sublist (List.filter_sublist.map _)
  fits := fun e he => h.fits e (List.mem_of_mem_filter he)
  discard := h.discard

theorem listed_unlist (s : State) (q : Fin 4) : listed (unlist s q) q = false := by
  rw [listed_eq_false_iff]
  intro e he
  simpa using (List.mem_filter.mp he).2

/-- A flush takes effect against a reservation. -/
theorem WaitsSound.flushEffect (h : WaitsSound s) (hl : listed s q = false) (hring : RingHolds s.cq (heldElsewhere s q + 1)) :
    ReserveSound (flushEffect q s) := by
  have hself : (Machine.flushEffect q s).queue q = flushedQueue (s.queue q) := by
    rw [Machine.flushEffect, State.queue_setQueue_self]
  refine h.update (t := Machine.flushEffect q s) q (fun k hk => State.queue_setQueue_ne _ _ hk) h.once (fun e he _ => he)
    (fun p hp => absurd hp (not_mem_of_not_listed hl p)) ?_ ?_
  · rw [hself]
    intro hd
    obtain ⟨hh, hdisc⟩ | ⟨⟨pos, hh⟩, -⟩ := flushedQueue_record (s.queue q)
    · rw [hdisc] at hd
      have hfetch := h.discard q hd
      unfold discarding at hfetch
      split at hfetch
      case h_1 pos hpos =>
        unfold flushedQueue at hh
        simp only [hpos] at hh
        cases hh
      case h_2 => cases hfetch
    · simp [discarding, hh, hd]
  · rw [hself, flushedQueue_holds]
    exact hring.postReserved

/-- A flush takes effect against a reservation granted to it. -/
theorem ReserveSound.flushGranted (h : ReserveSound s) (hh : holdsReservation (s.queue q) = false) (hfree : freeCount s.cq ≠ 0) :
    ReserveSound (flushEffect q (reserve (unlist s q))) := by
  have hwaits := h.toWaitsSound.unlist q
  have hring := h.ring
  rw [reservationsHeld_eq s q, hh] at hring
  exact WaitsSound.flushEffect (s := reserve (unlist s q)) ⟨hwaits.once, hwaits.fits, hwaits.discard⟩ (listed_unlist s q)
    (hring.reserve hfree)

/-- The wait list after a flush asked for a reservation. -/
def flushListed (q : Fin 4) (s : State) : List (Fin 4 × Purpose) :=
  if listed s q then s.waitList.map (fun e => if e.1 = q then (q, .flush) else e) else s.waitList ++ [(q, .flush)]

theorem flushListed_once (h : WaitsSound s) (q : Fin 4) : ((flushListed q s).map Prod.fst).Nodup := by
  unfold flushListed
  split
  case isTrue =>
    have hfst : (s.waitList.map fun e => if e.1 = q then (q, Purpose.flush) else e).map Prod.fst = s.waitList.map Prod.fst := by
      rw [List.map_map]
      refine List.map_congr_left fun e _ => ?_
      by_cases he : e.1 = q <;> simp [he]
    rw [hfst]
    exact h.once
  case isFalse hl =>
    rw [List.map_append, List.nodup_append]
    refine ⟨h.once, List.nodup_singleton _, fun k hk k' hk' => ?_⟩
    obtain ⟨e, he, rfl⟩ := List.mem_map.mp hk
    rw [List.mem_singleton.mp hk']
    exact (listed_eq_false_iff s q).mp (Bool.eq_false_iff.mpr hl) e he

theorem mem_flushListed {e : Fin 4 × Purpose} (he : e ∈ flushListed q s) : e = (q, .flush) ∨ e.1 ≠ q ∧ e ∈ s.waitList := by
  unfold flushListed at he
  split at he
  case isTrue =>
    obtain ⟨e', he', rfl⟩ := List.mem_map.mp he
    by_cases hq : e'.1 = q
    · exact .inl (if_pos hq)
    · rw [if_neg hq]
      exact .inr ⟨hq, he'⟩
  case isFalse hl =>
    obtain he | he := List.mem_append.mp he
    · exact .inr ⟨(listed_eq_false_iff s q).mp (Bool.eq_false_iff.mpr hl) e he, he⟩
    · exact .inl (List.mem_singleton.mp he)

theorem listForFlush_eq (q : Fin 4) (s : State) : listForFlush q s = { s with waitList := flushListed q s } := by
  unfold listForFlush flushListed
  split <;> rfl

/-- A flush that cannot be granted a reservation stays pending in the list. -/
theorem ReserveSound.flushWaits (h : ReserveSound s) (hh : (s.queue q).head = .empty ∨ discarding (s.queue q) = true) :
    ReserveSound (listForFlush q (s.setQueue q { s.queue q with flushPend := true })) := by
  have hlist : flushListed q (s.setQueue q { s.queue q with flushPend := true }) = flushListed q s := rfl
  rw [listForFlush_eq, hlist]
  have hself : (State.queue { s.setQueue q { s.queue q with flushPend := true } with waitList := flushListed q s } q) =
      { s.queue q with flushPend := true } := State.queue_setQueue_self ..
  refine h.update (t := { s.setQueue q { s.queue q with flushPend := true } with waitList := flushListed q s }) q
    (fun k hk => State.queue_setQueue_ne _ _ hk) (flushListed_once h.toWaitsSound q) (fun e he hne => ?_) (fun p hp => ?_) ?_ ?_
  · obtain rfl | ⟨-, hmem⟩ := mem_flushListed he
    · exact absurd rfl hne
    · exact hmem
  · obtain heq | ⟨hne, -⟩ := mem_flushListed hp
    · cases heq
      rw [hself]
      exact ⟨hh, rfl⟩
    · exact absurd rfl hne
  · rw [hself]
    exact h.discard q
  · rw [hself]
    change RingHolds s.cq (heldElsewhere s q + (holdsReservation (s.queue q)).toNat)
    rw [← reservationsHeld_eq]
    exact h.ring

theorem ReserveSound.flushOwn (h : ReserveSound s) (hh : (s.queue q).head = .empty ∨ discarding (s.queue q) = true) :
    ReserveSound (flushOwn q s) := by
  unfold Machine.flushOwn
  split
  case isTrue => exact h.flushWaits hh
  case isFalse hfree => exact h.flushGranted (hh.elim holds_of_empty holds_of_discarding) hfree

/-! ### The wait list is served (R38) -/

/-- Entries of the list are served, oldest first. -/
theorem ReserveSound.serveEntries {l : List (Fin 4 × Purpose)} (h : ReserveSound s) (hl : (l.map Prod.fst).Nodup)
    (hmem : ∀ e ∈ l, e ∈ s.waitList) : ReserveSound (serveEntries l s) := by
  induction l generalizing s with
  | nil => exact h
  | cons e rest ih =>
    obtain ⟨q, p⟩ := e
    rw [List.map_cons, List.nodup_cons] at hl
    obtain ⟨hq, hrest⟩ : q ∉ rest.map Prod.fst ∧ (rest.map Prod.fst).Nodup := hl
    have hentry := h.fits (q, p) (hmem _ List.mem_cons_self)
    have hkept : ∀ e ∈ rest, e ∈ (unlist s q).waitList := fun e he =>
      List.mem_filter.mpr ⟨hmem e (List.mem_cons_of_mem _ he), by
        simpa using fun heq : e.1 = q => hq (by rw [← heq]; exact List.mem_map_of_mem he)⟩
    unfold Machine.serveEntries
    split
    · exact ih h hrest fun e he => hmem e (List.mem_cons_of_mem _ he)
    · split
      · exact h
      case isFalse hfree =>
        cases p with
        | fetch =>
          have hunlist : ReserveSound (unlist s q) := ⟨h.toWaitsSound.unlist q, h.ring⟩
          exact ih (hunlist.issueFetch (listed_unlist s q) hentry.1 hfree) hrest hkept
        | flush => exact ih (h.flushGranted (holds_of_fits hentry) hfree) hrest hkept

theorem ReserveSound.serveWaitList (h : ReserveSound s) : ReserveSound (serveWaitList s) :=
  h.serveEntries h.once fun _ he => he

/-! ### Completions and events -/

/-- A head that holds a reservation hands its completion over. -/
theorem ReserveSound.completeHead (h : ReserveSound s) (hh : holdsReservation (s.queue q) = true) (r : CqRec) :
    ReserveSound (completeHead q r s) := by
  have hl := h.not_listed hh
  have hd : (s.queue q).discard = false := h.discard_of_head (by
    rw [holdsReservation, Bool.and_eq_true] at hh
    simpa using hh.2)
  have hring := h.ring
  rw [reservationsHeld_eq s q, hh] at hring
  have hempty : ∀ c, RingHolds c (heldElsewhere s q) → ReserveSound ({ s with cq := c }.setHead q .empty) := fun c hc => by
    refine h.update (t := { s with cq := c }.setHead q .empty) q (fun k hk => State.queue_setQueue_ne _ _ hk) h.once
      (fun e he _ => he) (fun p hp => absurd hp (not_mem_of_not_listed hl p)) ?_ ?_
    · rw [State.queue_setHead_self]
      intro hdisc
      exact absurd (hd.symm.trans hdisc) nofun
    · rw [State.queue_setHead_self, holds_of_empty rfl]
      exact hc
  unfold Machine.completeHead
  split
  case isTrue =>
    have hposted := hempty _ (hring.postReserved (r := r))
    have hhead : (({ s with cq := cqPostReserved s.cq r }.setHead q .empty).queue q).head = .empty := by
      rw [State.queue_setHead_self]
    unfold afterEmpty
    split
    case isTrue => exact hposted.flushOwn (.inl hhead)
    case isFalse => exact hposted.askIfEligible q
  case isFalse => exact hempty _ hring.unreserve

theorem ReserveSound.postSummary (h : ReserveSound s) : ReserveSound (postSummary s) := by
  unfold Machine.postSummary
  split
  · exact h
  case isFalse hne =>
    have hfree : freeCount s.cq ≠ 0 := by
      intro hz
      simp [hz] at hne
    exact h.of_cq (ringHolds_congr (h.ring.post_free (r := summaryRec s) hfree) rfl rfl rfl rfl)

theorem ReserveSound.raiseEvent (h : ReserveSound s) (k : EvKind) (n : Nat) (r : EvReason) :
    ReserveSound (raiseEvent s k n r) := by
  unfold Machine.raiseEvent
  split
  · exact h
  · dsimp only
    have hs := h.postSummary
    split
    · exact hs.of_cq (ringHolds_congr hs.ring rfl rfl rfl rfl)
    case isFalse hfree => exact hs.of_cq (hs.ring.post_free hfree)

/-- A record in a head takes another's place. -/
theorem ReserveSound.setHead (h : ReserveSound s) (hh : heldRecord (s.queue q).head ≠ none) {x : Head} (hx : heldRecord x ≠ none) :
    ReserveSound (s.setHead q x) := by
  obtain ⟨hold, hdisc⟩ := holds_of_record hh
  have hd := h.discard_of_head hdisc
  refine h.setQueue (fun p hp => absurd hp (not_mem_of_not_listed (h.not_listed hold) p)) (fun hdt => ?_) ?_
  · exact absurd (hd.symm.trans hdt) nofun
  · rw [hold]
    exact (holds_of_record (r := { s.queue q with head := x }) hx).1

theorem ReserveSound.completeControl (h : ReserveSound s) (q : Fin 4) (st : Status) (n : Nat) (d : Detail) (hit : Bool) :
    ReserveSound (completeControl q st n d hit s) := by
  unfold Machine.completeControl
  split
  case h_1 hh => exact h.completeHead (holds_of_record (by rw [hh]; nofun)).1 _
  case h_2 => exact h

theorem ReserveSound.finishControl (h : ReserveSound s) (q : Fin 4) (st : Status) (n : Nat) (d : Detail) (hit : Bool) :
    ReserveSound (finishControl q st n d hit s) := (h.of_changes (changes_cu ..) rfl rfl rfl).completeControl ..

theorem ReserveSound.parkControl (h : ReserveSound s) (q : Fin 4) : ReserveSound (parkControl q s) := by
  unfold Machine.parkControl
  split
  case h_1 hh =>
    refine ReserveSound.setHead (s := { s with cu := { s.cu with work := none } }) (h.of_changes (changes_cu ..) rfl rfl rfl) ?_ nofun
    change heldRecord (s.queue q).head ≠ none
    rw [hh]
    nofun
  case h_2 => exact h

theorem ReserveSound.failStart (h : ReserveSound s) (q : Fin 4) (st : Status) : ReserveSound (failStart q st s) := by
  have hdone : ∀ u, ReserveSound u → ReserveSound (completeJob q st u) := fun u hu => by
    unfold completeJob
    split
    case h_1 hh => exact hu.completeHead (holds_of_record (by rw [hh]; nofun)).1 _
    case h_2 => exact hu
  unfold Machine.failStart
  split
  · dsimp only
    split
    · exact hdone _ (h.of_changes ((releaseStreams_changes ..).trans (useEndOf_changes ..)) rfl rfl rfl)
    · exact hdone _ (h.of_changes (useEndOf_changes ..) rfl rfl rfl)
  · exact h

theorem ReserveSound.enterRunning (h : ReserveSound s) {pos : Nat} {hd : Header} {j : JobRec}
    (hh : (s.queue q).head = .data pos hd j) (reads : List ReadChoice) : ReserveSound (enterRunning q reads s) := by
  rw [enterRunning_of_data hh]
  have hdp : Changes [.contexts, .dp] s { holdContext j s with dp := freshDp s q j } :=
    Changes.mono ((holdContext_changes j s).trans (changes_dp ..)) rfl
  have hset := ReserveSound.setHead (q := q) (h.of_changes hdp rfl rfl rfl) (by rw [hdp.queue rfl, hh]; nofun)
    (x := .data pos hd (runningRec s j)) nofun
  exact hset.of_changes ((loadDelay_changes _).trans (issueReads_changes ..)) rfl rfl rfl

/-- The state in which the completion of an ended job is handed over: its streams, its context and its entry are let go. -/
def releasedState (j : JobRec) (s : State) : State :=
  useEndOf j (endContext j s.dp (endStreams j s.dp { s with dp := Datapath.idle, stopReq := false }))

theorem releasedState_changes (j : JobRec) (s : State) :
    Changes [.dp, .stopReq, .streams, .notices, .contexts, .cache] s (releasedState j s) := by
  have hidle : Changes [.dp, .stopReq] s { s with dp := Datapath.idle, stopReq := false } :=
    Changes.mono ((changes_dp s Datapath.idle).trans (changes_stopReq _ false)) rfl
  exact ((hidle.trans (endStreams_changes j s.dp _)).trans (endContext_changes j s.dp _)).trans (useEndOf_changes j _)

theorem endOfJob_eq {pos : Nat} {hd : Header} {j : JobRec} (hh : (s.queue s.dp.jobq).head = .data pos hd j) :
    endOfJob s = checkDrain (endAbort s.dp.jobq (completeHead s.dp.jobq
      (endCompletion (releasedState j s) s.dp.jobq hd j s.dp) (releasedState j s))) := endOfJob_of_data hh

theorem endOfJob_of_no_job (hh : ∀ pos hd j, (s.queue s.dp.jobq).head ≠ .data pos hd j) :
    endOfJob s = { s with dp := Datapath.idle, stopReq := false } := by
  unfold endOfJob
  dsimp only
  split
  case h_1 heq => exact absurd heq (hh _ _ _)
  case h_2 => rfl

theorem ReserveSound.endAbort (h : ReserveSound s) (q : Fin 4) : ReserveSound (endAbort q s) := by
  unfold Machine.endAbort
  split
  · split
    · exact h.finishControl ..
    · exact h
  · exact h

theorem ReserveSound.endOfJob (h : ReserveSound s) : ReserveSound (endOfJob s) := by
  by_cases hh : ∃ pos hd j, (s.queue s.dp.jobq).head = .data pos hd j
  · obtain ⟨pos, hd, j, hh⟩ := hh
    have hc := releasedState_changes j s
    rw [endOfJob_eq hh]
    refine ((ReserveSound.completeHead (h.of_changes hc rfl rfl rfl) ?_ _).endAbort _).of_changes (checkDrain_changes _) rfl rfl rfl
    refine (holds_of_record ?_).1
    rw [hc.queue rfl, hh]
    nofun
  · rw [endOfJob_of_no_job fun pos hd j heq => hh ⟨pos, hd, j, heq⟩]
    exact h.congr (fun _ => SameReserve.refl _) rfl h.ring

end

theorem recordClosed_reserve : RecordClosed (fun s t => ReserveSound s → ReserveSound t) where
  refl := fun _ => id
  trans := fun h h' hs => h' (h hs)
  other := fun hc h => h.of_changes hc rfl rfl rfl
  drain := fun _ h => h.of_changes (checkDrain_changes _) rfl rfl rfl
  event := fun _ k n r h => h.raiseEvent k n r
  complete := fun r hc h => h.completeHead (holds_of_record (heldRecord_of_completable hc)).1 r
  job := fun hh _ h => h.setHead (by rw [hh]; nofun) nofun
  fail := fun st _ _ h => h.failStart _ st
  run := fun reads hh _ _ h => h.enterRunning hh reads
  finish := fun _ h => h.endOfJob
  after := fun h h' hs => h' (h hs)
  conclude := fun _ _ _ _ _ h => h.finishControl ..
  park := fun _ h => h.parkControl _
  busy := fun _ _ _ _ h => h.of_changes (changes_cu ..) rfl rfl rfl
  tables := fun hc _ hq hw hcq h => h.of_changes hc hq hw hcq
  ended := fun _ _ _ _ _ _ h => h.finishControl ..
  parked := fun q _ h => h.parkControl q
  start := fun _ hh h => h.setHead (by rw [hh]; nofun) nofun
  select := fun _ hh h => h.setHead (by rw [hh]; nofun) nofun

/-! ### Every command -/

section

variable {s : State}

/-- A queue's record changes outside its head, its DISCARD and its pending flush. -/
theorem ReserveSound.setRecord (h : ReserveSound s) {q : Fin 4} {r : QueueRec} (hh : r.head = (s.queue q).head)
    (hd : r.discard = (s.queue q).discard) (hf : r.flushPend = (s.queue q).flushPend) : ReserveSound (s.setQueue q r) := by
  refine h.congr (fun k => ?_) rfl h.ring
  by_cases hk : k = q
  · subst hk
    rw [State.queue_setQueue_self]
    exact sameReserve_of_head hh hd hf
  · rw [State.queue_setQueue_ne _ _ hk]
    exact SameReserve.refl _

theorem reserveSound_reset : ReserveSound State.reset := headsSound_reset.reserve

/-- Every head EMPTY, no entry listed, nothing reserved. -/
theorem reserveSound_of_empty (hq : ∀ q, (s.queue q).head = .empty ∧ (s.queue q).discard = false) (hw : s.waitList = [])
    (hc : RingHolds s.cq 0) : ReserveSound s := by
  have hheld : reservationsHeld s = 0 := by
    rw [reservationsHeld, List.length_eq_zero_iff, List.filter_eq_nil_iff]
    intro q _
    rw [holds_of_empty (hq q).1]
    exact Bool.false_ne_true
  refine ⟨⟨by rw [hw]; exact List.nodup_nil, fun e he => ?_, fun q hd => absurd ((hq q).2.symm.trans hd) nofun⟩, by rw [hheld]; exact hc⟩
  rw [hw] at he
  cases he

theorem ReserveSound.discardFetch (h : ReserveSound s) {q : Fin 4} {pos : Nat} (hh : (s.queue q).head = .fetching pos)
    (hd : (s.queue q).discard = true) : ReserveSound (discardFetch q s) := by
  have hdisc : discarding (s.queue q) = true := by simp [discarding, hh, hd]
  refine ReserveSound.askIfEligible (h.setQueue (r := { s.queue q with head := .empty, discard := false }) (fun p hp => ?_)
    nofun ?_) q
  · have hf := h.fits _ hp
    cases p with
    | fetch => exact absurd (hh.symm.trans hf.1) nofun
    | flush => exact ⟨.inl rfl, hf.2⟩
  · rw [holds_of_discarding hdisc]
    rfl

theorem ReserveSound.decodeHead (h : ReserveSound s) {q : Fin 4} {pos : Nat} (hh : (s.queue q).head = .fetching pos)
    (hd : (s.queue q).discard = false) (bytes : List Byte) : ReserveSound (decodeHead q pos bytes s) := by
  have hheld : holdsReservation (s.queue q) = true := by simp [holdsReservation, discarding, hh, hd]
  have hset : ∀ x, heldRecord x ≠ none → ReserveSound (s.setHead q x) := fun x hx => by
    refine h.setQueue (fun p hp => absurd hp (not_mem_of_not_listed (h.not_listed hheld) p)) (fun hdt => ?_) ?_
    · exact absurd (hd.symm.trans hdt) nofun
    · rw [hheld]
      exact (holds_of_record (r := { s.queue q with head := x }) hx).1
  unfold Machine.decodeHead
  dsimp only
  split
  · exact h.completeHead hheld _
  · unfold admitData
    split
    · exact h.completeHead hheld _
    · exact hset _ nofun
  · exact hset _ nofun

theorem ringHolds_loaded (r : SetupRec) : RingHolds (loadedWriter r) 0 := by
  have hi : indicesSound (loadedWriter r) := by
    rw [indicesSound]
    split
    case isTrue => exact ⟨rfl, rfl⟩
    case isFalse hz => exact ⟨show 0 < 2 * (loadedWriter r).size by omega, show 0 < 2 * (loadedWriter r).size by omega⟩
  refine ⟨hi, rfl, ?_⟩
  rw [postedCount_of_indices hi]
  exact Nat.zero_le _

theorem exec_run_reserve (h : ReserveSound s) : Answers ReserveSound (exec .run s) := by
  refine answers_taken h ?_
  split
  · exact h.of_changes (runFromOff_changes s) rfl rfl rfl
  · have haccept : ReserveSound (acceptCommand .running s) := h.congr (fun _ => SameReserve.refl _) rfl h.ring
    exact (((haccept.serveWaitList.askIfEligible 0).askIfEligible 1).askIfEligible 2).askIfEligible 3
  · exact h.congr (fun _ => SameReserve.refl _) rfl h.ring

theorem exec_postFlush_reserve (h : ReserveSound s) (q : Fin 4) : Answers ReserveSound (exec (.postFlush q) s) := by
  refine answers_taken h ?_
  dsimp only
  split
  · exact h.of_changes (refusePost_changes q s) rfl rfl rfl
  · split
    · exact h
    · split
      case isTrue hholds =>
        have hheld : heldRecord (s.queue q).head ≠ none := by
          unfold headHoldsFlush at hholds
          split at hholds
          · cases hholds
          · cases hholds
          case h_3 hh => rw [hh]; nofun
          case h_4 hh => rw [hh]; nofun
        refine h.setQueue (fun p hp => ?_) (h.discard q) rfl
        exact absurd hp (not_mem_of_not_listed (h.not_listed (holds_of_record hheld).1) p)
      case isFalse hholds =>
        split
        case isTrue hcounted =>
          have hheld : holdsReservation (s.queue q) = true := by
            unfold headCounted at hcounted
            split at hcounted
            case h_1 => cases hcounted
            case h_2 pos hh => simpa [holdsReservation, discarding, hh] using hcounted
            case h_3 hh => exact (holds_of_record (by rw [hh]; nofun)).1
            case h_4 hh => exact (holds_of_record (by rw [hh]; nofun)).1
          have hring := h.ring
          rw [reservationsHeld_eq s q, hheld] at hring
          exact h.flushEffect (h.not_listed hheld) hring
        case isFalse hcounted =>
          refine h.flushOwn ?_
          cases hh : (s.queue q).head with
          | empty => exact .inl rfl
          | fetching pos => exact .inr (by simpa [headCounted, discarding, hh] using hcounted)
          | data pos hd j =>
            rw [headHoldsFlush, hh] at hholds
            rw [headCounted, hh] at hcounted
            cases hj : j.jstate <;> simp [hj] at hholds hcounted
          | control pos hd body c =>
            rw [headHoldsFlush, hh] at hholds
            rw [headCounted, hh] at hcounted
            cases c <;> simp at hholds hcounted

theorem exec_cqheadWrite_reserve (h : ReserveSound s) (index : BitVec 16) :
    Answers ReserveSound (exec (.cqheadWrite index) s) := by
  refine answers_taken h ?_
  split
  case isTrue hok =>
    obtain ⟨-, hrange, hdist⟩ : advanceState s = true ∧ index.toNat < 2 * s.cq.size ∧
        headDistance s.cq index.toNat ≤ postedCount s.cq := by
      simpa [cqheadOk, and_assoc] using hok
    have hmoved : ReserveSound { s with cq := { s.cq with headx := index.toNat } } := h.of_cq (h.ring.advance hrange hdist)
    dsimp only
    split
    · exact hmoved.postSummary.serveWaitList
    · exact hmoved
  case isFalse => exact h.congr (fun _ => SameReserve.refl _) rfl h.ring

theorem sameReserve_tickQueue (r : QueueRec) : SameReserve r (tickQueue r) := by
  rw [tickQueue]
  cases hh : r.head <;> exact ⟨by simp [tickHead, hh], by simp [discarding, tickHead, hh], rfl, rfl⟩

theorem recordWritten_ring (s : State) : (recordWritten s).cq.size = s.cq.size ∧ (recordWritten s).cq.tailx = s.cq.tailx ∧
    (recordWritten s).cq.headx = s.cq.headx ∧ (recordWritten s).cq.resv = s.cq.resv := by
  have hcount : ∀ (u : State) now, (countWritten u now).cq.size = u.cq.size ∧ (countWritten u now).cq.tailx = u.cq.tailx ∧
      (countWritten u now).cq.headx = u.cq.headx ∧ (countWritten u now).cq.resv = u.cq.resv := fun u now => by
    unfold countWritten
    dsimp only
    split
    · exact ⟨rfl, rfl, rfl, rfl⟩
    · exact ⟨rfl, rfl, rfl, rfl⟩
  unfold recordWritten
  split
  · exact ⟨rfl, rfl, rfl, rfl⟩
  · exact hcount _ _

theorem exec_tick_reserve (h : ReserveSound s) : Answers ReserveSound (exec .tick s) := by
  refine answers_taken h ?_
  have hticked : ReserveSound (tickQueues s) := by
    by_cases hf : s.eng.st = .faulted
    · rwa [tickQueues, if_pos hf]
    · have hc := tickQueues_changes s
      refine h.congr (fun k => ?_) (hc.waitList rfl) (by rw [hc.cq rfl]; exact h.ring)
      rw [queue_tickQueues hf]
      exact sameReserve_tickQueue _
  exact hticked.of_cq (ringHolds_congr hticked.ring rfl rfl rfl rfl)

theorem exec_setupReadAnswer_reserve (h : ReserveSound s) (off : Nat) (a : Answer) :
    Answers ReserveSound (exec (.setupReadAnswer off a) s) := by
  have hsame : ∀ t : State, (∀ k, t.queue k = s.queue k) → t.waitList = s.waitList → t.cq = s.cq → ReserveSound t :=
    fun t hq hw hc => h.congr (fun k => by rw [hq]; exact SameReserve.refl _) hw (by rw [hc]; exact h.ring)
  refine answers_taken h ?_
  split
  · exact h
  · split
    · dsimp only
      split
      · unfold setupDone
        split
        · exact hsame _ (fun _ => rfl) rfl rfl
        · dsimp only
          split
          · exact hsame _ (fun _ => rfl) rfl rfl
          · refine reserveSound_of_empty (fun q => ?_) rfl (ringHolds_loaded _)
            rw [setupAccept_queue, loadedQueue]
            split <;> exact ⟨rfl, rfl⟩
      · exact hsame _ (fun _ => rfl) rfl rfl
    · exact h

theorem exec_headFetchError_reserve (h : ReserveSound s) (q : Fin 4) : Answers ReserveSound (exec (.headFetchError q) s) := by
  refine answers_taken h ?_
  split
  case h_1 pos hh =>
    split
    case isTrue hd => exact h.discardFetch hh hd
    case isFalse hd =>
      have hstop : ReserveSound (s.setQueue q { s.queue q with state := .stopped }) :=
        h.setRecord (r := { s.queue q with state := .stopped }) rfl rfl rfl
      refine hstop.completeHead ?_ _
      rw [State.queue_setQueue_self]
      simp [holdsReservation, discarding, hh, hd]
  case h_2 => exact h

theorem exec_reserve (c : Instr) (h : ReserveSound s) : Answers ReserveSound (exec c s) := by
  have hparts : Part.queues.isIn (commandParts c) = false → Part.waits.isIn (commandParts c) = false →
      Part.cq.isIn (commandParts c) = false → Answers ReserveSound (exec c s) := fun hq hw hc =>
    exec_keeps_of_parts fun t ht => h.of_changes ht hq hw hc
  cases c with
  | run => exact exec_run_reserve h
  | clear =>
    refine answers_taken h ?_
    split
    · exact reserveSound_of_empty (fun q => by
        have hq : (clearEngine s).queue q = QueueRec.reset := queue_reset q
        rw [hq]
        exact ⟨rfl, rfl⟩) rfl reserveSound_reset.ring
    · exact h.congr (fun _ => SameReserve.refl _) rfl h.ring
  | pinReset =>
    refine answers_next (reserveSound_of_empty (fun q => ?_) rfl reserveSound_reset.ring)
    have hq : (assertReset s).queue q = QueueRec.reset := queue_reset q
    rw [hq]
    exact ⟨rfl, rfl⟩
  | postAdvance q index =>
    refine answers_taken h ?_
    split
    · exact ReserveSound.askIfEligible (h.setRecord (r := { s.queue q with prod := index.toNat }) rfl rfl rfl) q
    · exact h.of_changes (refusePost_changes q s) rfl rfl rfl
  | postRestart q =>
    refine answers_taken h ?_
    split
    · exact ReserveSound.askIfEligible (h.setRecord (r := { s.queue q with state := .active }) rfl rfl rfl) q
    · exact h
  | postFlush q => exact exec_postFlush_reserve h q
  | cqheadWrite index => exact exec_cqheadWrite_reserve h index
  | tick => exact exec_tick_reserve h
  | setupReadAnswer off a => exact exec_setupReadAnswer_reserve h off a
  | headFetchData q bytes =>
    refine answers_taken h ?_
    split
    case h_1 pos hh =>
      split
      · exact h
      · split
        case isTrue hd => exact h.discardFetch hh hd
        case isFalse hd => exact h.decodeHead hh (Bool.eq_false_iff.mpr hd) bytes
    case h_2 => exact h
  | headFetchError q => exact exec_headFetchError_reserve h q
  | coalescingTimerExpiry =>
    refine answers_taken h ?_
    split
    · split
      · exact h.congr (fun _ => SameReserve.refl _) rfl (ringHolds_congr h.ring rfl rfl rfl rfl)
      · exact h.of_cq (ringHolds_congr h.ring rfl rfl rfl rfl)
    · exact h
  | bodyWriteAnswer =>
    refine answers_taken h ?_
    split
    · exact h.of_cq (ringHolds_congr h.ring rfl rfl rfl rfl)
    · exact h
  | phaseWriteAnswer =>
    refine answers_taken h ?_
    split
    · obtain ⟨hsize, htail, hhead, hresv⟩ := recordWritten_ring s
      have hc := recordWritten_changes s
      exact h.congr (fun k => by rw [hc.queue rfl]; exact SameReserve.refl _) (hc.waitList rfl)
        (ringHolds_congr h.ring hsize htail hhead hresv)
    · exact h
  | cqWriteError =>
    refine answers_taken h ?_
    split
    · exact h
    · exact h.congr (fun _ => SameReserve.refl _) rfl (ringHolds_congr h.ring rfl rfl rfl rfl)
  | halt => exact hparts rfl rfl rfl
  | engctlReservedCode code => exact hparts rfl rfl rfl
  | postReservedAction q => exact hparts rfl rfl rfl
  | setupadrWrite v => exact hparts rfl rfl rfl
  | resetRelease => exact hparts rfl rfl rfl
  | _ => exact (recordClosed_reserve.exec_inner rfl s).imp fun t ht => ht h

end

end Sys2Proof.Machine
end

section
/-! SUPPORT. Jobs, the control unit and the datapath in agreement under every operation (R47, R60, R72, R95), and the block at rest
(R169). -/

namespace Sys2Proof.Machine

open Sys2Proof

/-! ### One head from one state to the next -/

/-- What stays of a job while it is STARTING or RUNNING. -/
structure ActiveJob where
  state : JState
  data : DataRec
  claims : Bool
  entry : Option (Fin 8)

/-- The STARTING or RUNNING job of a head; the chain entry it holds counts once it runs. -/
def activeJob (h : Head) : Option ActiveJob :=
  match h with
  | .data _ _ j =>
      if jobActive h then some ⟨j.jstate, j.data, j.claims, if j.jstate = .running then j.chainEnt else none⟩ else none
  | _ => none

theorem activeJob_of_active {pos : Nat} {hd : Header} {j : JobRec} (ha : jobActive (.data pos hd j) = true) :
    activeJob (.data pos hd j) = some ⟨j.jstate, j.data, j.claims, if j.jstate = .running then j.chainEnt else none⟩ := if_pos ha

theorem activeJob_of_inactive {h : Head} (ha : jobActive h = false) : activeJob h = none := by
  cases h with
  | data pos hd j => exact if_neg (by rw [ha]; nofun)
  | _ => rfl

theorem jobActive_eq (h : Head) : jobActive h = (activeJob h).isSome := by
  cases ha : jobActive h with
  | false => rw [activeJob_of_inactive ha, Option.isSome_none]
  | true =>
    obtain ⟨pos, hd, j, rfl, -⟩ := (jobActive_iff h).mp ha
    rw [activeJob_of_active ha, Option.isSome_some]

theorem headIn_running_eq (h : Head) : headIn .running h = ((activeJob h).map ActiveJob.state == some .running) := by
  cases h with
  | data pos hd j => cases hj : j.jstate <;> simp [headIn, activeJob, jobActive, hj]
  | _ => rfl

/-- A head stays EXECUTING or not, and its STARTING or RUNNING job stays. -/
structure HeadKeeps (h h' : Head) : Prop where
  job : activeJob h' = activeJob h
  executing : ctlIn .executing h' = ctlIn .executing h

theorem HeadKeeps.running {h h' : Head} (hk : HeadKeeps h h') : headIn .running h' = headIn .running h := by
  rw [headIn_running_eq, hk.job, headIn_running_eq]

theorem HeadKeeps.refl (h : Head) : HeadKeeps h h := ⟨rfl, rfl⟩

theorem HeadKeeps.trans {h h' h'' : Head} (a : HeadKeeps h h') (b : HeadKeeps h' h'') : HeadKeeps h h'' :=
  ⟨b.job.trans a.job, b.executing.trans a.executing⟩

theorem headKeeps_of_inactive {h h' : Head} (ha : jobActive h = false) (ha' : jobActive h' = false)
    (hx : ctlIn .executing h' = ctlIn .executing h) : HeadKeeps h h' :=
  ⟨(activeJob_of_inactive ha').trans (activeJob_of_inactive ha).symm, hx⟩

theorem classes_of_no_record {h : Head} (hn : heldRecord h = none) : jobActive h = false ∧ ctlIn .executing h = false := by
  cases h with
  | data pos hd j => cases hn
  | control pos hd body c => cases hn
  | empty => exact ⟨rfl, rfl⟩
  | fetching pos => exact ⟨rfl, rfl⟩

/-- A head that is neither STARTING, RUNNING nor EXECUTING loses its record. -/
theorem headKeeps_of_no_record {h h' : Head} (ha : jobActive h = false) (hx : ctlIn .executing h = false)
    (hn : heldRecord h' = none) : HeadKeeps h h' := by
  obtain ⟨ha', hx'⟩ := classes_of_no_record hn
  exact headKeeps_of_inactive ha ha' (hx'.trans hx.symm)

/-- The parts besides the datapath, the streams, the sample store and the contexts. -/
abbrev quietParts : List Part :=
  [.pending, .eng, .irqPend, .irqMask, .queues, .waits, .arbiter, .notices, .cu, .cache, .stopReq, .ports, .cq, .stale]

/-- From `s` to `t` the control unit's work, the datapath's job and the heads that have it stay. -/
structure UnitsKeep (s t : State) : Prop where
  work : t.cu.work = s.cu.work
  idle : t.dp.st = .idle ↔ s.dp.st = .idle
  jobq : t.dp.jobq = s.dp.jobq
  heads : ∀ k, HeadKeeps (s.queue k).head (t.queue k).head

namespace UnitsKeep

variable {s t u : State} {q : Fin 4}

theorem refl (s : State) : UnitsKeep s s := ⟨rfl, Iff.rfl, rfl, fun _ => HeadKeeps.refl _⟩

theorem trans (h : UnitsKeep s t) (h' : UnitsKeep t u) : UnitsKeep s u :=
  ⟨h'.work.trans h.work, h'.idle.trans h.idle, h'.jobq.trans h.jobq, fun k => (h.heads k).trans (h'.heads k)⟩

theorem of_changes {F : List Part} (h : Changes F s t) (hc : Part.cu.isIn F = false) (hd : Part.dp.isIn F = false)
    (hq : Part.queues.isIn F = false) : UnitsKeep s t :=
  ⟨by rw [h.cu hc], by rw [h.dp hd], by rw [h.dp hd], fun k => by rw [h.queue hq]; exact HeadKeeps.refl _⟩

/-- Only one head may change. -/
theorem of_head {F : List Part} (h : Changes F s t) (hc : Part.cu.isIn F = false) (hd : Part.dp.isIn F = false)
    (hne : ∀ k, k ≠ q → t.queue k = s.queue k) (hq : HeadKeeps (s.queue q).head (t.queue q).head) : UnitsKeep s t :=
  ⟨by rw [h.cu hc], by rw [h.dp hd], by rw [h.dp hd], fun k => by
    by_cases hk : k = q
    · subst hk
      exact hq
    · rw [hne k hk]
      exact HeadKeeps.refl _⟩

theorem of_setHead {x : Head} (hx : HeadKeeps (s.queue q).head x) : UnitsKeep s (s.setHead q x) :=
  of_head (changes_setHead ..) rfl rfl (fun k hk => State.queue_setQueue_ne _ _ hk) (by rw [State.queue_setHead_self]; exact hx)

theorem dpMoves (h : DpMoves s t) : UnitsKeep s t where
  work := by rw [h.parts.cu rfl]
  idle := by
    obtain he | ⟨hs, ht⟩ := h.state
    · rw [he]
    · rw [hs, ht]
      exact ⟨nofun, nofun⟩
  jobq := h.jobq
  heads := fun k => by
    rw [h.parts.queue rfl]
    exact HeadKeeps.refl _

end UnitsKeep

/-! ### Completions -/

section

variable {s : State} {q : Fin 4}

theorem afterEmpty_no_record (h : heldRecord (s.queue q).head = none) : heldRecord ((afterEmpty q s).queue q).head = none := by
  have hloose : LooseMoves s (afterEmpty q s) := by
    unfold afterEmpty
    split
    · exact flushOwn_loose ..
    · exact (askIfEligible_moves ..).toLooseMoves
  exact (hloose.heads q).record.elim id fun heq => heq.trans h

/-- A head that hands its completion over holds no record then. -/
theorem completeHead_no_record (r : CqRec) : heldRecord ((completeHead q r s).queue q).head = none := by
  have hempty : ∀ u : State, heldRecord ((u.setHead q .empty).queue q).head = none := fun u => by
    rw [State.queue_setHead_self]
    rfl
  unfold completeHead
  split
  · exact afterEmpty_no_record (hempty _)
  · exact hempty _

theorem completeHead_unitsKeep (r : CqRec) (ha : jobActive (s.queue q).head = false)
    (hx : ctlIn .executing (s.queue q).head = false) : UnitsKeep s (completeHead q r s) :=
  UnitsKeep.of_head (completeHead_changes ..) rfl rfl (fun _ hk => completeHead_queue_ne _ _ hk)
    (headKeeps_of_no_record ha hx (completeHead_no_record r))

theorem inactive_of_queued {pos : Nat} {hd : Header} {j : JobRec} (hj : queuedState j.jstate) : jobActive (.data pos hd j) = false := by
  obtain hj | hj := hj <;> simp [jobActive, hj]

theorem classes_of_completable {h : Head} (hc : completable h) : jobActive h = false ∧ ctlIn .executing h = false := by
  cases h with
  | empty => exact hc.elim
  | fetching pos => exact hc.elim
  | data pos hd j => exact ⟨inactive_of_queued hc, rfl⟩
  | control pos hd body c =>
    refine ⟨rfl, ?_⟩
    obtain rfl | rfl := hc <;> rfl

theorem headKeeps_of_sameJob {pos : Nat} {hd : Header} {j j' : JobRec} (h : SameJob j j') :
    HeadKeeps (.data pos hd j) (.data pos hd j') := by
  obtain ⟨hs, hrun⟩ | ⟨hq, hq', -⟩ := h.state
  · refine ⟨?_, rfl⟩
    simp only [activeJob, jobActive, hs, h.data, h.claims]
    by_cases hj : j.jstate = .running
    · rw [(hrun hj).1]
      rfl
    · simp only [if_neg hj]
  · exact headKeeps_of_inactive (inactive_of_queued hq) (inactive_of_queued hq') rfl

/-- The record of queue `q` leaves its head, or parks. -/
structure Drops (q : Fin 4) (s t : State) : Prop where
  others : ∀ k, k ≠ q → t.queue k = s.queue k
  active : jobActive (t.queue q).head = false
  executing : ctlIn .executing (t.queue q).head = false

theorem failStart_no_record {pos : Nat} {hd : Header} {j : JobRec} (st : Status) (hh : (s.queue q).head = .data pos hd j) :
    heldRecord ((failStart q st s).queue q).head = none := by
  have hcomplete : ∀ u : State, (u.queue q).head = .data pos hd j → heldRecord ((completeJob q st u).queue q).head = none :=
    fun u hu => by
      rw [completeJob_of_data hu]
      exact completeHead_no_record _
  rw [failStart_of_data hh]
  split
  · exact hcomplete _ (by rw [((releaseStreams_changes j.data s).trans (useEndOf_changes j _)).queue rfl, hh])
  · exact hcomplete _ (by rw [(useEndOf_changes j s).queue rfl, hh])

theorem failStart_drops {pos : Nat} {hd : Header} {j : JobRec} (st : Status) (hh : (s.queue q).head = .data pos hd j) :
    Drops q s (failStart q st s) := by
  have hrec := classes_of_no_record (failStart_no_record st hh)
  exact ⟨fun k hk => failStart_queue_ne _ _ hk, hrec.1, hrec.2⟩

/-- The heads' STARTING and RUNNING jobs, the datapath, the streams and the contexts stay, and a head takes no record but one
that decoded. -/
structure Quiet (s t : State) : Prop where
  parts : Changes quietParts s t
  jobs : ∀ k, activeJob (t.queue k).head = activeJob (s.queue k).head
  records : ∀ k, RecordSteps k (s.queue k).head (t.queue k).head

theorem LooseMoves.records {s t : State} (h : LooseMoves s t) (k : Fin 4) : RecordSteps k (s.queue k).head (t.queue k).head :=
  (h.heads k).record.imp_right .inl

namespace Quiet

variable {s t u : State} {q : Fin 4}

theorem refl (s : State) : Quiet s s := ⟨Changes.refl .., fun _ => rfl, fun _ => .inr (.inl rfl)⟩

theorem of_changes {F : List Part} (h : Changes F s t) (hF : within F quietParts = true) (hq : Part.queues.isIn F = false) :
    Quiet s t := ⟨h.mono hF, fun k => by rw [h.queue hq], fun k => by rw [h.queue hq]; exact .inr (.inl rfl)⟩

theorem of_units {F : List Part} (h : UnitsKeep s t) (hc : Changes F s t) (hF : within F quietParts = true)
    (hr : ∀ k, RecordSteps k (s.queue k).head (t.queue k).head) : Quiet s t := ⟨hc.mono hF, fun k => (h.heads k).job, hr⟩

/-- A head changes between records that neither start nor run. -/
theorem of_drops {F : List Part} (h : Drops q s t) (ha : jobActive (s.queue q).head = false) (hc : Changes F s t)
    (hF : within F quietParts = true) (hm : LooseMoves s t) : Quiet s t :=
  ⟨hc.mono hF, fun k => by
    by_cases hk : k = q
    · subst hk
      rw [activeJob_of_inactive ha, activeJob_of_inactive h.active]
    · rw [h.others k hk], hm.records⟩

end Quiet

/-- What keeps the units, with a failed start, the entry to RUNNING and the end of a job, keeps the guarded updates. -/
theorem closed_of_units {R : State → State → Prop} (hrefl : ∀ s, R s s) (htrans : ∀ {s t u}, R s t → R t u → R s u)
    (hkeep : ∀ {s t}, UnitsKeep s t → Quiet s t → R s t)
    (hfail : ∀ {s : State} {q : Fin 4} {pos : Nat} {h : Header} {j : JobRec} (st : Status),
      (s.queue q).head = .data pos h j → j.jstate = .starting → R s (failStart q st s))
    (hrun : ∀ {s : State} {q : Fin 4} {pos : Nat} {h : Header} {j : JobRec} (reads : List ReadChoice),
      (s.queue q).head = .data pos h j → j.jstate = .starting →
      ((jobContext j.data).isSome = true → j.chainEnt.isSome = true) → R s (enterRunning q reads s))
    (hfinish : ∀ {s : State}, s.dp.st = .settle → R s (endOfJob s)) : Closed R :=
  have keep : ∀ {F : List Part} {s t : State}, Changes F s t → within F otherParts = true ∨ within F [.eng, .irqPend, .cq] = true →
      R s t := fun hc hF => by
    obtain hF | hF := hF
    · exact hkeep (UnitsKeep.of_changes (hc.mono hF) rfl rfl rfl) (Quiet.of_changes (hc.mono hF) rfl rfl)
    · exact hkeep (UnitsKeep.of_changes (hc.mono hF) rfl rfl rfl) (Quiet.of_changes (hc.mono hF) rfl rfl)
  { refl := hrefl
    trans := htrans
    other := fun hc => keep hc (.inl rfl)
    drain := fun s => keep (checkDrain_changes s) (.inr rfl)
    event := fun s k n r => keep (raiseEvent_changes s k n r) (.inr rfl)
    complete := fun r hc =>
      have hu := completeHead_unitsKeep r (classes_of_completable hc).1 (classes_of_completable hc).2
      hkeep hu (Quiet.of_units hu (completeHead_changes ..) rfl (completeHead_loose ..).records)
    job := fun {s q pos h j j'} hh hj =>
      have hu : UnitsKeep s (s.setHead q (.data pos h j')) := UnitsKeep.of_setHead (by rw [hh]; exact headKeeps_of_sameJob hj)
      hkeep hu (Quiet.of_units hu (changes_setHead ..) rfl fun k => by
        by_cases hk : k = q
        · subst hk
          rw [State.queue_setHead_self, hh]
          exact .inr (.inl (by simp only [heldRecord, hj.data]))
        · rw [State.queue_setHead_ne _ _ hk]
          exact .inr (.inl rfl))
    fail := hfail
    run := hrun
    finish := hfinish }

end

/-! ### The laws of the jobs, with the queue whose control record executes -/

/-- At most one job is STARTING or RUNNING, and the datapath holds the RUNNING one (R60, R95). -/
structure Jobs (s : State) : Prop where
  oneJob : OneJob s
  running : RunningSound s

/-- The record of queue `e` executes, or none. -/
structure JobsSound (e : Option (Fin 4)) (s : State) : Prop extends Jobs s where
  executing : ∀ q : Fin 4, ctlIn .executing (s.queue q).head = true ↔ e = some q

/-- The law of an ABORT that waits too. -/
structure Units (e : Option (Fin 4)) (s : State) : Prop extends JobsSound e s where
  abort : AbortSound s

/-- The control unit is busy with the record that executes. -/
def UnitsSound (s : State) : Prop := Units (s.cu.work.map workQueue) s

/-- The record of queue `q` executes, and the unit does not yet wait for its end. -/
def Executes (q : Fin 4) (s : State) : Prop := Units (some q) s ∧ s.cu.work = none

theorem HeadsSound.jobs {s : State} (h : HeadsSound s) : Jobs s := ⟨h.oneJob, h.running⟩

theorem HeadsSound.units {s : State} (h : HeadsSound s) : UnitsSound s := ⟨⟨h.jobs, h.executing⟩, h.abort⟩

section

variable {s t : State} {e : Option (Fin 4)} {q : Fin 4}

theorem abortSound_iff (s : State) :
    AbortSound s ↔ ∀ a t, s.cu.work = some (.abortWait a t) → headIn .running (s.queue t).head = true := by
  unfold AbortSound
  split
  case h_1 hw => exact ⟨fun h a' t' hw' => by cases hw.symm.trans hw'; exact h, fun h => h _ _ hw⟩
  case h_2 hno => exact ⟨fun _ _ _ hw => absurd hw (hno _ _), fun _ => trivial⟩

theorem abortSound_of_idle (h : s.cu.work = none) : AbortSound s :=
  (abortSound_iff s).mpr fun _ _ hw => absurd (h.symm.trans hw) nofun

theorem Jobs.keep (h : Jobs s) (hidle : t.dp.st = .idle ↔ s.dp.st = .idle) (hjobq : t.dp.jobq = s.dp.jobq)
    (hjobs : ∀ k, activeJob (t.queue k).head = activeJob (s.queue k).head) : Jobs t where
  oneJob := fun q r hq hr => by
    rw [jobActive_eq, hjobs, ← jobActive_eq] at hq hr
    exact h.oneJob q r hq hr
  running := fun q => by
    rw [headIn_running_eq, hjobs, ← headIn_running_eq, h.running q, hjobq, Ne, Ne, hidle]

theorem Jobs.quiet (h : Jobs s) (hq : Quiet s t) : Jobs t := h.keep (by rw [hq.parts.dp rfl]) (by rw [hq.parts.dp rfl]) hq.jobs

theorem JobsSound.keep (h : JobsSound e s) (hk : UnitsKeep s t) : JobsSound e t where
  toJobs := h.toJobs.keep hk.idle hk.jobq fun k => (hk.heads k).job
  executing := fun q => by
    rw [(hk.heads q).executing]
    exact h.executing q

theorem Units.keep (h : Units e s) (hk : UnitsKeep s t) : Units e t where
  toJobsSound := h.toJobsSound.keep hk
  abort := (abortSound_iff t).mpr fun a b hw => by
    rw [hk.work] at hw
    rw [(hk.heads b).running]
    exact (abortSound_iff s).mp h.abort a b hw

theorem UnitsSound.keep (h : UnitsSound s) (hk : UnitsKeep s t) : UnitsSound t := by
  unfold UnitsSound
  rw [hk.work]
  exact Units.keep h hk

theorem Executes.keep (h : Executes q s) (hk : UnitsKeep s t) : Executes q t := ⟨h.1.keep hk, hk.work.trans h.2⟩

theorem running_active {h : Head} (hr : headIn .running h = true) : jobActive h = true := by
  obtain ⟨pos, hd, j, rfl, hj⟩ := (headIn_iff _ _).mp hr
  simp [jobActive, hj]

theorem starting_active {h : Head} (hs : headIn .starting h = true) : jobActive h = true := by
  obtain ⟨pos, hd, j, rfl, hj⟩ := (headIn_iff _ _).mp hs
  simp [jobActive, hj]

theorem not_running_of_starting {h : Head} (hs : headIn .starting h = true) : headIn .running h = false := by
  obtain ⟨pos, hd, j, rfl, hj⟩ := (headIn_iff _ _).mp hs
  simp [headIn, hj]

theorem not_running_of_inactive {h : Head} (ha : jobActive h = false) : headIn .running h = false :=
  Bool.eq_false_iff.mpr fun hr => absurd (ha.symm.trans (running_active hr)) nofun

theorem not_executing_of_active {h : Head} (ha : jobActive h = true) : ctlIn .executing h = false := by
  obtain ⟨pos, hd, j, rfl, -⟩ := (jobActive_iff _).mp ha
  rfl

theorem inactive_of_executing {h : Head} (hx : ctlIn .executing h = true) : jobActive h = false := by
  obtain ⟨pos, hd, body, rfl⟩ := (ctlIn_iff _ _).mp hx
  rfl

/-! #### A record leaves its head -/

/-- The record of queue `q` leaves, and the datapath holds a job as before, but for that of `q`. -/
theorem Jobs.drop (h : Jobs s) (hd : Drops q s t)
    (hdp : ∀ k, (t.dp.st ≠ .idle ∧ t.dp.jobq = k) ↔ headIn .running (s.queue k).head = true ∧ k ≠ q) : Jobs t := by
  have hactive : ∀ k, jobActive (t.queue k).head = true → jobActive (s.queue k).head = true := fun k hk => by
    by_cases hkq : k = q
    · subst hkq
      rw [hd.active] at hk
      cases hk
    · rwa [hd.others k hkq] at hk
  refine ⟨fun a b ha hb => h.oneJob a b (hactive a ha) (hactive b hb), fun k => ?_⟩
  rw [hdp k]
  by_cases hk : k = q
  · subst hk
    rw [not_running_of_inactive hd.active]
    exact ⟨nofun, fun hn => absurd rfl hn.2⟩
  · rw [hd.others k hk]
    exact ⟨fun hr => ⟨hr, hk⟩, fun hr => hr.1⟩

/-- A record that does not run leaves its head. -/
theorem Jobs.drop_idle (h : Jobs s) (hd : Drops q s t) (hdp : t.dp = s.dp) (hr : headIn .running (s.queue q).head = false) :
    Jobs t := h.drop hd fun k => by
  rw [hdp, ← h.running k]
  refine ⟨fun hk => ⟨hk, ?_⟩, fun hk => hk.1⟩
  rintro rfl
  exact absurd (hr.symm.trans hk) nofun

/-- A job leaves its head, and the record that executes stays. -/
theorem JobsSound.drop (h : JobsSound e s) (hj : Jobs t) (hd : Drops q s t) (ha : jobActive (s.queue q).head = true) :
    JobsSound e t := ⟨hj, fun k => by
  by_cases hk : k = q
  · subst hk
    rw [hd.executing, ← h.executing, not_executing_of_active ha]
  · rw [hd.others k hk]
    exact h.executing k⟩

theorem Jobs.failStart (h : Jobs s) {pos : Nat} {hd : Header} {j : JobRec} (hh : (s.queue q).head = .data pos hd j)
    (hj : j.jstate = .starting) (st : Status) : Jobs (failStart q st s) :=
  h.drop_idle (failStart_drops st hh) ((failStart_changes q st s).dp rfl)
    (not_running_of_starting ((headIn_iff _ _).mpr ⟨pos, hd, j, hh, hj⟩))

theorem Units.failStart (h : Units e s) {pos : Nat} {hd : Header} {j : JobRec} (hh : (s.queue q).head = .data pos hd j)
    (hj : j.jstate = .starting) (st : Status) : Units e (failStart q st s) := by
  have hs : headIn .starting (s.queue q).head = true := (headIn_iff _ _).mpr ⟨pos, hd, j, hh, hj⟩
  have hdrop := failStart_drops st hh
  refine ⟨h.toJobsSound.drop (h.toJobs.failStart hh hj st) hdrop (starting_active hs), (abortSound_iff _).mpr fun a b hw => ?_⟩
  rw [(failStart_changes q st s).cu rfl] at hw
  have hb := (abortSound_iff s).mp h.abort a b hw
  by_cases hq : b = q
  · subst hq
    exact absurd ((not_running_of_starting hs).symm.trans hb) nofun
  · rw [hdrop.others b hq]
    exact hb

/-! #### The entry to RUNNING -/

/-- What an entry to RUNNING leaves of the head and of the datapath. -/
theorem enterRunning_facts {pos : Nat} {hd : Header} {j : JobRec} (hh : (s.queue q).head = .data pos hd j)
    (reads : List ReadChoice) : ((enterRunning q reads s).queue q).head = .data pos hd (runningRec s j) ∧
      (enterRunning q reads s).dp.st ≠ .idle ∧ (enterRunning q reads s).dp.jobq = q := by
  rw [enterRunning_of_data hh]
  have hm := (loadDelay_dpMoves (({ holdContext j s with dp := freshDp s q j } : State).setHead q
    (.data pos hd (runningRec s j)))).trans (issueReads_dpMoves reads _)
  refine ⟨?_, ?_, hm.jobq⟩
  · rw [hm.parts.queue rfl, State.queue_setHead_self]
  · obtain hs | ⟨-, hs⟩ := hm.state
    · rw [hs]
      nofun
    · rw [hs]
      nofun

theorem Jobs.only_of_starting (h : Jobs s) {pos : Nat} {hd : Header} {j : JobRec} (hh : (s.queue q).head = .data pos hd j)
    (hj : j.jstate = .starting) {k : Fin 4} (hk : k ≠ q) : jobActive (s.queue k).head = false :=
  Bool.eq_false_iff.mpr fun ha => hk (h.oneJob k q ha (starting_active ((headIn_iff _ _).mpr ⟨pos, hd, j, hh, hj⟩)))

/-- A STARTING job enters RUNNING: no other job is STARTING or RUNNING. -/
theorem Jobs.enterRunning (h : Jobs s) {pos : Nat} {hd : Header} {j : JobRec} (hh : (s.queue q).head = .data pos hd j)
    (hj : j.jstate = .starting) (reads : List ReadChoice) : Jobs (enterRunning q reads s) := by
  obtain ⟨hrun, hst, hjobq⟩ := enterRunning_facts hh reads
  have honly : ∀ k, jobActive ((Machine.enterRunning q reads s).queue k).head = true → k = q := fun k ha => by
    by_contra hk
    rw [enterRunning_queue_ne reads s hk, h.only_of_starting hh hj hk] at ha
    cases ha
  refine ⟨fun a b ha hb => (honly a ha).trans (honly b hb).symm, fun k => ⟨fun hr => ?_, fun hq => ?_⟩⟩
  · rw [honly k (running_active hr)]
    exact ⟨hst, hjobq⟩
  · rw [← hq.2, hjobq, hrun]
    rfl

theorem Units.enterRunning (h : Units e s) {pos : Nat} {hd : Header} {j : JobRec} (hh : (s.queue q).head = .data pos hd j)
    (hj : j.jstate = .starting) (reads : List ReadChoice) : Units e (enterRunning q reads s) := by
  have hs : headIn .starting (s.queue q).head = true := (headIn_iff _ _).mpr ⟨pos, hd, j, hh, hj⟩
  refine ⟨⟨h.toJobs.enterRunning hh hj reads, fun k => ?_⟩, (abortSound_iff _).mpr fun a b hw => ?_⟩
  · by_cases hk : k = q
    · subst hk
      rw [(enterRunning_facts hh reads).1, ← h.executing k, not_executing_of_active (starting_active hs)]
      rfl
    · rw [enterRunning_queue_ne reads s hk]
      exact h.executing k
  · rw [(enterRunning_changes q reads s).cu rfl] at hw
    have hb := (abortSound_iff s).mp h.abort a b hw
    have heq := h.oneJob b q (running_active hb) (starting_active hs)
    subst heq
    exact absurd ((not_running_of_starting hs).symm.trans hb) nofun

/-! #### The end of a control record's execution -/

theorem finishControl_drops {pos : Nat} {hd : Header} {body : ControlRec} {c : CtlState}
    (hh : (s.queue q).head = .control pos hd body c) (st : Status) (n : Nat) (d : Detail) (hit : Bool) :
    Drops q s (finishControl q st n d hit s) := by
  rw [finishControl_eq hh]
  have hrec := classes_of_no_record (completeHead_no_record (q := q) (s := { s with cu := { s.cu with work := none } })
    { completion s q hd st with count := n, detail := d, chainHit := hit })
  exact ⟨fun k hk => completeHead_queue_ne _ _ hk, hrec.1, hrec.2⟩

theorem parkControl_drops {pos : Nat} {hd : Header} {body : ControlRec} {c : CtlState}
    (hh : (s.queue q).head = .control pos hd body c) : Drops q s (parkControl q s) := by
  rw [parkControl_eq hh]
  refine ⟨fun k hk => State.queue_setQueue_ne _ _ hk, ?_, ?_⟩
  · rw [State.queue_setHead_self]
    rfl
  · rw [State.queue_setHead_self]
    rfl

/-- The end of a control record's execution leaves the jobs. -/
theorem finishControl_quiet (q : Fin 4) (st : Status) (n : Nat) (d : Detail) (hit : Bool) (s : State) :
    Quiet s (finishControl q st n d hit s) := by
  by_cases hh : ∃ pos hd body c, (s.queue q).head = .control pos hd body c
  · obtain ⟨pos, hd, body, c, hh⟩ := hh
    exact Quiet.of_drops (finishControl_drops hh st n d hit) (by rw [hh]; rfl) (finishControl_changes ..) rfl
      (finishControl_moves ..).toLooseMoves
  · have hc : completeControl q st n d hit { s with cu := { s.cu with work := none } } = { s with cu := { s.cu with work := none } } := by
      unfold completeControl
      split
      case h_1 heq => exact absurd ⟨_, _, _, _, heq⟩ hh
      case h_2 => rfl
    rw [finishControl, hc]
    exact Quiet.of_changes (changes_cu ..) rfl rfl

theorem parkControl_quiet (q : Fin 4) (s : State) : Quiet s (parkControl q s) := by
  by_cases hh : ∃ pos hd body c, (s.queue q).head = .control pos hd body c
  · obtain ⟨pos, hd, body, c, hh⟩ := hh
    exact Quiet.of_drops (parkControl_drops hh) (by rw [hh]; rfl) (parkControl_changes q s) rfl (parkControl_moves q s).toLooseMoves
  · unfold parkControl
    split
    case h_1 heq => exact absurd ⟨_, _, _, _, heq⟩ hh
    case h_2 => exact Quiet.refl s

theorem endAbort_quiet (q : Fin 4) (s : State) : Quiet s (endAbort q s) := by
  unfold endAbort
  split
  · split
    · exact finishControl_quiet ..
    · exact Quiet.refl s
  · exact Quiet.refl s

/-- The record that executes ends, and the unit is idle. -/
theorem JobsSound.ended (h : JobsSound (some q) s) (hj : Jobs t) (hd : Drops q s t) (hwork : t.cu.work = none) : UnitsSound t := by
  refine ⟨⟨hj, fun k => ?_⟩, abortSound_of_idle hwork⟩
  rw [hwork]
  by_cases hk : k = q
  · subst hk
    rw [hd.executing]
    exact ⟨nofun, nofun⟩
  · rw [hd.others k hk, h.executing k]
    exact ⟨fun heq => absurd (Option.some.inj heq).symm hk, nofun⟩

theorem JobsSound.conclude (h : JobsSound (some q) s) (st : Status) (n : Nat) (d : Detail) (hit : Bool) :
    UnitsSound (finishControl q st n d hit s) := by
  obtain ⟨pos, hd, body, hh⟩ := (ctlIn_iff _ _).mp ((h.executing q).mpr rfl)
  refine h.ended (h.toJobs.quiet (finishControl_quiet ..)) (finishControl_drops hh st n d hit) ?_
  rw [finishControl_eq hh, (completeHead_changes ..).cu rfl]

theorem JobsSound.park (h : JobsSound (some q) s) : UnitsSound (parkControl q s) := by
  obtain ⟨pos, hd, body, hh⟩ := (ctlIn_iff _ _).mp ((h.executing q).mpr rfl)
  refine h.ended (h.toJobs.quiet (parkControl_quiet ..)) (parkControl_drops hh) ?_
  rw [parkControl_eq hh]
  rfl

/-- The unit waits for the end of the record that executes. -/
theorem JobsSound.busy {w : CuWork} (h : JobsSound (some (workQueue w)) s)
    (ha : ∀ a t, w = .abortWait a t → headIn .running (s.queue t).head = true) :
    UnitsSound { s with cu := { s.cu with work := some w } } :=
  ⟨⟨⟨h.oneJob, h.running⟩, h.executing⟩, (abortSound_iff _).mpr fun a t hw => ha a t (Option.some.inj hw)⟩

/-! #### The end of a job -/

theorem releasedState_dp (j : JobRec) (s : State) : (releasedState j s).dp = Datapath.idle :=
  (((endStreams_changes j s.dp { s with dp := Datapath.idle, stopReq := false }).trans (endContext_changes j s.dp _)).trans
    (useEndOf_changes j _)).dp rfl

/-- The state in which a job has ended and its completion is handed over, before the ABORT that waited for it is served. -/
def endedState (hd : Header) (j : JobRec) (s : State) : State :=
  completeHead s.dp.jobq (endCompletion (releasedState j s) s.dp.jobq hd j s.dp) (releasedState j s)

theorem endedState_changes (hd : Header) (j : JobRec) (s : State) :
    Changes [.queues, .waits, .cq] (releasedState j s) (endedState hd j s) := completeHead_changes ..

theorem endedState_drops (hd : Header) (j : JobRec) (s : State) : Drops s.dp.jobq s (endedState hd j s) := by
  obtain ⟨ha, hx⟩ := classes_of_no_record (completeHead_no_record (q := s.dp.jobq) (s := releasedState j s)
    (endCompletion (releasedState j s) s.dp.jobq hd j s.dp))
  refine ⟨fun k hk => ?_, ha, hx⟩
  rw [endedState, completeHead_queue_ne _ _ hk, (releasedState_changes j s).queue rfl]

/-- A job in SETTLE ends: its queue's head, and the states it passes through. -/
theorem Jobs.endOfJob (h : Jobs s) (hst : s.dp.st = .settle) : ∃ pos hd j, (s.queue s.dp.jobq).head = .data pos hd j ∧
    j.jstate = .running ∧ endOfJob s = checkDrain (endAbort s.dp.jobq (endedState hd j s)) ∧ Jobs (endedState hd j s) := by
  have hrun : headIn .running (s.queue s.dp.jobq).head = true := (h.running _).mpr ⟨by rw [hst]; nofun, rfl⟩
  obtain ⟨pos, hd, j, hh, hj⟩ := (headIn_iff _ _).mp hrun
  refine ⟨pos, hd, j, hh, hj, endOfJob_eq hh, h.drop (endedState_drops hd j s) fun k => ?_⟩
  rw [(endedState_changes hd j s).dp rfl, releasedState_dp]
  refine ⟨fun hk => absurd rfl hk.1, fun hk => absurd ((h.running k).mp hk.1).2.symm hk.2⟩

theorem closed_unitsSound : Closed (fun s t => UnitsSound s → UnitsSound t) :=
  closed_of_units (fun _ => id) (fun h h' hs => h' (h hs)) (fun hk _ h => h.keep hk)
    (fun {s q _ _ _} st hh hj h => by
      unfold UnitsSound
      rw [(failStart_changes q st s).cu rfl]
      exact Units.failStart h hh hj st)
    (fun {s q _ _ _} reads hh hj _ h => by
      unfold UnitsSound
      rw [(enterRunning_changes q reads s).cu rfl]
      exact Units.enterRunning h hh hj reads)
    (fun {s} hst h => by
      obtain ⟨pos, hd, j, hh, hj, heq, hjobs⟩ := h.toJobs.endOfJob hst
      have hcu : (endedState hd j s).cu = s.cu := ((releasedState_changes j s).trans (endedState_changes hd j s)).cu rfl
      have hu : JobsSound (s.cu.work.map workQueue) (endedState hd j s) := h.toJobsSound.drop hjobs (endedState_drops hd j s)
        (running_active ((headIn_iff _ _).mpr ⟨pos, hd, j, hh, hj⟩))
      rw [heq]
      refine UnitsSound.keep ?_ (UnitsKeep.of_changes (checkDrain_changes _) rfl rfl rfl)
      by_cases hw : ∃ a b, s.cu.work = some (.abortWait a b)
      · obtain ⟨a, b, hw⟩ := hw
        have hb : s.dp.jobq = b := ((h.running b).mp ((abortSound_iff s).mp h.abort a b hw)).2
        rw [endAbort_of_waiting (a := a) (by rw [hcu, hw, hb])]
        rw [hw] at hu
        exact JobsSound.conclude hu _ _ _ _
      · have hno : ∀ a b, (endedState hd j s).cu.work ≠ some (.abortWait a b) := fun a b hab => hw ⟨a, b, by rw [← hcu, hab]⟩
        rw [endAbort_of_none fun a => hno a _]
        rw [← hcu] at hu
        exact ⟨hu, (abortSound_iff _).mpr fun a b hab => absurd hab (hno a b)⟩)

theorem closed_executes : Closed (fun s t => ∀ q, Executes q s → Executes q t) :=
  closed_of_units (fun _ _ => id) (fun h h' q hs => h' q (h q hs)) (fun hk _ _ h => h.keep hk)
    (fun {s q _ _ _} st hh hj _ h => ⟨h.1.failStart hh hj st, by rw [(failStart_changes q st s).cu rfl]; exact h.2⟩)
    (fun {s q _ _ _} reads hh hj _ _ h =>
      ⟨h.1.enterRunning hh hj reads, by rw [(enterRunning_changes q reads s).cu rfl]; exact h.2⟩)
    (fun {s} hst q h => by
      obtain ⟨pos, hd, j, hh, hj, heq, hjobs⟩ := h.1.toJobs.endOfJob hst
      have hcu : (endedState hd j s).cu = s.cu := ((releasedState_changes j s).trans (endedState_changes hd j s)).cu rfl
      have hu : JobsSound (some q) (endedState hd j s) := h.1.toJobsSound.drop hjobs (endedState_drops hd j s)
        (running_active ((headIn_iff _ _).mpr ⟨pos, hd, j, hh, hj⟩))
      have hwork : (endedState hd j s).cu.work = none := by rw [hcu]; exact h.2
      rw [heq, endAbort_of_none fun a => by rw [hwork]; nofun]
      exact Executes.keep ⟨⟨hu, abortSound_of_idle hwork⟩, hwork⟩ (UnitsKeep.of_changes (checkDrain_changes _) rfl rfl rfl))

theorem JobsSound.executing_eq (h : JobsSound e s) (hx : ctlIn .executing (s.queue q).head = true) : e = some q :=
  (h.executing q).mp hx

theorem controlClosed_unitsSound :
    ControlClosed (fun s t => UnitsSound s → UnitsSound t) (fun s t => UnitsSound s → UnitsSound t) where
  toClosed := closed_unitsSound
  after := fun h h' hs => h' (h hs)
  conclude := fun {s q} st n d hit hx h => by
    have hj : JobsSound (s.cu.work.map workQueue) s := h.toJobsSound
    rw [hj.executing_eq hx] at hj
    exact hj.conclude st n d hit
  park := fun {s q} hx h => by
    have hj : JobsSound (s.cu.work.map workQueue) s := h.toJobsSound
    rw [hj.executing_eq hx] at hj
    exact hj.park
  busy := fun {s} w hx ha _ h => by
    have hj : JobsSound (s.cu.work.map workQueue) s := h.toJobsSound
    rw [hj.executing_eq hx] at hj
    exact hj.busy ha

theorem controlClosed_executes :
    ControlClosed (fun s t => ∀ q, Executes q s → Executes q t) (fun s t => ∀ q, Executes q s → UnitsSound t) where
  toClosed := closed_executes
  after := fun h h' q hs => h' q (h q hs)
  conclude := fun st n d hit hx q h => by
    obtain rfl := Option.some.inj (h.1.executing_eq hx)
    exact h.1.toJobsSound.conclude st n d hit
  park := fun hx q h => by
    obtain rfl := Option.some.inj (h.1.executing_eq hx)
    exact h.1.toJobsSound.park
  busy := fun w hx ha _ q h => by
    obtain rfl := Option.some.inj (h.1.executing_eq hx)
    exact h.1.toJobsSound.busy ha

/-- A selected record executes to its end. -/
theorem executeControl_unitsSound (h : Executes q s) (body : ControlRec) : UnitsSound (executeControl q body s) :=
  controlClosed_executes.executeControl_of_tables
    (fun hc _ h => h.keep (UnitsKeep.of_changes hc rfl rfl rfl)) body ((h.1.executing q).mpr rfl) q h

/-- The selection of a record leaves the jobs. -/
theorem executing_quiet {pos : Nat} {hd : Header} {body : ControlRec} {c : CtlState}
    (hh : (s.queue q).head = .control pos hd body c) : Quiet s (executing q pos hd body s) := by
  refine ⟨Changes.mono ((changes_cu s { work := none, last := q }).trans
    (changes_setHead { s with cu := { work := none, last := q } } q _)) rfl, fun k => ?_, fun k => ?_⟩
  · by_cases hk : k = q
    · subst hk
      rw [executing_head, hh]
      rfl
    · rw [executing_queue_ne _ _ _ _ hk]
  · by_cases hk : k = q
    · subst hk
      rw [executing_head, hh]
      exact .inr (.inl rfl)
    · rw [executing_queue_ne _ _ _ _ hk]
      exact .inr (.inl rfl)

/-- The record selected executes while the unit was idle. -/
theorem UnitsSound.select {pos : Nat} {hd : Header} {body : ControlRec} (h : UnitsSound s) (hidle : s.cu.work = none)
    (hh : (s.queue q).head = .control pos hd body .controlWait) : Executes q (executing q pos hd body s) := by
  have hx := h.executing
  rw [hidle] at hx
  refine ⟨⟨⟨h.toJobs.quiet (executing_quiet hh), fun k => ?_⟩, abortSound_of_idle rfl⟩, rfl⟩
  by_cases hk : k = q
  · subst hk
    rw [executing_head]
    exact ⟨fun _ => rfl, fun _ => rfl⟩
  · rw [executing_queue_ne _ _ _ _ hk, hx k]
    exact ⟨nofun, fun heq => absurd (Option.some.inj heq).symm hk⟩

theorem claimedState_head {pos : Nat} {hd : Header} {j : JobRec} :
    ((claimedState q pos hd j s).queue q).head = .data pos hd (claimedRec j) := by
  rw [claimedState, State.queue_setHead_self]

theorem claimedState_queue_ne {pos : Nat} {hd : Header} {j : JobRec} {k : Fin 4} (hk : k ≠ q) :
    (claimedState q pos hd j s).queue k = s.queue k := by
  rw [claimedState, State.setHead, State.queue_setQueue_ne _ _ hk, (setClaims_changes ..).queue rfl]

theorem claimedState_changes (q : Fin 4) (pos : Nat) (hd : Header) (j : JobRec) (s : State) :
    Changes [.streams, .queues] s (claimedState q pos hd j s) := (setClaims_changes ..).trans (changes_setHead ..)

/-- A grant claims the streams of the only job that starts. -/
theorem Jobs.claimed {pos : Nat} {hd : Header} {j : JobRec} (h : Jobs s) (hnone : ∀ k, jobActive (s.queue k).head = false) :
    Jobs (claimedState q pos hd j s) := by
  have honly : ∀ k, jobActive ((claimedState q pos hd j s).queue k).head = true → k = q := fun k ha => by
    by_contra hk
    rw [claimedState_queue_ne hk, hnone k] at ha
    cases ha
  refine ⟨fun a b ha hb => (honly a ha).trans (honly b hb).symm, fun k => ?_⟩
  rw [(claimedState_changes q pos hd j s).dp rfl, ← h.running k, not_running_of_inactive (hnone k)]
  by_cases hk : k = q
  · subst hk
    rw [claimedState_head]
    exact ⟨nofun, nofun⟩
  · rw [claimedState_queue_ne hk, not_running_of_inactive (hnone k)]

theorem UnitsSound.claimed {pos : Nat} {hd : Header} {j : JobRec} (h : UnitsSound s)
    (hnone : ∀ k, jobActive (s.queue k).head = false) (hh : (s.queue q).head = .data pos hd j) :
    UnitsSound (claimedState q pos hd j s) := by
  have hc := claimedState_changes q pos hd j s
  refine ⟨⟨h.toJobs.claimed hnone, fun k => ?_⟩, (abortSound_iff _).mpr fun a b hw => ?_⟩
  · rw [hc.cu rfl, ← h.executing k]
    by_cases hk : k = q
    · subst hk
      rw [claimedState_head, hh]
      rfl
    · rw [claimedState_queue_ne hk]
  · rw [hc.cu rfl] at hw
    have hb := (abortSound_iff s).mp h.abort a b hw
    rw [not_running_of_inactive (hnone b)] at hb
    cases hb

theorem tables_unitsSound : ControlClosed.Tables (fun s t => UnitsSound s → UnitsSound t) where
  arbiter := fun q s h => h.keep (UnitsKeep.of_changes (arbiterMove_changes q s) rfl rfl rfl)
  claim := fun _ hnone hh _ _ h => h.claimed hnone hh
  dp := fun hm h => h.keep (UnitsKeep.dpMoves hm)
  rearm := fun s n h => h.keep (UnitsKeep.of_changes (changes_setStream s n _) rfl rfl rfl)

theorem takeLineEvent_unitsKeep (p : PortId) (d : LineDue) (h : UnitsSound s) : UnitsSound (takeLineEvent p d s) := by
  have hkeep : ∀ {F : List Part} {s t : State}, Changes F s t → Part.cu.isIn F = false → Part.dp.isIn F = false →
      Part.queues.isIn F = false → UnitsSound s → UnitsSound t := fun hc hcu hd hq h =>
    h.keep (UnitsKeep.of_changes hc hcu hd hq)
  exact closed_unitsSound.ordinary.takeLineEvent (fun s n f => hkeep (portTake_changes n f s) rfl rfl rfl)
    (fun s n f x => hkeep (portAppend_changes n f x s) rfl rfl rfl)
    (fun s n dir m => hkeep (setMirror_changes n dir m s) rfl rfl rfl) d h

/-- The record that keeps the unit busy executes. -/
theorem UnitsSound.unitConcludes (h : UnitsSound s) :
    ControlClosed.UnitConcludes (fun s t => UnitsSound s → UnitsSound t) s where
  snapshot := fun q n a re bs hw => controlClosed_unitsSound.concludes (by
    rw [h.executing q, hw]
    rfl)
  place := fun r rest order q hw => controlClosed_unitsSound.concludes (by
    have ht : UnitsSound (retryJobPlace (beginFill r rest order s)) :=
      closed_unitsSound.retryJobPlace _ (closed_unitsSound.beginFill r rest order s h)
    rw [ht.executing q, hw]
    rfl)

theorem exec_controlSelect_unitsSound (h : UnitsSound s) : Answers UnitsSound (exec .controlSelect s) :=
  exec_controlSelect_answers h fun _ _ _ body _ hidle hh => executeControl_unitsSound (h.select hidle hh) body

theorem exec_inner_unitsSound {c : Instr} (hc : inner c = true) (h : UnitsSound s) : Answers UnitsSound (exec c s) :=
  (controlClosed_unitsSound.exec_inner tables_unitsSound h.unitConcludes
    (fun _ hc h => h.keep (UnitsKeep.of_changes hc rfl rfl rfl)) hc
    (ControlClosed.exec_portCommand closed_unitsSound.ordinary (fun p d _ => takeLineEvent_unitsKeep p d)
      (fun heq => by rw [heq]; exact (exec_controlSelect_unitsSound h).imp fun _ ht _ => ht) hc)).imp fun _ ht => ht h

end

/-! ### What the chain cache sees of a head -/

/-- What the cache and the loader see of a head: what it waits for (a STARTING job with its CHAINWAIT, or a PARKED LOAD or
LOAD_PIN), the address it waits to pin, its STARTING or RUNNING job, and the entry its job holds. -/
structure ChainView where
  waits : Option (Option ChainWait × Word)
  pins : Option Word
  job : Option JState
  entry : Option (Fin 8)

/-- The view of a head that the cache and the loader have nothing to do with. -/
def ChainView.rests : ChainView := ⟨none, none, none, none⟩

/-- The chain of a FILTER. -/
def filterAddr (d : DataRec) : Option Word :=
  match d.kind with
  | .filter a _ => some a
  | .mix _ => none

/-- The address a LOAD or LOAD_PIN names. -/
def loadAddr : ControlRec → Option Word
  | .chainControl .load a => some a
  | .chainControl .loadPin a => some a
  | _ => none

/-- What a head may wait for. -/
def headWaits : Head → Option (Option ChainWait × Word)
  | .data _ _ j => if j.jstate = .starting then (filterAddr j.data).map fun a => (some j.chainWait, a) else none
  | .control _ _ body c => if c = .parked then (loadAddr body).map fun a => (none, a) else none
  | _ => none

def chainView (h : Head) : ChainView := ⟨headWaits h, pendingPin h, (activeJob h).map ActiveJob.state, heldEntry h⟩

/-- The head waits for nothing of the loader's and has no job that starts or runs. -/
structure Unseen (h : Head) : Prop where
  waits : headWaits h = none
  inactive : jobActive h = false

/-- The view of a head stays, or it leaves where the cache and the loader do not see it. -/
def ViewKeeps (h h' : Head) : Prop := chainView h' = chainView h ∨ Unseen h ∧ chainView h' = .rests

/-- A head stays for its units and for the cache. -/
structure HeadStays (h h' : Head) : Prop extends HeadKeeps h h' where
  view : ViewKeeps h h'

section

variable {h h' h'' : Head}

theorem unseen_iff (h : Head) : Unseen h ↔ (chainView h).waits = none ∧ (chainView h).job = none := by
  have hjob : (chainView h).job = none ↔ jobActive h = false := by
    rw [jobActive_eq, chainView, Option.map_eq_none_iff, Option.isSome_eq_false_iff, Option.isNone_iff_eq_none]
  rw [hjob]
  exact ⟨fun hu => ⟨hu.waits, hu.inactive⟩, fun hu => ⟨hu.1, hu.2⟩⟩

theorem Unseen.congr (hu : Unseen h) (hv : chainView h' = chainView h) : Unseen h' := by
  rw [unseen_iff, hv, ← unseen_iff]
  exact hu

theorem chainView_of_control {pos : Nat} {hd : Header} {body : ControlRec} {c : CtlState} (hc : c ≠ .parked) :
    chainView (.control pos hd body c) = .rests := by
  have hpin : pendingPin (.control pos hd body c) = none := Option.eq_none_iff_forall_ne_some.mpr fun a ha => by
    obtain ⟨pos', hd', heq⟩ := (pendingPin_eq_some_iff _ a).mp ha
    cases heq
    exact hc rfl
  rw [chainView, hpin, headWaits, if_neg hc]
  rfl

theorem chainView_of_queued {pos : Nat} {hd : Header} {j : JobRec} (hj : queuedState j.jstate) :
    chainView (.data pos hd j) = { ChainView.rests with entry := j.chainEnt } := by
  have hs : j.jstate ≠ .starting := by
    obtain hj | hj := hj <;> rw [hj] <;> nofun
  rw [chainView, headWaits, if_neg hs, activeJob_of_inactive (inactive_of_queued hj)]
  rfl

theorem chainView_of_no_record (hn : heldRecord h = none) : chainView h = .rests := by
  cases h with
  | data pos hd j => cases hn
  | control pos hd body c => cases hn
  | empty => rfl
  | fetching pos => rfl

theorem unseen_of_rests (hv : chainView h = .rests) : Unseen h := by
  rw [unseen_iff, hv]
  exact ⟨rfl, rfl⟩

theorem unseen_of_no_record (hn : heldRecord h = none) : Unseen h := unseen_of_rests (chainView_of_no_record hn)

theorem unseen_of_queued {pos : Nat} {hd : Header} {j : JobRec} (hj : queuedState j.jstate) : Unseen (.data pos hd j) := by
  rw [unseen_iff, chainView_of_queued hj]
  exact ⟨rfl, rfl⟩

theorem ViewKeeps.refl (h : Head) : ViewKeeps h h := .inl rfl

theorem ViewKeeps.trans (a : ViewKeeps h h') (b : ViewKeeps h' h'') : ViewKeeps h h'' := by
  obtain hb | ⟨hu, hr⟩ := b
  · rw [ViewKeeps, hb]
    exact a
  · refine .inr ⟨?_, hr⟩
    obtain ha | ⟨hu', -⟩ := a
    · exact hu.congr ha.symm
    · exact hu'

theorem HeadStays.refl (h : Head) : HeadStays h h := ⟨HeadKeeps.refl h, ViewKeeps.refl h⟩

/-- A head that the cache does not see, and that does not execute, loses its record. -/
theorem headStays_of_no_record (hu : Unseen h) (hx : ctlIn .executing h = false) (hn : heldRecord h' = none) : HeadStays h h' :=
  ⟨headKeeps_of_no_record hu.inactive hx hn, .inr ⟨hu, chainView_of_no_record hn⟩⟩

end

/-- The units stay, and what the cache sees of the heads. -/
structure UnitsStay (s t : State) : Prop extends UnitsKeep s t where
  views : ∀ k, ViewKeeps (s.queue k).head (t.queue k).head

namespace UnitsStay

variable {s t u : State} {q : Fin 4}

theorem refl (s : State) : UnitsStay s s := ⟨UnitsKeep.refl s, fun _ => ViewKeeps.refl _⟩

theorem trans (h : UnitsStay s t) (h' : UnitsStay t u) : UnitsStay s u :=
  ⟨h.toUnitsKeep.trans h'.toUnitsKeep, fun k => (h.views k).trans (h'.views k)⟩

theorem of_changes {F : List Part} (h : Changes F s t) (hc : Part.cu.isIn F = false) (hd : Part.dp.isIn F = false)
    (hq : Part.queues.isIn F = false) : UnitsStay s t :=
  ⟨UnitsKeep.of_changes h hc hd hq, fun k => by rw [h.queue hq]; exact ViewKeeps.refl _⟩

/-- Only one head may change. -/
theorem of_head {F : List Part} (h : Changes F s t) (hc : Part.cu.isIn F = false) (hd : Part.dp.isIn F = false)
    (hne : ∀ k, k ≠ q → t.queue k = s.queue k) (hq : HeadStays (s.queue q).head (t.queue q).head) : UnitsStay s t :=
  ⟨UnitsKeep.of_head h hc hd hne hq.toHeadKeeps, fun k => by
    by_cases hk : k = q
    · subst hk
      exact hq.view
    · rw [hne k hk]
      exact ViewKeeps.refl _⟩

theorem of_setHead {x : Head} (hx : HeadStays (s.queue q).head x) : UnitsStay s (s.setHead q x) :=
  of_head (changes_setHead ..) rfl rfl (fun k hk => State.queue_setQueue_ne _ _ hk) (by rw [State.queue_setHead_self]; exact hx)

theorem of_setQueue {r : QueueRec} (hr : HeadStays (s.queue q).head r.head) : UnitsStay s (s.setQueue q r) :=
  of_head (changes_setQueue ..) rfl rfl (fun _ hk => State.queue_setQueue_ne _ _ hk)
    (by rw [State.queue_setQueue_self]; exact hr)

theorem completeHead (r : CqRec) (hu : Unseen (s.queue q).head) (hx : ctlIn .executing (s.queue q).head = false) :
    UnitsStay s (completeHead q r s) :=
  of_head (completeHead_changes ..) rfl rfl (fun _ hk => completeHead_queue_ne _ _ hk)
    (headStays_of_no_record hu hx (completeHead_no_record r))

end UnitsStay

/-! ### The queue fetcher -/

section

variable {s : State} {q : Fin 4}

theorem issueFetch_unitsStay (hn : heldRecord (s.queue q).head = none) : UnitsStay s (issueFetch q s) := by
  exact (UnitsStay.of_changes (changes_cq ..) rfl rfl rfl).trans (UnitsStay.of_setQueue
    (headStays_of_no_record (unseen_of_no_record hn) (classes_of_no_record hn).2 rfl))

theorem askIfEligible_unitsStay (q : Fin 4) (s : State) : UnitsStay s (askIfEligible q s) := by
  unfold askIfEligible
  split
  case isTrue hask =>
    rw [Bool.and_eq_true, eligible_iff] at hask
    obtain ⟨⟨-, -, -, hh, -⟩, -⟩ := hask
    unfold askFetch
    split
    · exact UnitsStay.of_changes (changes_waits ..) rfl rfl rfl
    · exact issueFetch_unitsStay (by rw [hh]; rfl)
  case isFalse => exact UnitsStay.refl s

theorem flushedQueue_no_record (r : QueueRec) : heldRecord (flushedQueue r).head = none := by
  obtain ⟨hh, -⟩ | ⟨⟨pos, hh⟩, -⟩ := flushedQueue_record r
  · rw [hh]
    rfl
  · rw [hh]
    rfl

theorem flushEffect_unitsStay (hu : Unseen (s.queue q).head) (hx : ctlIn .executing (s.queue q).head = false) :
    UnitsStay s (flushEffect q s) :=
  (UnitsStay.of_changes (changes_cq ..) rfl rfl rfl).trans
    (UnitsStay.of_setQueue (headStays_of_no_record hu hx (flushedQueue_no_record _)))

theorem flushOwn_unitsStay (hu : Unseen (s.queue q).head) (hx : ctlIn .executing (s.queue q).head = false) :
    UnitsStay s (flushOwn q s) := by
  unfold flushOwn
  split
  · rw [listForFlush_eq]
    exact (UnitsStay.of_setQueue (r := { s.queue q with flushPend := true }) (HeadStays.refl _)).trans
      (UnitsStay.of_changes (changes_waits ..) rfl rfl rfl)
  · exact (UnitsStay.of_changes ((changes_waits s _).trans (changes_cq ..)) rfl rfl rfl).trans (flushEffect_unitsStay hu hx)

theorem serveEntries_unitsStay {l : List (Fin 4 × Purpose)} (hl : ∀ e ∈ l, heldRecord (s.queue e.1).head = none) :
    UnitsStay s (serveEntries l s) := by
  induction l generalizing s with
  | nil => exact UnitsStay.refl s
  | cons e rest ih =>
    obtain ⟨q, p⟩ := e
    have hq : heldRecord (s.queue q).head = none := hl (q, p) List.mem_cons_self
    have hu : Unseen (s.queue q).head := unseen_of_no_record hq
    have hx : ctlIn .executing (s.queue q).head = false := (classes_of_no_record hq).2
    have hnext : ∀ u, LooseMoves s u → UnitsStay s u → UnitsStay s (serveEntries rest u) := fun u hm hk =>
      hk.trans (ih fun e he => (hm.heads e.1).record.elim id fun heq => heq.trans (hl e (List.mem_cons_of_mem _ he)))
    unfold serveEntries
    split
    · exact hnext s (LooseMoves.refl s) (UnitsStay.refl s)
    case isFalse hp =>
      split
      · exact UnitsStay.refl s
      · cases p with
        | fetch =>
          have hrun : s.eng.st = .running := by simpa [purposeServed] using hp
          exact hnext _ ((LooseMoves.of_waits _).trans (issueFetch_loose q hrun))
            (UnitsStay.trans (t := unlist s q) (UnitsStay.of_changes (changes_waits ..) rfl rfl rfl) (issueFetch_unitsStay hq))
        | flush =>
          exact hnext _ ((reserve_unlist_loose q s).trans (flushEffect_loose ..))
            (UnitsStay.trans (t := reserve (unlist s q))
              (UnitsStay.of_changes ((changes_waits s _).trans (changes_cq ..)) rfl rfl rfl) (flushEffect_unitsStay hu hx))

theorem no_record_of_fits {r : QueueRec} {p : Purpose} (h : entryFits r p) : heldRecord r.head = none := by
  by_contra hn
  have hh := (holds_of_record hn).1
  rw [holds_of_fits h] at hh
  cases hh

theorem serveWaitList_unitsStay (h : ReserveSound s) : UnitsStay s (serveWaitList s) :=
  serveEntries_unitsStay fun e he => no_record_of_fits (h.fits e he)

theorem decodeHead_unitsStay {pos : Nat} (hh : (s.queue q).head = .fetching pos) (bytes : List Byte) :
    UnitsStay s (decodeHead q pos bytes s) := by
  have hcomplete : ∀ r, UnitsStay s (completeHead q r s) := fun r =>
    UnitsStay.completeHead r (by rw [hh]; exact unseen_of_no_record rfl) (by rw [hh]; rfl)
  unfold decodeHead
  dsimp only
  split
  · exact hcomplete _
  case h_2 d _ =>
    unfold admitData
    split
    · exact hcomplete _
    · refine UnitsStay.of_setHead ?_
      rw [hh]
      exact ⟨headKeeps_of_inactive rfl (inactive_of_queued (newJob_queued s d)) rfl,
        .inr ⟨unseen_of_no_record rfl, chainView_of_queued (newJob_queued s d)⟩⟩
  · refine UnitsStay.of_setHead ?_
    rw [hh]
    exact ⟨⟨rfl, rfl⟩, .inr ⟨unseen_of_no_record rfl, chainView_of_control nofun⟩⟩

theorem discardFetch_unitsStay {pos : Nat} (hh : (s.queue q).head = .fetching pos) : UnitsStay s (discardFetch q s) :=
  (UnitsStay.of_setQueue (r := { s.queue q with head := .empty, discard := false })
    (headStays_of_no_record (by rw [hh]; exact unseen_of_no_record rfl) (by rw [hh]; rfl) rfl)).trans (askIfEligible_unitsStay ..)

theorem tickHead_headStays (h : Head) : HeadStays h (tickHead h) := by
  cases h with
  | data pos hd j =>
    simp only [tickHead]
    unfold tickJob
    split
    · exact ⟨⟨rfl, rfl⟩, .inl rfl⟩
    · exact HeadStays.refl _
  | empty => exact HeadStays.refl _
  | fetching pos => exact HeadStays.refl _
  | control pos hd body c => exact HeadStays.refl _

theorem tickQueues_unitsStay (s : State) : UnitsStay s (tickQueues s) := by
  by_cases hf : s.eng.st = .faulted
  · rw [tickQueues, if_pos hf]
    exact UnitsStay.refl s
  · have hc := tickQueues_changes s
    have hstays : ∀ k, HeadStays (s.queue k).head ((tickQueues s).queue k).head := fun k => by
      rw [queue_tickQueues hf, tickQueue]
      exact tickHead_headStays _
    exact ⟨⟨by rw [hc.cu rfl], by rw [hc.dp rfl], by rw [hc.dp rfl], fun k => (hstays k).toHeadKeeps⟩, fun k => (hstays k).view⟩

theorem unitsSound_of_empty (hq : ∀ q, (s.queue q).head = .empty) (hdp : s.dp.st = .idle) (hcu : s.cu.work = none) :
    UnitsSound s := by
  refine ⟨⟨⟨fun a _ ha => ?_, fun k => ?_⟩, fun k => ?_⟩, abortSound_of_idle hcu⟩
  · rw [hq a] at ha
    cases ha
  · rw [hq k]
    exact ⟨nofun, fun h => absurd hdp h.1⟩
  · rw [hq k, hcu]
    exact ⟨nofun, nofun⟩

/-- A head that holds no flush back. -/
theorem classes_of_not_holding {r : QueueRec} (hr : headHoldsFlush r = false) : Unseen r.head ∧ ctlIn .executing r.head = false := by
  unfold headHoldsFlush at hr
  split at hr
  case h_1 hh => exact ⟨by rw [hh]; exact unseen_of_no_record rfl, by rw [hh]; rfl⟩
  case h_2 pos hh => exact ⟨by rw [hh]; exact unseen_of_no_record rfl, by rw [hh]; rfl⟩
  case h_3 pos hd j hh =>
    obtain ⟨hs, hrun⟩ : j.jstate ≠ .starting ∧ j.jstate ≠ .running := by simpa using hr
    have hj : queuedState j.jstate := by
      cases hstate : j.jstate with
      | waiting => exact .inl rfl
      | ready => exact .inr rfl
      | starting => exact absurd hstate hs
      | running => exact absurd hstate hrun
    exact ⟨by rw [hh]; exact unseen_of_queued hj, by rw [hh]; rfl⟩
  case h_4 pos hd body c hh =>
    obtain ⟨hx, hp⟩ : c ≠ .executing ∧ c ≠ .parked := by simpa using hr
    exact ⟨by rw [hh]; exact unseen_of_rests (chainView_of_control hp), by rw [hh]; exact decide_eq_false hx⟩

/-- What the commands outside the blocks keep of the units: the fetcher's commands change no head that has a unit. -/
theorem exec_outer_unitsStay {c : Instr} (hc : inner c = false) (hreset : resets c = false) (hsetup : ∀ off a, c ≠ .setupReadAnswer off a)
    (h : ReserveSound s) : Answers (UnitsStay s) (exec c s) := by
  have hrefl := UnitsStay.refl s
  have hparts : Part.cu.isIn (commandParts c) = false → Part.dp.isIn (commandParts c) = false →
      Part.queues.isIn (commandParts c) = false → Answers (UnitsStay s) (exec c s) := fun hcu hdp hq =>
    exec_keeps_of_parts fun t ht => UnitsStay.of_changes ht hcu hdp hq
  cases c with
  | setupReadAnswer off a => exact absurd rfl (hsetup off a)
  | clear => cases hreset
  | pinReset => cases hreset
  | run =>
    refine answers_taken hrefl ?_
    split
    · exact UnitsStay.of_changes (runFromOff_changes s) rfl rfl rfl
    · have haccept : UnitsStay s (acceptCommand .running s) := UnitsStay.of_changes (changes_eng ..) rfl rfl rfl
      have hserve : UnitsStay (acceptCommand .running s) (serveWaitList (acceptCommand .running s)) :=
        serveWaitList_unitsStay (h.congr (fun _ => SameReserve.refl _) rfl h.ring)
      exact ((((haccept.trans hserve).trans (askIfEligible_unitsStay 0 _)).trans (askIfEligible_unitsStay 1 _)).trans
        (askIfEligible_unitsStay 2 _)).trans (askIfEligible_unitsStay 3 _)
    · exact UnitsStay.of_changes (changes_eng ..) rfl rfl rfl
  | postAdvance q index =>
    refine answers_taken hrefl ?_
    split
    · exact (UnitsStay.of_setQueue (r := { s.queue q with prod := index.toNat }) (HeadStays.refl _)).trans
        (askIfEligible_unitsStay ..)
    · exact UnitsStay.of_changes (refusePost_changes q s) rfl rfl rfl
  | postRestart q =>
    refine answers_taken hrefl ?_
    split
    · exact (UnitsStay.of_setQueue (r := { s.queue q with state := .active }) (HeadStays.refl _)).trans
        (askIfEligible_unitsStay ..)
    · exact hrefl
  | postFlush q =>
    refine answers_taken hrefl ?_
    dsimp only
    split
    · exact UnitsStay.of_changes (refusePost_changes q s) rfl rfl rfl
    · split
      · exact hrefl
      · split
        · exact UnitsStay.of_setQueue (HeadStays.refl _)
        case isFalse hholds =>
          have hclasses := classes_of_not_holding (Bool.eq_false_iff.mpr hholds)
          split
          · exact flushEffect_unitsStay hclasses.1 hclasses.2
          · exact flushOwn_unitsStay hclasses.1 hclasses.2
  | cqheadWrite index =>
    refine answers_taken hrefl ?_
    split
    case isTrue =>
      have hmoved : UnitsStay s { s with cq := { s.cq with headx := index.toNat } } := UnitsStay.of_changes (changes_cq ..) rfl rfl rfl
      dsimp only
      split
      · have hsum := postSummary_changes { s with cq := { s.cq with headx := index.toNat } }
        refine (hmoved.trans (UnitsStay.of_changes hsum rfl rfl rfl)).trans (serveEntries_unitsStay fun e he => ?_)
        rw [hsum.queue rfl]
        rw [hsum.waitList rfl] at he
        exact no_record_of_fits (h.fits e he)
      · exact hmoved
    case isFalse => exact UnitsStay.of_changes ((changes_eng s _).trans (changes_irqPend ..)) rfl rfl rfl
  | tick =>
    refine answers_taken hrefl ?_
    exact (tickQueues_unitsStay s).trans (UnitsStay.of_changes (changes_cq ..) rfl rfl rfl)
  | headFetchData q bytes =>
    refine answers_taken hrefl ?_
    split
    case h_1 pos hh =>
      split
      · exact hrefl
      · split
        · exact discardFetch_unitsStay hh
        · exact decodeHead_unitsStay hh bytes
    case h_2 => exact hrefl
  | headFetchError q =>
    refine answers_taken hrefl ?_
    split
    case h_1 pos hh =>
      split
      · exact discardFetch_unitsStay hh
      · refine (UnitsStay.of_setQueue (r := { s.queue q with state := .stopped }) (HeadStays.refl _)).trans
          (UnitsStay.completeHead _ ?_ ?_)
        · rw [State.queue_setQueue_self]
          exact unseen_of_no_record (congrArg heldRecord hh)
        · rw [State.queue_setQueue_self]
          exact congrArg (ctlIn .executing) hh
    case h_2 => exact hrefl
  | halt => exact hparts rfl rfl rfl
  | engctlReservedCode code => exact hparts rfl rfl rfl
  | postReservedAction q => exact hparts rfl rfl rfl
  | setupadrWrite v => exact hparts rfl rfl rfl
  | resetRelease => exact hparts rfl rfl rfl
  | coalescingTimerExpiry => exact hparts rfl rfl rfl
  | bodyWriteAnswer => exact hparts rfl rfl rfl
  | phaseWriteAnswer => exact hparts rfl rfl rfl
  | cqWriteError => exact hparts rfl rfl rfl
  | _ => cases hc

end

end Sys2Proof.Machine
end

section
/-! SUPPORT. The block at rest (R169), and the laws of heads, reservations, the control unit and the datapath under every step. -/

namespace Sys2Proof.Machine

open Sys2Proof

/-- OFF or CONFIGURING, with every head EMPTY and no queue that waits. -/
structure Idles (s : State) : Prop where
  rests : engineRests s
  waits : s.waitList = []
  heads : ∀ q : Fin 4, (s.queue q).head = .empty

section

variable {s t : State}

theorem Idles.muted (h : Idles s) : Muted s := .inr ⟨h.rests, fun q => by rw [h.heads q]; rfl⟩

theorem Idles.not_running (h : Idles s) : s.eng.st ≠ .running := fun hr => not_rests_of_st hr nofun nofun h.rests

theorem Idles.keep (h : Idles s) (hm : Moves s t) : Idles t where
  rests := hm.rests.mpr h.rests
  waits := (hm.muted h.muted).1.trans h.waits
  heads := fun q => by
    have hq := hm.heads q
    rw [h.heads q] at hq
    cases hh : (t.queue q).head with
    | empty => rfl
    | fetching pos => exact absurd (hq.fetching h.not_running pos hh) nofun
    | data pos hd j =>
      rw [hh] at hq
      exact hq.record.elim nofun nofun
    | control pos hd body c =>
      rw [hh] at hq
      exact hq.record.elim nofun nofun

theorem Idles.congr (h : Idles s) (hr : engineRests t) (hw : t.waitList = s.waitList)
    (hq : ∀ q, (t.queue q).head = (s.queue q).head) : Idles t :=
  ⟨hr, hw.trans h.waits, fun q => (hq q).trans (h.heads q)⟩

theorem not_live_of_rests (h : engineRests s) : live s = false := by
  rw [Bool.eq_false_iff, ne_eq, live_iff]
  rintro (hs | hs | hs)
  · exact not_rests_of_st hs nofun nofun h
  · exact not_rests_of_st hs nofun nofun h
  · exact not_rests_of_st hs nofun nofun h

/-- A block at rest stays so while the engine rests. -/
theorem exec_idles {c : Instr} (hreset : resets c = false) (h : Idles s) :
    Answers (fun t => engineRests t → Idles t) (exec c s) := by
  have hsame : Idles s → engineRests s → Idles s := fun h _ => h
  have hparts : Part.queues.isIn (commandParts c) = false → Part.waits.isIn (commandParts c) = false →
      Answers (fun t => engineRests t → Idles t) (exec c s) := fun hq hw =>
    exec_keeps_of_parts fun t ht hr => h.congr hr (ht.waitList hw) fun q => by rw [ht.queue hq]
  have hlive := not_live_of_rests h.rests
  have hrefl : engineRests s → Idles s := fun _ => h
  cases c with
  | clear => cases hreset
  | pinReset => cases hreset
  | run =>
    refine answers_taken hrefl ?_
    split
    · have hc := runFromOff_changes s
      exact fun hr => h.congr hr (hc.waitList rfl) fun q => by rw [hc.queue rfl]
    case h_2 hst => exact absurd h.rests (not_rests_of_st hst nofun nofun)
    · exact fun hr => h.congr hr rfl fun _ => rfl
  | postAdvance q index =>
    refine answers_taken hrefl ?_
    split
    · have hset : Idles (s.setQueue q { s.queue q with prod := index.toNat }) := h.congr h.rests rfl (head_setQueue rfl)
      exact fun _ => hset.keep (askIfEligible_moves ..)
    · have hc := refusePost_changes q s
      exact fun hr => h.congr hr (hc.waitList rfl) fun q => by rw [hc.queue rfl]
  | postRestart q =>
    refine answers_taken hrefl ?_
    split
    · have hset : Idles (s.setQueue q { s.queue q with state := .active }) := h.congr h.rests rfl (head_setQueue rfl)
      exact fun _ => hset.keep (askIfEligible_moves ..)
    · exact hrefl
  | postFlush q =>
    refine answers_taken hrefl ?_
    dsimp only
    rw [hlive]
    have hc := refusePost_changes q s
    rw [if_pos (show (!(false && present (s.queue q))) = true from rfl)]
    exact fun hr => h.congr hr (hc.waitList rfl) fun q => by rw [hc.queue rfl]
  | cqheadWrite index =>
    refine answers_taken hrefl ?_
    split
    case isTrue hok =>
      dsimp only
      rw [hlive]
      exact fun hr => h.congr hr rfl fun _ => rfl
    case isFalse => exact fun hr => h.congr hr rfl fun _ => rfl
  | tick =>
    refine answers_taken hrefl fun hr => h.congr hr ?_ fun q => ?_
    · exact (tickQueues_changes s).waitList rfl
    · have hf : s.eng.st ≠ .faulted := fun hf => not_rests_of_st hf nofun nofun h.rests
      change ((tickQueues s).queue q).head = _
      rw [queue_tickQueues hf, tickQueue, h.heads q]
      rfl
  | setupReadAnswer off a =>
    refine answers_taken hrefl ?_
    split
    · exact hrefl
    · split
      · dsimp only
        split
        · unfold setupDone
          split
          · exact fun hr => h.congr hr rfl fun _ => rfl
          · dsimp only
            split
            · exact fun hr => h.congr hr rfl fun _ => rfl
            · exact fun hr => absurd hr (not_rests_of_st (st := .running) rfl nofun nofun)
        · exact fun hr => h.congr hr rfl fun _ => rfl
      · exact hrefl
  | headFetchData q bytes =>
    refine answers_taken hrefl ?_
    split
    case h_1 hh => exact absurd ((h.heads q).symm.trans hh) nofun
    case h_2 => exact hrefl
  | headFetchError q =>
    refine answers_taken hrefl ?_
    split
    case h_1 hh => exact absurd ((h.heads q).symm.trans hh) nofun
    case h_2 => exact hrefl
  | halt => exact hparts rfl rfl
  | engctlReservedCode code => exact hparts rfl rfl
  | postReservedAction q => exact hparts rfl rfl
  | setupadrWrite v => exact hparts rfl rfl
  | resetRelease => exact hparts rfl rfl
  | coalescingTimerExpiry => exact hparts rfl rfl
  | bodyWriteAnswer => exact hparts rfl rfl
  | phaseWriteAnswer => exact hparts rfl rfl
  | cqWriteError => exact hparts rfl rfl
  | _ => exact (exec_moves rfl s).imp fun t hm _ => h.keep hm

end

section

variable {s : State}

theorem headsSound_of_parts (hr : ReserveSound s) (hu : UnitsSound s) (hi : engineRests s → Idles s) : HeadsSound s where
  wait := hr.waitListSound
  discard := hr.discard
  oneJob := hu.oneJob
  running := hu.running
  executing := hu.executing
  abort := hu.abort
  rest := fun h => ⟨(hi h).waits, (hi h).heads⟩
  ring := hr.ringSound

theorem exec_setupReadAnswer_unitsSound (h : HeadsSound s) (he : EngineSound s) (off : Nat) (a : Answer) :
    Answers UnitsSound (exec (.setupReadAnswer off a) s) := by
  have hsame : ∀ {F : List Part} {t : State}, Changes F s t → Part.cu.isIn F = false → Part.dp.isIn F = false →
      Part.queues.isIn F = false → UnitsSound t := fun hc hcu hd hq => h.units.keep (UnitsKeep.of_changes hc hcu hd hq)
  refine answers_taken h.units ?_
  split
  · exact h.units
  case h_2 b hb =>
    have hrests : s.eng.st = .configuring := he.setup.mp (by rw [hb]; rfl)
    have hempty := (h.rest (.inr hrests)).2
    split
    · dsimp only
      split
      · unfold setupDone
        split
        · exact hsame (setupFail_changes ..) rfl rfl rfl
        · dsimp only
          split
          · exact hsame (setupFail_changes ..) rfl rfl rfl
          · refine unitsSound_of_empty (fun q => ?_) ?_ ?_
            · rw [setupAccept_queue, loadedQueue]
              split <;> rfl
            · refine Decidable.byContradiction fun hd => ?_
              have hrun := (h.running s.dp.jobq).mpr ⟨hd, rfl⟩
              rw [hempty] at hrun
              exact absurd hrun nofun
            · rfl
      · exact hsame (changes_eng ..) rfl rfl rfl
    · exact h.units

theorem exec_unitsSound (c : Instr) (h : HeadsSound s) (he : EngineSound s) : Answers UnitsSound (exec c s) := by
  cases hin : inner c with
  | true => exact exec_inner_unitsSound hin h.units
  | false =>
    cases hreset : resets c with
    | true =>
      cases c with
      | clear =>
        refine answers_taken h.units ?_
        split
        · exact unitsSound_of_empty (fun q => congrArg QueueRec.head (queue_reset q)) rfl rfl
        · exact h.units.keep (UnitsKeep.of_changes (changes_eng ..) rfl rfl rfl)
      | pinReset => exact answers_next (unitsSound_of_empty (fun q => congrArg QueueRec.head (queue_reset q)) rfl rfl)
      | _ => cases hreset
    | false =>
      by_cases hsetup : ∃ off a, c = .setupReadAnswer off a
      · obtain ⟨off, a, rfl⟩ := hsetup
        exact exec_setupReadAnswer_unitsSound h he off a
      · exact (exec_outer_unitsStay hin hreset (fun off a hc => hsetup ⟨off, a, hc⟩) h.reserve).imp fun t ht => h.units.keep ht.toUnitsKeep

/-- CLEAR and a pin reset leave every head EMPTY; a CLEAR that is refused changes nothing of the heads. -/
theorem exec_reset_idles {c : Instr} (hreset : resets c = true) (h : HeadsSound s) :
    Answers (fun t => engineRests t → Idles t) (exec c s) := by
  cases c with
  | clear =>
    have hs : engineRests s → Idles s := fun hr => ⟨hr, (h.rest hr).1, (h.rest hr).2⟩
    refine answers_taken hs ?_
    split
    · exact fun hr => ⟨hr, rfl, fun q => congrArg QueueRec.head (queue_reset q)⟩
    · exact fun hr => (hs hr).congr hr rfl fun _ => rfl
  | pinReset => exact answers_next fun hr => ⟨hr, rfl, fun q => congrArg QueueRec.head (queue_reset q)⟩
  | _ => cases hreset

theorem exec_headsSound (c : Instr) (h : HeadsSound s) (he : EngineSound s) : Answers HeadsSound (exec c s) := by
  intro t ht
  refine headsSound_of_parts (exec_reserve c h.reserve t ht) (exec_unitsSound c h he t ht) fun hr => ?_
  cases hreset : resets c with
  | true => exact exec_reset_idles hreset h t ht hr
  | false =>
    have hs := exec_rests hreset he.setup t ht hr
    exact exec_idles hreset ⟨hs, (h.rest hs).1, (h.rest hs).2⟩ t ht hr

end

/-- Settles O8: reservations and the wait list, the jobs and the control unit, and the block at rest, each across every
operation. -/
theorem headsStaySound : Obligations.HeadsStaySound := fun s t h he hstep => by
  obtain rfl | ⟨c, l, hc⟩ := step_next_cases hstep
  · exact h
  · exact exec_headsSound (s := { s with pending := l }) c { h with } { he with } t hc

end Sys2Proof.Machine
end

section
/-! SUPPORT. Laws of states whose jobs agree with the datapath: what keeps such a law across every command. -/

namespace Sys2Proof.Machine

open Sys2Proof

/-! ### The RUNNING head -/

section

variable {h h' : Head}

theorem activeJob_of_running {pos : Nat} {hd : Header} {j : JobRec} (hj : j.jstate = .running) :
    activeJob (.data pos hd j) = some ⟨.running, j.data, j.claims, j.chainEnt⟩ := by
  simp [activeJob, jobActive, hj]

theorem activeJob_of_starting {pos : Nat} {hd : Header} {j : JobRec} (hj : j.jstate = .starting) :
    activeJob (.data pos hd j) = some ⟨.starting, j.data, j.claims, none⟩ := by
  simp [activeJob, jobActive, hj]

/-- An active job that stays is a job in the same record state, of the same data record and claims. -/
theorem data_of_activeJob {pos : Nat} {hd : Header} {j : JobRec} (he : activeJob h' = activeJob h) (hh : h' = .data pos hd j)
    (ha : jobActive h' = true) : ∃ pos' hd' i, h = .data pos' hd' i ∧ i.jstate = j.jstate ∧ i.data = j.data ∧
      i.claims = j.claims ∧ (j.jstate = .running → i.chainEnt = j.chainEnt) := by
  have ha' : jobActive h = true := by rw [jobActive_eq, ← he, ← jobActive_eq, ha]
  obtain ⟨pos', hd', i, rfl, hi⟩ := (jobActive_iff h).mp ha'
  subst hh
  have hj : j.jstate = .starting ∨ j.jstate = .running := by simpa [jobActive] using ha
  refine ⟨pos', hd', i, rfl, ?_⟩
  obtain hj | hj := hj <;> obtain hi | hi := hi <;>
    simp only [activeJob_of_running, activeJob_of_starting, hj, hi, Option.some.injEq, ActiveJob.mk.injEq] at he ⊢
  · obtain ⟨-, hd, hc, -⟩ := he
    exact ⟨trivial, hd.symm, hc.symm, nofun⟩
  · exact absurd he.1 nofun
  · exact absurd he.1 nofun
  · obtain ⟨-, hd, hc, he⟩ := he
    exact ⟨trivial, hd.symm, hc.symm, fun _ => he.symm⟩

/-- A RUNNING head that keeps its job keeps its context and its chain entry. -/
theorem running_keeps (he : activeJob h' = activeJob h) (hr : headIn .running h' = true) :
    headIn .running h = true ∧ headContext h' = headContext h ∧ heldEntry h' = heldEntry h := by
  obtain ⟨pos, hd, j, rfl, hj⟩ := (headIn_iff _ _).mp hr
  obtain ⟨pos', hd', i, rfl, hi, hdata, -, hent⟩ := data_of_activeJob he rfl (running_active hr)
  refine ⟨(headIn_iff _ _).mpr ⟨_, _, _, rfl, hi.trans hj⟩, ?_, ?_⟩
  · simp only [headContext, headJob, Option.bind_some, hdata]
  · simp only [heldEntry, headJob, Option.bind_some, hent hj]

end

/-! ### Laws of the jobs -/

/-- A law that the guarded updates keep, in states whose jobs agree with the datapath. -/
structure JobLaw (P : State → Prop) : Prop where
  quiet : ∀ {s t : State}, Jobs s → P s → Quiet s t → P t
  claim : ∀ {s : State} {q : Fin 4} {pos : Nat} {hd : Header} {j : JobRec}, Jobs s → P s →
    (∀ k, jobActive (s.queue k).head = false) → (s.queue q).head = .data pos hd j → claimResult s j.data = .granted →
    P (claimedState q pos hd j s)
  fail : ∀ {s : State} {q : Fin 4} {pos : Nat} {hd : Header} {j : JobRec} (st : Status), Jobs s → P s →
    (s.queue q).head = .data pos hd j → j.jstate = .starting → P (failStart q st s)
  run : ∀ {s : State} {q : Fin 4} {pos : Nat} {hd : Header} {j : JobRec} (reads : List ReadChoice), Jobs s → P s →
    (s.queue q).head = .data pos hd j → j.jstate = .starting →
    ((jobContext j.data).isSome = true → j.chainEnt.isSome = true) → P (enterRunning q reads s)
  finish : ∀ {s : State} {pos : Nat} {hd : Header} {j : JobRec}, Jobs s → P s → s.dp.st = .settle →
    (s.queue s.dp.jobq).head = .data pos hd j → j.jstate = .running → P (endedState hd j s)

/-- The jobs agree with the datapath, and the law holds. -/
def Lawful (P : State → Prop) (s : State) : Prop := Jobs s ∧ P s

/-- From `s` to `t` the agreement and the law are kept. -/
def LawKept (P : State → Prop) (s t : State) : Prop := Lawful P s → Lawful P t

namespace JobLaw

variable {P : State → Prop} {s t : State} {q : Fin 4}

theorem kept_quiet (hP : JobLaw P) (h : Quiet s t) : LawKept P s t := fun hs => ⟨hs.1.quiet h, hP.quiet hs.1 hs.2 h⟩

theorem kept_changes (hP : JobLaw P) {F : List Part} (h : Changes F s t) (hF : within F quietParts = true)
    (hq : Part.queues.isIn F = false) : LawKept P s t := hP.kept_quiet (Quiet.of_changes h hF hq)

theorem closed (hP : JobLaw P) : Closed (LawKept P) :=
  closed_of_units (fun _ => id) (fun h h' hs => h' (h hs)) (fun _ h => hP.kept_quiet h)
    (fun st hh hj h => ⟨h.1.failStart hh hj st, hP.fail st h.1 h.2 hh hj⟩)
    (fun reads hh hj hc h => ⟨h.1.enterRunning hh hj reads, hP.run reads h.1 h.2 hh hj hc⟩)
    (fun {s} hst h => by
      obtain ⟨pos, hd, j, hh, hj, heq, hjobs⟩ := h.1.endOfJob hst
      have hended : Lawful P (endedState hd j s) := ⟨hjobs, hP.finish h.1 h.2 hst hh hj⟩
      rw [heq]
      exact hP.kept_changes (checkDrain_changes _) rfl rfl (hP.kept_quiet (endAbort_quiet _ _) hended))

theorem control (hP : JobLaw P) : ControlClosed (LawKept P) (LawKept P) where
  toClosed := hP.closed
  after := fun h h' hs => h' (h hs)
  conclude := fun _ _ _ _ _ => hP.kept_quiet (finishControl_quiet ..)
  park := fun _ => hP.kept_quiet (parkControl_quiet ..)
  busy := fun _ _ _ _ => hP.kept_changes (changes_cu ..) rfl rfl

theorem grantTables (hP : JobLaw P) : ControlClosed.GrantTables (LawKept P) where
  arbiter := fun q s => hP.kept_changes (arbiterMove_changes q s) rfl rfl
  claim := fun _ hnone hh _ hc h => ⟨h.1.claimed hnone, hP.claim h.1 h.2 hnone hh hc⟩

/-- The commands that run operations alone keep a law that the rearm of a snapshot's stream keeps, the datapath's steps, the line
events and the control records. -/
theorem exec_inner (hP : JobLaw P) {c : Instr} (hc : inner c = true)
    (hrearm : ∀ q n a re bs, s.cu.work = some (.snapshot q n a re bs) → LawKept P s (s.setStream n (rearmStream (s.stream n))))
    (hdatapath : ControlClosed.stepsDatapath c = true → Lawful P s → Answers (Lawful P) (exec c s))
    (hline : ∀ p d, (s.port p).due = some d → LawKept P s (takeLineEvent p d s))
    (hcontrol : ∀ q pos hd body, s.cu.work = none → (s.queue q).head = .control pos hd body .controlWait →
      ControlClosed.touchesTables body = true →
      LawKept P (executing q pos hd body s) (executeControl q body (executing q pos hd body s)))
    (hwithdraw : ∀ q pos hd body p j, LawKept P (executing q pos hd body s) (withdrawSlot p j (executing q pos hd body s)))
    (h : Lawful P s) : Answers (Lawful P) (exec c s) := by
  have hother : ∀ t, Changes [.irqPend, .irqMask, .stale] s t → LawKept P s t := fun t hc => hP.kept_changes hc rfl rfl
  have hselect : c = .controlSelect → Answers (LawKept P s) (exec c s) := fun heq => by
    rw [heq]
    refine exec_controlSelect_answers id fun q pos hd body _ hidle hh hs => ?_
    exact hP.control.executeControl (hwithdraw q pos hd body) (by rw [executing_head]; rfl) (hcontrol q pos hd body hidle hh)
      (hP.kept_quiet (executing_quiet hh) hs)
  exact (ControlClosed.exec_inner_of_datapath hP.closed hP.grantTables
    (ControlClosed.unitConcludes (fun _ _ _ _ _ _ => hP.kept_quiet (finishControl_quiet ..))
      (fun _ _ => hP.kept_quiet (parkControl_quiet ..)) (fun _ _ => hP.kept_changes (changes_cu ..) rfl rfl) s)
    hother hc hrearm (fun hd => fun t ht hs => hdatapath hd hs t ht)
    (ControlClosed.exec_portCommand hP.closed.ordinary hline hselect hc)).imp fun _ ht => ht h

end JobLaw

theorem Jobs.dpMoves {s t : State} (h : Jobs s) (hm : DpMoves s t) : Jobs t :=
  have hu := UnitsKeep.dpMoves hm
  h.keep hu.idle hu.jobq fun k => (hu.heads k).job

theorem jobLaw_true : JobLaw (fun _ => True) :=
  ⟨fun _ _ _ => trivial, fun _ _ _ _ _ => trivial, fun _ _ _ _ _ => trivial, fun _ _ _ _ _ _ => trivial,
    fun _ _ _ _ _ => trivial⟩

theorem exec_datapath_jobs {s : State} {c : Instr} (hc : ControlClosed.stepsDatapath c = true) (h : Jobs s) :
    Answers Jobs (exec c s) :=
  (ControlClosed.exec_datapath jobLaw_true.closed.ordinary (fun hm h => ⟨h.1.dpMoves hm, trivial⟩) hc s).imp fun _ ht =>
    (ht ⟨h, trivial⟩).1

theorem records_of_changes {F : List Part} {s t : State} (hc : Changes F s t) (hq : Part.queues.isIn F = false) (k : Fin 4) :
    RecordSteps k (s.queue k).head (t.queue k).head := by
  rw [hc.queue hq]
  exact .inr (.inl rfl)

/-! ### Laws that read the heads, the contexts and the datapath alone -/

/-- The parts that such a law does not read. -/
abbrev freeParts : List Part :=
  [.pending, .eng, .irqPend, .irqMask, .waits, .arbiter, .notices, .cu, .cache, .stopReq, .streams, .store, .ports, .cq, .stale]

section

variable {P : State → Prop} {s t : State}

theorem Jobs.of_changes {F : List Part} (h : Jobs s) (hc : Changes F s t) (hq : Part.queues.isIn F = false)
    (hd : Part.dp.isIn F = false) : Jobs t := h.keep (by rw [hc.dp hd]) (by rw [hc.dp hd]) fun k => by rw [hc.queue hq]

theorem JobLaw.exec_inner_of_free (hP : JobLaw P) (hfree : ∀ {s t : State}, Changes freeParts s t → P s → P t)
    (hclear : ∀ {s : State} (c : Fin 32), P s → (s.context c).held = false → P (s.setContext c Context.unbound)) {c : Instr}
    (hc : inner c = true) (hdatapath : ControlClosed.stepsDatapath c = true → Lawful P s → Answers (Lawful P) (exec c s))
    (h : Lawful P s) : Answers (Lawful P) (exec c s) := by
  have hkept : ∀ {F : List Part} {s t : State}, Changes F s t → within F freeParts = true → LawKept P s t :=
    fun hc hF h => ⟨h.1.of_changes (hc.mono hF) rfl rfl, hfree (hc.mono hF) h.2⟩
  refine hP.exec_inner hc (fun _ _ _ _ _ _ => hkept (changes_setStream ..) rfl) hdatapath (fun p d _ => hP.closed.ordinary.takeLineEvent (fun s n f => hkept (portTake_changes n f s) rfl)
    (fun s n f x => hkept (portAppend_changes n f x s) rfl) (fun s n dir m => hkept (setMirror_changes n dir m s) rfl) d)
    (fun q pos hd body _ _ _ => ?_) (fun _ _ _ _ p j => hkept (withdrawSlot_changes p j _) rfl) h
  refine hP.control.executeControl_of_streams (fun hc => hkept hc rfl) body (by rw [executing_head]; rfl) fun k hk hs => ?_
  exact ⟨hs.1.of_changes (changes_setContext ..) rfl rfl, hclear k hs.2 hk⟩

end

/-! ### The commands outside the blocks -/

section

variable {s : State}

theorem exec_outer_quiet {c : Instr} (hc : inner c = false) (hreset : resets c = false)
    (hsetup : ∀ off a, c ≠ .setupReadAnswer off a) (h : ReserveSound s) : Answers (Quiet s) (exec c s) := by
  have hparts : within (commandParts c) quietParts = true := by
    have hall : (inner c || resets c || within (commandParts c) quietParts) = true := by cases c <;> rfl
    rwa [hc, hreset] at hall
  exact fun t ht => Quiet.of_units (exec_outer_unitsStay hc hreset hsetup h t ht).toUnitsKeep (exec_changes c s t ht) hparts
    fun k => (exec_headsStep c s t ht k).record

/-- An answer of setup leaves the heads, or empties them all. -/
theorem exec_setupReadAnswer_heads (off : Nat) (a : Answer) (s : State) :
    Answers (fun t => (∀ k, (t.queue k).head = (s.queue k).head) ∨ s.eng.setup.isSome = true ∧ ∀ k, (t.queue k).head = .empty)
      (exec (.setupReadAnswer off a) s) := by
  refine answers_taken (.inl fun _ => rfl) ?_
  split
  · exact .inl fun _ => rfl
  case h_2 b hb =>
    split
    · dsimp only
      split
      · unfold setupDone
        split
        · exact .inl fun _ => rfl
        · dsimp only
          split
          · exact .inl fun _ => rfl
          · refine .inr ⟨by rw [hb]; rfl, fun q => ?_⟩
            rw [setupAccept_queue, loadedQueue]
            split <;> rfl
      · exact .inl fun _ => rfl
    · exact .inl fun _ => rfl

/-- Setup finds the heads empty and leaves them so. -/
theorem exec_setupReadAnswer_quiet (off : Nat) (a : Answer) (h : HeadsSound s) (he : SetupSound s) :
    Answers (Quiet s) (exec (.setupReadAnswer off a) s) := fun t ht => by
  refine ⟨(exec_changes _ s t ht).mono rfl, fun k => ?_, fun k => (exec_headsStep _ s t ht k).record⟩
  obtain hk | ⟨hsetup, hk⟩ := exec_setupReadAnswer_heads off a s t ht
  · rw [hk k]
  · rw [hk k, (h.rest (.inr (he.mp hsetup))).2 k]

theorem JobLaw.exec_setup {P : State → Prop} (hP : JobLaw P) (h : HeadsSound s) (he : SetupSound s) (hs : P s) (off : Nat)
    (a : Answer) : Answers P (exec (.setupReadAnswer off a) s) :=
  (exec_setupReadAnswer_quiet off a h he).imp fun _ ht => hP.quiet h.jobs hs ht

/-- A law is kept by every command that does not reset, where setup keeps it. -/
theorem JobLaw.exec {P : State → Prop} (hP : JobLaw P) (h : HeadsSound s) (hs : P s) {c : Instr} (hreset : resets c = false)
    (hsetup : ∀ off a, Answers P (exec (.setupReadAnswer off a) s))
    (hinner : inner c = true → Answers (Lawful P) (exec c s)) : Answers P (exec c s) := by
  cases hc : inner c with
  | true => exact (hinner hc).imp fun t ht => ht.2
  | false =>
    by_cases hoff : ∃ off a, c = .setupReadAnswer off a
    · obtain ⟨off, a, rfl⟩ := hoff
      exact hsetup off a
    · exact (exec_outer_quiet hc hreset (fun off a heq => hoff ⟨off, a, heq⟩) h.reserve).imp fun t ht => hP.quiet h.jobs hs ht

end

end Sys2Proof.Machine
end

section
/-! SUPPORT. HELD on exactly the context of the RUNNING job under every command (R116, R118, R119, R122, R124). -/

namespace Sys2Proof.Machine

open Sys2Proof

/-! ### The contexts and entries of RUNNING heads -/

/-- The context and the chain entry of the RUNNING job of a head. -/
def runUse (h : Head) : Option (Option (Fin 32) × Option (Fin 8)) :=
  if headIn .running h = true then some (headContext h, heldEntry h) else none

section

variable {h h' : Head} {s t : State} {q : Fin 4} {c : Fin 32}

theorem runUse_of_not_running (hr : headIn .running h = false) : runUse h = none := if_neg (by rw [hr]; nofun)

theorem runUse_of_inactive (ha : jobActive h = false) : runUse h = none := runUse_of_not_running (not_running_of_inactive ha)

theorem runUse_of_running {pos : Nat} {hd : Header} {j : JobRec} (hj : j.jstate = .running) :
    runUse (.data pos hd j) = some (jobContext j.data, j.chainEnt) := if_pos ((headIn_iff _ _).mpr ⟨pos, hd, j, rfl, hj⟩)

theorem runUse_congr (he : activeJob h' = activeJob h) : runUse h' = runUse h := by
  cases hr : headIn .running h' with
  | false =>
    have hr' : headIn .running h = false := by rw [headIn_running_eq, ← he, ← headIn_running_eq, hr]
    rw [runUse_of_not_running hr, runUse_of_not_running hr']
  | true =>
    obtain ⟨hr', hc, hent⟩ := running_keeps he hr
    rw [runUse, runUse, if_pos hr, if_pos hr', hc, hent]

/-- A RUNNING job of the block has the context. -/
def Runs (s : State) (c : Fin 32) : Prop := ∃ q e, runUse (s.queue q).head = some (some c, e)

theorem runs_iff (s : State) (c : Fin 32) :
    Runs s c ↔ ∃ q : Fin 4, headIn .running (s.queue q).head = true ∧ headContext (s.queue q).head = some c := by
  refine ⟨fun ⟨q, e, h⟩ => ⟨q, ?_⟩, fun ⟨q, hr, hc⟩ => ⟨q, _, by rw [runUse, if_pos hr, hc]⟩⟩
  unfold runUse at h
  split at h
  case isTrue hr => exact ⟨hr, congrArg Prod.fst (Option.some.inj h)⟩
  case isFalse => cases h

theorem contextsSound_iff (s : State) : ContextsSound s ↔ (∀ c, (s.context c).held = true ↔ Runs s c) ∧
    (∀ c, (s.context c).binding = none → (s.context c).sstate = bqZero) ∧
    ∀ q c e, runUse (s.queue q).head = some (some c, e) → e.isSome = true := by
  refine ⟨fun h => ⟨fun c => (h.held c).trans (runs_iff s c).symm, h.unbound, fun q c e hu => ?_⟩,
    fun ⟨hheld, hunbound, hchained⟩ => ⟨fun c => (hheld c).trans (runs_iff s c), hunbound, fun q hr hc => ?_⟩⟩
  · unfold runUse at hu
    split at hu
    case isTrue hr =>
      obtain ⟨hc, rfl⟩ := Prod.mk.inj (Option.some.inj hu)
      exact h.chained q hr (by rw [hc]; rfl)
    case isFalse => cases hu
  · obtain ⟨c, hc⟩ := Option.isSome_iff_exists.mp hc
    exact hchained q c _ (by rw [runUse, if_pos hr, hc])

theorem ContextsSound.congr (h : ContextsSound s) (hruns : ∀ k, runUse (t.queue k).head = runUse (s.queue k).head)
    (hcontext : ∀ c, t.context c = s.context c) : ContextsSound t := by
  rw [contextsSound_iff] at h ⊢
  obtain ⟨hheld, hunbound, hchained⟩ := h
  refine ⟨fun c => ?_, fun c => by rw [hcontext]; exact hunbound c, fun q c e hu => hchained q c e (by rw [← hruns, hu])⟩
  rw [hcontext, hheld c]
  simp only [Runs, hruns]

/-- While no job runs, no context is HELD. -/
theorem contextsSound_of_none (hruns : ∀ k, runUse (s.queue k).head = none) (hheld : ∀ c, (s.context c).held = false)
    (hunbound : ∀ c, (s.context c).binding = none → (s.context c).sstate = bqZero) : ContextsSound s :=
  (contextsSound_iff s).mpr ⟨fun c => ⟨fun h => absurd ((hheld c).symm.trans h) nofun, fun ⟨q, e, h⟩ => by
    rw [hruns q] at h
    cases h⟩, hunbound, fun q c e h => by
    rw [hruns q] at h
    cases h⟩

theorem ContextsSound.not_held (h : ContextsSound s) (hruns : ∀ k, runUse (s.queue k).head = none) (c : Fin 32) :
    (s.context c).held = false := by
  refine Bool.eq_false_iff.mpr fun hc => ?_
  obtain ⟨q, e, hu⟩ := ((contextsSound_iff s).mp h).1 c |>.mp hc
  rw [hruns q] at hu
  cases hu

/-- A head that does not run leaves. -/
theorem ContextsSound.drop (h : ContextsSound s) (hd : Drops q s t) (hr : headIn .running (s.queue q).head = false)
    (hcontext : ∀ c, t.context c = s.context c) : ContextsSound t := h.congr (fun k => by
  by_cases hk : k = q
  · subst hk
    rw [runUse_of_inactive hd.active, runUse_of_not_running hr]
  · rw [hd.others k hk]) hcontext

end

/-! ### The context of a job that starts and of one that ends -/

section

variable {s : State} {q : Fin 4} {j : JobRec}

theorem holdContext_context (j : JobRec) (s : State) (c : Fin 32) : (holdContext j s).context c =
    if jobContext j.data = some c then { s.context c with held := true } else s.context c := by
  unfold holdContext
  cases hj : jobContext j.data with
  | none => rfl
  | some k =>
    by_cases hc : c = k
    · subst hc
      rw [if_pos rfl, State.context_setContext_self]
    · rw [if_neg fun h => hc (Option.some.inj h).symm, State.context_setContext_ne _ _ hc]

theorem endContext_context (j : JobRec) (dp : Datapath) (u : State) (c : Fin 32) : (endContext j dp u).context c =
    if jobContext j.data = some c then
      if dp.endStat = .ok then { binding := jobChain u j, sstate := dp.bq, held := false } else { u.context c with held := false }
    else u.context c := by
  cases hj : jobContext j.data with
  | none =>
    rw [endContext_of_none hj]
    rfl
  | some k =>
    by_cases hok : dp.endStat = .ok
    · rw [endContext_of_ok hj hok]
      by_cases hc : c = k
      · subst hc
        rw [if_pos rfl, if_pos hok, State.context_setContext_self]
      · rw [if_neg fun h => hc (Option.some.inj h).symm, State.context_setContext_ne _ _ hc]
    · rw [endContext_of_not_ok hj hok]
      by_cases hc : c = k
      · subst hc
        rw [if_pos rfl, if_neg hok, State.context_setContext_self]
      · rw [if_neg fun h => hc (Option.some.inj h).symm, State.context_setContext_ne _ _ hc]

theorem enterRunning_context {pos : Nat} {hd : Header} (hh : (s.queue q).head = .data pos hd j) (reads : List ReadChoice)
    (c : Fin 32) : (enterRunning q reads s).context c = (holdContext j s).context c := by
  rw [enterRunning_of_data hh, (issueReads_changes ..).context rfl, (loadDelay_changes _).context rfl]
  rfl

theorem endedState_context (hd : Header) (j : JobRec) (s : State) (c : Fin 32) : ∃ u : State, (∀ k, u.context k = s.context k) ∧
    (endedState hd j s).context c = (endContext j s.dp u).context c := by
  refine ⟨endStreams j s.dp { s with dp := Datapath.idle, stopReq := false }, fun k => (endStreams_changes ..).context rfl k, ?_⟩
  rw [(endedState_changes hd j s).context rfl, releasedState, (useEndOf_changes ..).context rfl]

/-- A job enters RUNNING: its context alone is HELD, and it holds its chain entry. -/
theorem ContextsSound.enterRunning {pos : Nat} {hd : Header} (h : ContextsSound s) (hjobs : Jobs s)
    (hh : (s.queue q).head = .data pos hd j) (hj : j.jstate = .starting) (reads : List ReadChoice)
    (hchain : (jobContext j.data).isSome = true → j.chainEnt.isSome = true) : ContextsSound (enterRunning q reads s) := by
  have hnone : ∀ k, runUse (s.queue k).head = none := fun k => by
    by_cases hk : k = q
    · subst hk
      exact runUse_of_not_running (not_running_of_starting ((headIn_iff _ _).mpr ⟨pos, hd, j, hh, hj⟩))
    · exact runUse_of_inactive (hjobs.only_of_starting hh hj hk)
  have hself : runUse ((Machine.enterRunning q reads s).queue q).head = some (jobContext j.data, j.chainEnt) := by
    rw [(enterRunning_facts hh reads).1, runUse_of_running rfl]
    rfl
  have honly : ∀ k x, runUse ((Machine.enterRunning q reads s).queue k).head = some x → x = (jobContext j.data, j.chainEnt) :=
    fun k x hx => by
      by_cases hk : k = q
      · subst hk
        exact Option.some.inj (hx.symm.trans hself)
      · rw [enterRunning_queue_ne reads s hk, hnone k] at hx
        cases hx
  refine (contextsSound_iff _).mpr ⟨fun c => ?_, fun c => ?_, fun k c e hu => ?_⟩
  · rw [enterRunning_context hh, holdContext_context]
    split
    case isTrue hc => exact ⟨fun _ => ⟨q, _, by rw [hself, hc]⟩, fun _ => rfl⟩
    case isFalse hc =>
      rw [h.not_held hnone]
      exact ⟨nofun, fun ⟨k, e, hu⟩ => absurd (congrArg Prod.fst (honly k _ hu)).symm hc⟩
  · rw [enterRunning_context hh, holdContext_context]
    split
    · exact h.unbound c
    · exact h.unbound c
  · obtain ⟨hc, rfl⟩ := Prod.mk.inj (honly k _ hu)
    exact hchain (by rw [← hc]; rfl)

/-- A job ends: its context is let go, and names its chain after an OK end. -/
theorem ContextsSound.endedState {pos : Nat} {hd : Header} (h : ContextsSound s) (hjobs : Jobs s)
    (hh : (s.queue s.dp.jobq).head = .data pos hd j) (hj : j.jstate = .running) : ContextsSound (endedState hd j s) := by
  have hrun : runUse (s.queue s.dp.jobq).head = some (jobContext j.data, j.chainEnt) := by rw [hh, runUse_of_running hj]
  have hother : ∀ k, k ≠ s.dp.jobq → runUse (s.queue k).head = none := fun k hk => runUse_of_not_running
    (Bool.eq_false_iff.mpr fun hr => hk ((hjobs.running k).mp hr).2.symm)
  obtain ⟨hheld, -, hchained⟩ := (contextsSound_iff s).mp h
  have hdrop := endedState_drops hd j s
  refine contextsSound_of_none (fun k => ?_) (fun c => ?_) fun c hb => ?_
  · by_cases hk : k = s.dp.jobq
    · subst hk
      exact runUse_of_inactive hdrop.active
    · rw [hdrop.others k hk, hother k hk]
  · obtain ⟨u, hu, heq⟩ := endedState_context hd j s c
    rw [heq, endContext_context]
    split
    · split <;> rfl
    case isFalse hc =>
      rw [hu, Bool.eq_false_iff]
      intro hcon
      obtain ⟨k, e, hk⟩ := (hheld c).mp hcon
      by_cases hkq : k = s.dp.jobq
      · subst hkq
        exact hc (congrArg Prod.fst (Option.some.inj (hrun.symm.trans hk)))
      · rw [hother k hkq] at hk
        cases hk
  · obtain ⟨u, hu, heq⟩ := endedState_context hd j s c
    rw [heq, endContext_context] at hb ⊢
    split
    case isTrue hc =>
      rw [if_pos hc] at hb
      obtain ⟨e, he⟩ := Option.isSome_iff_exists.mp (hchained s.dp.jobq c j.chainEnt (by rw [hrun, hc]))
      split
      case isTrue hok =>
        rw [if_pos hok, jobChain, he] at hb
        cases hb
      case isFalse hno =>
        rw [if_neg hno, hu] at hb
        rw [hu]
        exact h.unbound c hb
    case isFalse hc =>
      rw [if_neg hc, hu] at hb
      rw [hu]
      exact h.unbound c hb

theorem ContextsSound.clear (h : ContextsSound s) (c : Fin 32) (hc : (s.context c).held = false) :
    ContextsSound (s.setContext c Context.unbound) := by
  obtain ⟨hheld, hunbound, hchained⟩ := (contextsSound_iff s).mp h
  refine (contextsSound_iff _).mpr ⟨fun k => ?_, fun k => ?_, hchained⟩
  · by_cases hk : k = c
    · subst hk
      rw [State.context_setContext_self]
      exact ⟨nofun, fun hr => absurd (hc.symm.trans ((hheld k).mpr hr)) nofun⟩
    · rw [State.context_setContext_ne _ _ hk]
      exact hheld k
  · by_cases hk : k = c
    · subst hk
      rw [State.context_setContext_self]
      exact fun _ => rfl
    · rw [State.context_setContext_ne _ _ hk]
      exact hunbound k

end

/-! ### The law across every command -/

theorem jobLaw_contexts : JobLaw ContextsSound where
  quiet := fun _ h hq => h.congr (fun k => runUse_congr (hq.jobs k)) (hq.parts.context rfl)
  claim := fun {s q pos hd j} _ h hnone hh _ => by
    refine h.congr (fun k => ?_) ((claimedState_changes q pos hd j s).context rfl)
    rw [runUse_of_inactive (hnone k)]
    by_cases hk : k = q
    · subst hk
      rw [claimedState_head]
      rfl
    · rw [claimedState_queue_ne hk, runUse_of_inactive (hnone k)]
  fail := fun {s q pos hd j} st _ h hh hj => h.drop (failStart_drops st hh)
    (not_running_of_starting ((headIn_iff _ _).mpr ⟨pos, hd, j, hh, hj⟩)) ((failStart_changes q st s).context rfl)
  run := fun {s q pos hd j} reads hjobs h hh hj hchain => h.enterRunning hjobs hh hj reads hchain
  finish := fun {s pos hd j} hjobs h _ hh hj => h.endedState hjobs hh hj

theorem exec_contextsSound {s : State} (c : Instr) (h : HeadsSound s) (he : EngineSound s) (hs : ContextsSound s) :
    Answers ContextsSound (exec c s) := by
  cases hreset : resets c with
  | true =>
    cases c with
    | clear =>
      refine answers_taken hs ?_
      split
      · exact contextsSound_reset.congr (fun _ => rfl) fun _ => rfl
      · exact hs.congr (fun _ => rfl) fun _ => rfl
    | pinReset => exact answers_next (contextsSound_reset.congr (fun _ => rfl) fun _ => rfl)
    | _ => cases hreset
  | false =>
    refine jobLaw_contexts.exec h hs hreset (jobLaw_contexts.exec_setup h he.setup hs) fun hc =>
      jobLaw_contexts.exec_inner_of_free
      (fun hc h => h.congr (fun k => by rw [hc.queue rfl]) (hc.context rfl)) (fun k h hk => ?_) hc (fun hd _ => ?_) ⟨h.jobs, hs⟩
    · exact h.clear k hk
    · refine (ControlClosed.exec_datapath jobLaw_contexts.closed.ordinary (fun hm h => ⟨h.1.dpMoves hm, ?_⟩) hd s).imp fun t ht => ht ⟨h.jobs, hs⟩
      exact h.2.congr (fun k => by rw [hm.parts.queue rfl]) (hm.parts.context rfl)

/-- Settles O13: the context of a job that enters RUNNING and of one that ends, and the records that clear a context. -/
theorem contextsStaySound : Obligations.ContextsStaySound := fun s t h he hs hstep => by
  obtain rfl | ⟨c, l, hc⟩ := step_next_cases hstep
  · exact hs
  · exact exec_contextsSound (s := { s with pending := l }) c { h with } { he with } { hs with } t hc

end Sys2Proof.Machine
end

section
/-! SUPPORT. The data records that heads hold passed their decode checks (R51), under every operation. -/

namespace Sys2Proof.Machine

open Sys2Proof

/-! ### What decodes as a data record -/

/-- A data record within its ranges. -/
def DataRec.Fits (d : DataRec) : Prop :=
  1 ≤ d.n ∧ d.n ≤ 1024 ∧ 1 ≤ d.inputs.length ∧ d.inputs.length ≤ 4 ∧ (streamInputs d).Nodup

theorem streamInputs_nodup {d : DataRec} (h : d.inputs.Nodup) : (streamInputs d).Nodup := by
  refine h.filterMap fun e e' n he he' => ?_
  rw [Option.mem_def, endpointStream_eq_some_iff] at he he'
  rw [he, he']

theorem blockOk_iff (n : Nat) : blockOk n = true ↔ 1 ≤ n ∧ n ≤ 1024 := by
  simp only [blockOk, Bool.and_eq_true, decide_eq_true_iff]

theorem fits_of_decodeFilter {bs : List Byte} {monitor : Bool} {d : DataRec} (h : decodeFilter bs monitor = some d) : d.Fits := by
  obtain ⟨hn, i, o, context, -, -, -, -, -, -, rfl⟩ := (decodeFilter_eq_some_iff bs monitor d).mp h
  obtain ⟨hlow, hhigh⟩ := (blockOk_iff _).mp hn
  exact ⟨hlow, hhigh, Nat.le_refl 1, by simp [filterRec], streamInputs_nodup (List.nodup_singleton i)⟩

theorem fits_of_decodeMix {bs : List Byte} {monitor : Bool} {d : DataRec} (h : decodeMix bs monitor = some d) : d.Fits := by
  obtain ⟨hone, hfour, hn, inputs, o, hmap, -, -, -, hnodup, rfl⟩ := (decodeMix_eq_some_iff bs monitor d).mp h
  obtain ⟨hlow, hhigh⟩ := (blockOk_iff _).mp hn
  have hlen : inputs.length = num8 bs 0x08 := by simpa using (congrArg List.length hmap).symm
  exact ⟨hlow, hhigh, hlen ▸ hone, hlen ▸ hfour, streamInputs_nodup hnodup⟩

theorem fits_of_decodeBody {q : Fin 4} {bs : List Byte} {d : DataRec} (hb : decodeBody q bs = some (.data d)) : d.Fits := by
  unfold decodeBody at hb
  dsimp only at hb
  split at hb
  case h_1 =>
    obtain ⟨d', hd, ⟨⟩⟩ := Option.map_eq_some_iff.mp hb
    exact fits_of_decodeFilter hd
  case h_2 =>
    obtain ⟨d', hd, ⟨⟩⟩ := Option.map_eq_some_iff.mp hb
    exact fits_of_decodeMix hd
  all_goals simp at hb

/-! ### The heads' data records -/

section

variable {s t : State} {q : Fin 4}

theorem dataFits_iff (h : Head) : dataFits h ↔ ∀ d, heldRecord h = some (.inl d) → d.Fits := by
  cases h with
  | data pos hd j => exact ⟨fun hf d hd => by cases hd; exact hf, fun hf => hf _ rfl⟩
  | _ => exact ⟨fun _ _ => nofun, fun _ => trivial⟩

theorem fits_of_decodedRecord {bytes : List Byte} {d : DataRec} (hd : decodedRecord q bytes = some (.inl d)) : d.Fits := by
  rw [decodedRecord] at hd
  obtain ⟨b, hb, hrec⟩ := Option.map_eq_some_iff.mp hd
  cases b with
  | data d' =>
    cases hrec
    exact fits_of_decodeBody hb
  | control c => cases hrec

theorem RecordSteps.dataFits {h h' : Head} (hr : RecordSteps q h h') (hf : dataFits h) : dataFits h' := by
  rw [dataFits_iff] at hf ⊢
  intro d hd
  obtain hnone | hsame | ⟨bytes, hdec⟩ := hr
  · rw [hnone] at hd
    cases hd
  · exact hf d (hsame ▸ hd)
  · exact fits_of_decodedRecord (hdec ▸ hd)

theorem DataSound.records (h : DataSound s) (hr : ∀ k, RecordSteps k (s.queue k).head (t.queue k).head) : DataSound t :=
  fun k => (hr k).dataFits (h k)

theorem DataSound.moves (h : DataSound s) (hm : Moves s t) : DataSound t := h.records hm.toLooseMoves.records

theorem DataSound.fits (h : DataSound s) {pos : Nat} {hd : Header} {j : JobRec} (hh : (s.queue q).head = .data pos hd j) :
    j.data.Fits := by
  have hq := h q
  rw [hh] at hq
  exact hq

theorem exec_dataSound (c : Instr) (h : DataSound s) : Answers DataSound (exec c s) :=
  (exec_headsStep c s).imp fun _ ht => h.records fun k => (ht k).record

/-- A law that the guarded updates keep where the data records are within their ranges, is a law together with that. -/
theorem jobLaw_of_data {P : State → Prop}
    (quiet : ∀ {s t : State}, Jobs s → DataSound s → P s → Quiet s t → P t)
    (claim : ∀ {s : State} {q : Fin 4} {pos : Nat} {hd : Header} {j : JobRec}, Jobs s → DataSound s → P s →
      (∀ k, jobActive (s.queue k).head = false) → (s.queue q).head = .data pos hd j → claimResult s j.data = .granted →
      P (claimedState q pos hd j s))
    (fail : ∀ {s : State} {q : Fin 4} {pos : Nat} {hd : Header} {j : JobRec} (st : Status), Jobs s → DataSound s → P s →
      (s.queue q).head = .data pos hd j → j.jstate = .starting → P (failStart q st s))
    (run : ∀ {s : State} {q : Fin 4} {pos : Nat} {hd : Header} {j : JobRec} (reads : List ReadChoice), Jobs s → DataSound s → P s →
      (s.queue q).head = .data pos hd j → j.jstate = .starting → P (enterRunning q reads s))
    (finish : ∀ {s : State} {pos : Nat} {hd : Header} {j : JobRec}, Jobs s → DataSound s → P s → s.dp.st = .settle →
      (s.queue s.dp.jobq).head = .data pos hd j → j.jstate = .running → P (endedState hd j s)) :
    JobLaw (fun s => DataSound s ∧ P s) where
  quiet := fun hj h hq => ⟨h.1.records hq.records, quiet hj h.1 h.2 hq⟩
  claim := fun {s q pos hd j} hj h hnone hh hc => by
    refine ⟨h.1.records fun k => ?_, claim hj h.1 h.2 hnone hh hc⟩
    by_cases hk : k = q
    · subst hk
      rw [claimedState_head, hh]
      exact .inr (.inl rfl)
    · rw [claimedState_queue_ne hk]
      exact .inr (.inl rfl)
  fail := fun st hj h hh hstart => ⟨h.1.moves (failStart_moves ..), fail st hj h.1 h.2 hh hstart⟩
  run := fun reads hj h hh hstart _ => ⟨h.1.moves (enterRunning_moves reads hh), run reads hj h.1 h.2 hh hstart⟩
  finish := fun {s pos hd j} hj h hst hh hrun => by
    have hm : LooseMoves (releasedState j s) (endedState hd j s) := completeHead_loose ..
    refine ⟨h.1.records fun k => ?_, finish hj h.1 h.2 hst hh hrun⟩
    rw [← (releasedState_changes j s).queue rfl]
    exact hm.records k

end

end Sys2Proof.Machine
end

section
/-! SUPPORT. The datapath in step with its job under every command (R95, R97, R109 to R115). -/

namespace Sys2Proof.Machine

open Sys2Proof

/-! ### The progress of a job -/

/-- What a computing record holds once a sample is handed on: what it holds before, and possibly the last sample computed. -/
structure Progress (dp : Datapath) (d : DataRec) : Prop where
  noEnd : dp.endStat = .none ∧ dp.trapAt = none
  next : dp.next ≤ d.n
  finished : dp.finished + dp.gather.length = dp.next
  gather : dp.gather.length ≤ Config.gatherMax
  inputs : dp.inputs.length = d.inputs.length
  streamOutput : endpointStream d.output ≠ none → dp.gather = []
  clips : dp.gather = [] → dp.clipsDone = dp.clips

/-- What a record holds once the end is taken, accesses outstanding or not. -/
structure Ended (dp : Datapath) (d : DataRec) : Prop where
  ended : dp.endStat ≠ .none
  gather : dp.gather = []
  clips : dp.clipsDone = dp.clips
  finished : dp.finished ≤ d.n
  whole : dp.endStat = .ok → dp.finished = d.n

/-- A record in COMPUTE or in SETTLE, in step with its job but for the accesses outstanding. -/
def InStep (dp : Datapath) (d : DataRec) : Prop :=
  dp.st = .compute ∧ ComputeSound dp d ∨ dp.st = .settle ∧ Ended dp d

section

variable {dp : Datapath} {d : DataRec}

theorem ComputeSound.progress (h : ComputeSound dp d) : Progress dp d :=
  ⟨h.noEnd, Nat.le_of_lt h.next, h.finished, h.gather, h.inputs, h.streamOutput, h.clips⟩

theorem Progress.compute (h : Progress dp d) (hn : dp.next < d.n) : ComputeSound dp d :=
  ⟨h.noEnd, hn, h.finished, h.gather, h.inputs, h.streamOutput, h.clips⟩

theorem Ended.settle (h : Ended dp d) (hbusy : dp.reads ≠ [] ∨ dp.writes ≠ []) : SettleSound dp d :=
  ⟨h.ended, h.gather, h.clips, hbusy, h.finished, h.whole⟩

theorem SettleSound.toEnded (h : SettleSound dp d) : Ended dp d := ⟨h.ended, h.gather, h.clips, h.finished, h.whole⟩

theorem Progress.finished_le (h : Progress dp d) : dp.finished ≤ d.n := by
  have := h.finished
  have := h.next
  omega

/-! #### GATHER -/

theorem finishSamples_finished (monitor : Bool) (thresh : Nat) (ys : List Sample) (dp : Datapath) :
    (finishSamples monitor thresh ys dp).finished = dp.finished + ys.length := by
  induction ys generalizing dp with
  | nil => rfl
  | cons y ys ih =>
    have hone : (finishSample monitor thresh dp y).finished = dp.finished + 1 := by
      unfold finishSample
      split <;> rfl
    rw [finishSamples, ih, hone, List.length_cons]
    omega

theorem Progress.issueGather (h : Progress dp d) : Progress (issueGather d dp) d ∧ (issueGather d dp).gather = [] := by
  cases ho : d.output with
  | stream n =>
    rw [issueGather_of_stream ho]
    exact ⟨h, h.streamOutput (by rw [ho]; exact nofun)⟩
  | memory b =>
    refine ⟨?_, issueGather_gather ho dp⟩
    by_cases hg : dp.gather = []
    · rw [issueGather_of_empty hg]
      exact h
    · have hcount := finishSamples_finished d.monitor d.thresh dp.gather { dp with
        gather := []
        clipsDone := dp.clips
        writes := dp.writes ++ [{ addr := b.toNat + 2 * dp.finished, data := dp.gather }] }
      rw [issueGather_of_memory ho hg, finishSamples_eq]
      exact ⟨h.noEnd, h.next, (congrArg (· + 0) hcount).trans h.finished, Nat.zero_le _, h.inputs, fun _ => rfl, fun _ => rfl⟩

/-- The end that is taken with GATHER issued. -/
theorem Progress.takeEnd (h : Progress dp d) (hg : dp.gather = []) {st : EndStat} (hst : st ≠ .none)
    (hok : st = .ok → dp.next = d.n) : Ended (takeEnd st dp) d := by
  have hfinished : dp.finished = dp.next := by rw [← h.finished, hg]; rfl
  exact ⟨hst, hg, h.clips hg, h.finished_le, fun heq => hfinished.trans (hok heq)⟩

theorem ComputeSound.issueGather (h : ComputeSound dp d) : ComputeSound (issueGather d dp) d :=
  h.progress.issueGather.1.compute (by rw [(issueGather_keeps d dp).2.2]; exact h.next)

/-- An error end discards GATHER. -/
theorem ComputeSound.busErrorEnd (h : ComputeSound dp d) : Ended (busErrorEnd dp) d :=
  ⟨nofun, rfl, rfl, h.progress.finished_le, nofun⟩

theorem ComputeSound.stopEnd (h : ComputeSound dp d) : Ended (stopEnd d dp) d :=
  h.progress.issueGather.1.takeEnd h.progress.issueGather.2 nofun nofun

end

/-! ### Steps of a computing job -/

section

variable {s : State} {j : JobRec}

/-- The state's datapath holds the job, in step with it. -/
def Holds (s : State) (j : JobRec) : Prop := runningJob s = some j ∧ InStep s.dp j.data

theorem issueRead_inputs_length (regions : List (Option (Nat × Nat))) (dp : Datapath) (c : ReadChoice) :
    (issueRead regions dp c).inputs.length = dp.inputs.length := by
  unfold issueRead
  split
  · dsimp only
    split
    · rfl
    · exact List.length_set ..
  · rfl

theorem foldl_issueRead_inputs_length (regions : List (Option (Nat × Nat))) (l : List ReadChoice) (dp : Datapath) :
    (l.foldl (issueRead regions) dp).inputs.length = dp.inputs.length := by
  induction l generalizing dp with
  | nil => rfl
  | cons c l ih => rw [List.foldl_cons, ih, issueRead_inputs_length]

theorem issueReads_inputs_length (reads : List ReadChoice) (s : State) :
    (issueReads reads s).dp.inputs.length = s.dp.inputs.length := by
  unfold issueReads
  split
  · split
    · exact foldl_issueRead_inputs_length ..
    · rfl
  · rfl

/-- The state computes a job in step. -/
structure Computing (s : State) (j : JobRec) : Prop where
  job : runningJob s = some j
  state : s.dp.st = .compute
  sound : ComputeSound s.dp j.data

theorem Computing.holds (h : Computing s j) : Holds s j := ⟨h.job, .inl ⟨h.state, h.sound⟩⟩

theorem Computing.issueReads (h : Computing s j) (reads : List ReadChoice) : Computing (issueReads reads s) j := by
  have hinputs := (issueReads_inputs_length reads s).trans h.sound.inputs
  refine ⟨(runningJob_issueReads reads s).trans h.job, ?_, ?_⟩
  · rw [issueReads_eq]
    exact h.state
  · rw [issueReads_eq]
    exact { h.sound with inputs := hinputs }

theorem runningJob_dp {d : Datapath} (hq : d.jobq = s.dp.jobq) : runningJob { s with dp := d } = runningJob s := by
  unfold runningJob
  rw [hq]
  rfl

theorem Computing.pushGather (h : Computing s j) : Computing (pushGather j s) j := by
  unfold Machine.pushGather
  split
  · obtain ⟨hst, hq, -⟩ := issueGather_keeps j.data s.dp
    exact ⟨(runningJob_dp hq).trans h.job, hst.trans h.state, h.sound.issueGather⟩
  · exact h

theorem Computing.loadDelay (h : Computing s j) : Computing (loadDelay s) j := by
  unfold Machine.loadDelay
  rw [h.job]
  exact ⟨h.job, h.state, { h.sound with }⟩

/-- The words of an answer. -/
theorem Computing.takeWords (h : Computing s j) (r : DpRead) (data : List Byte) (reads : List ReadChoice) :
    Computing (takeWords r data reads s) j := by
  have hlen : (addWords s.dp.inputs r data).length = s.dp.inputs.length := by
    unfold addWords
    split
    · exact List.length_set ..
    · rfl
  have hadd : Computing { s with dp := { s.dp with inputs := addWords s.dp.inputs r data } } j :=
    ⟨h.job, h.state, { h.sound with inputs := hlen.trans h.sound.inputs }⟩
  have hload : Computing (if s.dp.next = 0 then Machine.loadDelay { s with dp := { s.dp with inputs := addWords s.dp.inputs r data } }
      else { s with dp := { s.dp with inputs := addWords s.dp.inputs r data } }) j := by
    split
    · exact hadd.loadDelay
    · exact hadd
  unfold Machine.takeWords
  dsimp only
  split
  case h_1 i hi =>
    obtain rfl := Option.some.inj (hload.job.symm.trans hi)
    exact hload.pushGather.issueReads reads
  case h_2 hi => exact absurd (hload.job.symm.trans hi) nofun

/-- A sample handed on. -/
theorem Computing.handOn (h : Computing s j) (hd : gatherDue j.data s.dp = false) (xs : List Sample) (y : Sample)
    (bq : Vector BqState 6) (clips : Nat) :
    runningJob (handOn j s.dp.next y { s with dp := advanceDp s j xs bq clips }) = some j ∧
      (handOn j s.dp.next y { s with dp := advanceDp s j xs bq clips }).dp.st = .compute ∧
      Progress (handOn j s.dp.next y { s with dp := advanceDp s j xs bq clips }).dp j.data := by
  have hnext := h.sound.next
  have hcount := h.sound.finished
  unfold Machine.handOn
  cases ho : j.data.output with
  | stream n =>
    have hg : s.dp.gather = [] := h.sound.streamOutput (by rw [ho]; exact nofun)
    have hone : (finishSample j.data.monitor j.data.thresh
        { advanceDp s j xs bq clips with clipsDone := (advanceDp s j xs bq clips).clips } y).finished = s.dp.next + 1 := by
      rw [hg] at hcount
      refine (finishSamples_finished _ _ [y] _).trans ?_
      simpa [advanceDp] using hcount
    dsimp only
    rw [finishSample_eq]
    refine ⟨h.job, h.state, h.sound.noEnd, hnext, ?_, h.sound.gather, h.sound.inputs, fun _ => hg, fun _ => rfl⟩
    rw [hone]
    exact congrArg (fun l => s.dp.next + 1 + l) (congrArg List.length hg)
  | memory b =>
    refine ⟨h.job, h.state, h.sound.noEnd, hnext, ?_, ?_, h.sound.inputs, fun hno => ?_, fun hempty => ?_⟩
    · simp only [advanceDp, List.length_append, List.length_singleton]
      omega
    · have hmax : Config.gatherMax = 16 := rfl
      have hle := h.sound.gather
      have hfull : ¬ (s.dp.gather ≠ [] ∧ s.dp.gather.length = 16) := fun hf => by
        rw [(gatherDue_of_memory ho).mpr ⟨hf.1, .inl hf.2⟩] at hd
        cases hd
      simp only [advanceDp, List.length_append, List.length_singleton]
      rw [hmax] at hle ⊢
      by_cases hg : s.dp.gather = []
      · simp [hg]
      · have hne : s.dp.gather.length ≠ 16 := fun hl => hfull ⟨hg, hl⟩
        omega
    · rw [ho] at hno
      exact absurd rfl hno
    · simp [advanceDp] at hempty

theorem Computing.computeNext (h : Computing s j) : Holds (computeNext j s) j := by
  unfold Machine.computeNext
  split
  · exact h.holds
  case isFalse hgo =>
    rw [Bool.or_eq_true, not_or, Bool.not_eq_true] at hgo
    split
    · exact h.holds
    case h_2 xs _ =>
      have hissued := h.sound.progress.issueGather
      split
      case h_1 stage _ =>
        refine ⟨(runningJob_dp (issueGather_keeps j.data s.dp).2.1).trans h.job, .inr ⟨rfl, ?_⟩⟩
        have hend : Ended (takeEnd .overflowTrap (issueGather j.data s.dp)) j.data := hissued.1.takeEnd hissued.2 nofun nofun
        exact { hend with }
      case h_2 y bq clips _ =>
        obtain ⟨hjob, hst, hprogress⟩ := h.handOn hgo.1 xs y bq clips
        by_cases hl : (Machine.handOn j s.dp.next y { s with dp := advanceDp s j xs bq clips }).dp.next = j.data.n
        · rw [afterSample_of_last hl]
          have hkeeps := issueGather_keeps j.data (Machine.handOn j s.dp.next y { s with dp := advanceDp s j xs bq clips }).dp
          refine ⟨(runningJob_dp hkeeps.2.1).trans hjob, .inr ⟨rfl, ?_⟩⟩
          exact hprogress.issueGather.1.takeEnd hprogress.issueGather.2 nofun fun _ => hkeeps.2.2.trans hl
        · rw [afterSample_of_more hl]
          have hnow : Computing (Machine.handOn j s.dp.next y { s with dp := advanceDp s j xs bq clips }) j :=
            ⟨hjob, hst, hprogress.compute (Nat.lt_of_le_of_ne hprogress.next hl)⟩
          exact hnow.pushGather.holds

end

/-! ### The law -/

section

variable {s t u : State} {j : JobRec} {q : Fin 4}

theorem datapathSound_of_idle (h : s.dp = Datapath.idle) : DatapathSound s := by
  unfold DatapathSound
  rw [h]
  rfl

theorem idle_of_datapathSound (h : DatapathSound s) (hst : s.dp.st = .idle) : s.dp = Datapath.idle := by
  unfold DatapathSound at h
  rw [hst] at h
  exact h

theorem runningJob_of_jobs (h : Jobs s) (hst : s.dp.st ≠ .idle) : ∃ pos hd j, (s.queue s.dp.jobq).head = .data pos hd j ∧
    j.jstate = .running ∧ runningJob s = some j := by
  obtain ⟨pos, hd, j, hh, hj⟩ := (headIn_iff _ _).mp ((h.running s.dp.jobq).mpr ⟨hst, rfl⟩)
  exact ⟨pos, hd, j, hh, hj, headJob_of_data hh⟩

/-- A datapath that is not idle holds a job, in step with it. -/
theorem DatapathSound.holds (h : DatapathSound s) (hjobs : Jobs s) (hst : s.dp.st ≠ .idle) : ∃ j, Holds s j := by
  obtain ⟨-, -, j, -, -, hjob⟩ := runningJob_of_jobs hjobs hst
  unfold DatapathSound at h
  refine ⟨j, hjob, ?_⟩
  cases hs : s.dp.st with
  | idle => exact absurd hs hst
  | compute =>
    rw [hs] at h
    exact .inl ⟨hs, h j hjob⟩
  | settle =>
    rw [hs] at h
    exact .inr ⟨hs, (h j hjob).toEnded⟩

/-- A record in step with its job, where one in SETTLE has an access outstanding. -/
theorem Holds.datapathSound (h : Holds s j) (hbusy : s.dp.st = .settle → s.dp.reads ≠ [] ∨ s.dp.writes ≠ []) :
    DatapathSound s := by
  obtain ⟨hjob, hstep⟩ := h
  unfold DatapathSound
  obtain ⟨hst, hc⟩ | ⟨hst, he⟩ := hstep
  · rw [hst]
    intro i hi
    obtain rfl := Option.some.inj (hjob.symm.trans hi)
    exact hc
  · rw [hst]
    intro i hi
    obtain rfl := Option.some.inj (hjob.symm.trans hi)
    exact he.settle (hbusy hst)

theorem endOfJob_dp (s : State) : (endOfJob s).dp = Datapath.idle := by
  by_cases hh : ∃ pos hd j, (s.queue s.dp.jobq).head = .data pos hd j
  · obtain ⟨pos, hd, j, hh⟩ := hh
    rw [endOfJob_eq hh, (checkDrain_changes _).dp rfl, (endAbort_changes ..).dp rfl, (completeHead_changes ..).dp rfl,
      releasedState_dp]
  · rw [endOfJob_of_no_job fun pos hd j heq => hh ⟨pos, hd, j, heq⟩]

theorem Holds.settle (h : Holds u j) : DatapathSound (settle u) := by
  unfold Machine.settle
  split
  · exact datapathSound_of_idle (endOfJob_dp u)
  case isFalse hno =>
    refine h.datapathSound fun hst => ?_
    by_contra hb
    rw [not_or, not_not, not_not] at hb
    exact hno ⟨hst, hb⟩

/-- The datapath stays, and where it is not idle its job keeps its data record. -/
theorem DatapathSound.congr (h : DatapathSound s) (hdp : t.dp = s.dp)
    (hjob : s.dp.st ≠ .idle → ∀ i, runningJob t = some i → ∃ j, runningJob s = some j ∧ j.data = i.data) : DatapathSound t := by
  unfold DatapathSound at h ⊢
  rw [hdp]
  cases hs : s.dp.st with
  | idle =>
    rw [hs] at h
    exact h
  | compute =>
    rw [hs] at h
    intro i hi
    obtain ⟨j, hj, heq⟩ := hjob (by rw [hs]; nofun) i hi
    exact heq ▸ h j hj
  | settle =>
    rw [hs] at h
    intro i hi
    obtain ⟨j, hj, heq⟩ := hjob (by rw [hs]; nofun) i hi
    exact heq ▸ h j hj

theorem DatapathSound.of_changes (h : DatapathSound s) {F : List Part} (hc : Changes F s t) (hd : Part.dp.isIn F = false)
    (hq : Part.queues.isIn F = false) : DatapathSound t :=
  h.congr (hc.dp hd) fun _ i hi => ⟨i, by rw [← hi, runningJob, runningJob, hc.dp hd, hc.queue hq], rfl⟩

theorem DatapathSound.quiet (h : DatapathSound s) (hjobs : Jobs s) (hq : Quiet s t) : DatapathSound t := by
  refine h.congr (hq.parts.dp rfl) fun hst i hi => ?_
  rw [runningJob, hq.parts.dp rfl] at hi
  obtain ⟨pos, hd, hh⟩ := (headJob_eq_some_iff _ _).mp hi
  have hactive : jobActive (t.queue s.dp.jobq).head = true := by
    rw [jobActive_eq, hq.jobs, ← jobActive_eq]
    exact running_active ((hjobs.running _).mpr ⟨hst, rfl⟩)
  rw [hh] at hactive
  obtain ⟨pos', hd', j, hj, -, hdata, -⟩ := data_of_activeJob (hh ▸ hq.jobs s.dp.jobq) rfl hactive
  exact ⟨j, headJob_of_data hj, hdata⟩

theorem idle_of_no_job (hjobs : Jobs s) (hnone : ∀ k, jobActive (s.queue k).head = false) : s.dp.st = .idle := by
  by_contra hst
  exact absurd ((hnone s.dp.jobq).symm.trans (running_active ((hjobs.running _).mpr ⟨hst, rfl⟩))) nofun

theorem DatapathSound.failStart {pos : Nat} {hd : Header} (h : DatapathSound s) (hjobs : Jobs s)
    (hh : (s.queue q).head = .data pos hd j) (hj : j.jstate = .starting) (st : Status) : DatapathSound (failStart q st s) := by
  have hdp : (Machine.failStart q st s).dp = s.dp := (failStart_changes q st s).dp rfl
  refine h.congr hdp fun hst i hi => ⟨i, ?_, rfl⟩
  have hne : s.dp.jobq ≠ q := by
    rintro rfl
    have hrun := (hjobs.running _).mpr ⟨hst, rfl⟩
    rw [not_running_of_starting ((headIn_iff _ _).mpr ⟨pos, hd, j, hh, hj⟩)] at hrun
    cases hrun
  rw [← hi, runningJob, runningJob, hdp, failStart_queue_ne _ _ hne]

theorem freshDp_sound (s : State) (q : Fin 4) (hn : 1 ≤ j.data.n) : ComputeSound (freshDp s q j) j.data where
  noEnd := ⟨rfl, rfl⟩
  next := hn
  finished := rfl
  gather := Nat.zero_le _
  inputs := (List.length_map ..).trans (List.length_map ..)
  streamOutput := fun _ => rfl
  clips := fun _ => rfl

theorem enterRunning_computing {pos : Nat} {hd : Header} (hh : (s.queue q).head = .data pos hd j) (hn : 1 ≤ j.data.n)
    (reads : List ReadChoice) : Computing (enterRunning q reads s) (runningRec s j) := by
  rw [enterRunning_of_data hh]
  have hstart : Computing (({ holdContext j s with dp := freshDp s q j } : State).setHead q (.data pos hd (runningRec s j)))
      (runningRec s j) := by
    refine ⟨?_, rfl, ?_⟩
    · exact congrArg headJob (congrArg QueueRec.head (State.queue_setQueue_self ..))
    · exact freshDp_sound s q hn
  exact hstart.loadDelay.issueReads reads

theorem jobLaw_datapath : JobLaw (fun s => DataSound s ∧ DatapathSound s) :=
  jobLaw_of_data (P := DatapathSound)
    (quiet := fun hjobs _ h hq => h.quiet hjobs hq)
    (claim := fun {s q pos hd j} hjobs _ h hnone _ _ =>
      h.congr ((claimedState_changes q pos hd j s).dp rfl) fun hst => absurd (idle_of_no_job hjobs hnone) hst)
    (fail := fun st hjobs _ h hh hj => h.failStart hjobs hh hj st)
    (run := fun reads _ hdata _ hh _ => (enterRunning_computing hh (hdata.fits hh).1 reads).holds.datapathSound
      fun hst => absurd ((enterRunning_computing hh (hdata.fits hh).1 reads).state.symm.trans hst) nofun)
    (finish := fun {s _ hd j} _ _ _ _ _ _ => datapathSound_of_idle
      (((endedState_changes hd j s).dp rfl).trans (releasedState_dp j s)))

end

/-! ### The datapath's commands -/

section

variable {s : State}

theorem exec_computeSample_sound (h : DatapathSound s) (hjobs : Jobs s) (reads : List ReadChoice) :
    Answers DatapathSound (exec (.computeSample reads) s) := by
  refine answers_taken h ?_
  unfold computeStep
  split
  case h_1 j hj =>
    split
    case isTrue hst =>
      obtain ⟨i, hi, ⟨-, hc⟩ | ⟨hno, -⟩⟩ := h.holds hjobs (by rw [hst]; nofun)
      · obtain rfl := Option.some.inj (hj.symm.trans hi)
        have hcomp : Computing s j := ⟨hj, hst, hc⟩
        exact ((hcomp.issueReads reads).pushGather.computeNext).settle
      · exact absurd (hst.symm.trans hno) nofun
    case isFalse => exact h
  case h_2 => exact h

/-- An access outstanding belongs to a job. -/
theorem not_idle_of_read (h : DatapathSound s) {k : Nat} {a : DpRead} (hk : s.dp.reads[k]? = some a) : s.dp.st ≠ .idle :=
  fun hst => by
    rw [idle_of_datapathSound h hst] at hk
    cases hk

theorem not_idle_of_write (h : DatapathSound s) {k : Nat} {a : DpWrite} (hk : s.dp.writes[k]? = some a) : s.dp.st ≠ .idle :=
  fun hst => by
    rw [idle_of_datapathSound h hst] at hk
    cases hk

theorem exec_dpReadAnswer_sound (h : DatapathSound s) (hjobs : Jobs s) (k : Nat) (data : List Byte) (reads : List ReadChoice) :
    Answers DatapathSound (exec (.dpReadAnswer k data reads) s) := by
  refine answers_taken h ?_
  split
  · exact h
  case h_2 r hr =>
    split
    · exact h
    · dsimp only
      obtain ⟨j, hj, ⟨hst, hc⟩ | ⟨hst, he⟩⟩ := h.holds hjobs (not_idle_of_read h hr)
      · have hcomp : Computing { s with dp := { s.dp with reads := s.dp.reads.eraseIdx k } } j := ⟨hj, hst, { hc with }⟩
        rw [if_pos hst]
        exact (hcomp.takeWords r data reads).holds.settle
      · rw [if_neg (by rw [hst]; nofun)]
        exact Holds.settle (j := j) ⟨hj, .inr ⟨hst, { he with }⟩⟩

theorem exec_dpReadError_sound (h : DatapathSound s) (hjobs : Jobs s) (k : Nat) :
    Answers DatapathSound (exec (.dpReadError k) s) := by
  refine answers_taken h ?_
  split
  · exact h
  case h_2 r hr =>
    dsimp only
    obtain ⟨j, hj, ⟨hst, hc⟩ | ⟨hst, he⟩⟩ := h.holds hjobs (not_idle_of_read h hr)
    · rw [if_pos hst]
      exact Holds.settle (j := j) ⟨hj, .inr ⟨rfl, { hc.busErrorEnd with }⟩⟩
    · rw [if_neg (by rw [hst]; nofun)]
      exact Holds.settle (j := j) ⟨hj, .inr ⟨hst, { he with }⟩⟩

theorem exec_dpWriteAnswer_sound (h : DatapathSound s) (hjobs : Jobs s) (k : Nat) :
    Answers DatapathSound (exec (.dpWriteAnswer k) s) := by
  refine answers_taken h ?_
  split
  · exact h
  case h_2 r hr =>
    obtain ⟨j, hj, ⟨hst, hc⟩ | ⟨hst, he⟩⟩ := h.holds hjobs (not_idle_of_write h hr)
    · exact Holds.settle (j := j) ⟨hj, .inl ⟨hst, { hc with }⟩⟩
    · exact Holds.settle (j := j) ⟨hj, .inr ⟨hst, { he with }⟩⟩

theorem exec_dpWriteError_sound (h : DatapathSound s) (hjobs : Jobs s) (k : Nat) :
    Answers DatapathSound (exec (.dpWriteError k) s) := by
  refine answers_taken h ?_
  split
  · exact h
  case h_2 r hr =>
    dsimp only
    obtain ⟨j, hj, ⟨hst, hc⟩ | ⟨hst, he⟩⟩ := h.holds hjobs (not_idle_of_write h hr)
    · rw [if_pos hst]
      exact Holds.settle (j := j) ⟨hj, .inr ⟨rfl, { hc.busErrorEnd with }⟩⟩
    · rw [if_neg (by rw [hst]; nofun)]
      split
      · exact Holds.settle (j := j) ⟨hj, .inr ⟨hst, nofun, he.gather, he.clips, he.finished, nofun⟩⟩
      · exact Holds.settle (j := j) ⟨hj, .inr ⟨hst, { he with }⟩⟩

theorem exec_stopRequest_sound (h : DatapathSound s) (hjobs : Jobs s) : Answers DatapathSound (exec .stopRequest s) := by
  refine answers_taken h ?_
  split
  · have hdrop : DatapathSound { s with stopReq := false } := h.of_changes (changes_stopReq s false) rfl rfl
    dsimp only
    split
    case h_1 j hj =>
      split
      case isTrue hst =>
        obtain ⟨i, hi, ⟨-, hc⟩ | ⟨hno, -⟩⟩ := h.holds hjobs (by rw [hst.1]; nofun)
        · obtain rfl := Option.some.inj (hj.symm.trans hi)
          refine Holds.settle (j := j) ⟨?_, .inr ⟨rfl, hc.stopEnd⟩⟩
          exact (runningJob_dp (s := { s with stopReq := false }) (issueGather_keeps j.data s.dp).2.1).trans hj
        · exact absurd (hst.1.symm.trans hno) nofun
      case isFalse => exact hdrop
    case h_2 => exact hdrop
  · exact h

theorem exec_datapath_sound {c : Instr} (hc : ControlClosed.stepsDatapath c = true) (h : DatapathSound s) (hjobs : Jobs s) :
    Answers DatapathSound (exec c s) := by
  cases c with
  | stopRequest => exact exec_stopRequest_sound h hjobs
  | computeSample reads => exact exec_computeSample_sound h hjobs reads
  | dpReadAnswer k data reads => exact exec_dpReadAnswer_sound h hjobs k data reads
  | dpReadError k => exact exec_dpReadError_sound h hjobs k
  | dpWriteAnswer k => exact exec_dpWriteAnswer_sound h hjobs k
  | dpWriteError k => exact exec_dpWriteError_sound h hjobs k
  | _ => cases hc

/-- Setup that is accepted leaves no job. -/
theorem exec_setupReadAnswer_datapath (h : DatapathSound s) (off : Nat) (a : Answer) :
    Answers DatapathSound (exec (.setupReadAnswer off a) s) := fun t ht => by
  have hdp : t.dp = s.dp := (exec_changes _ s t ht).dp rfl
  refine h.congr hdp fun _ i hi => ?_
  rw [runningJob, hdp] at hi
  obtain hsame | ⟨-, hempty⟩ := exec_setupReadAnswer_heads off a s t ht
  · exact ⟨i, by rw [← hi, hsame]; rfl, rfl⟩
  · rw [hempty] at hi
    cases hi

theorem exec_datapathSound (c : Instr) (h : HeadsSound s) (hdata : DataSound s) (hs : DatapathSound s) :
    Answers DatapathSound (exec c s) := by
  cases hreset : resets c with
  | true =>
    cases c with
    | clear =>
      refine answers_taken hs ?_
      split
      · exact datapathSound_of_idle rfl
      · exact hs.of_changes (changes_eng ..) rfl rfl
    | pinReset => exact answers_next (datapathSound_of_idle rfl)
    | _ => cases hreset
  | false =>
    refine (jobLaw_datapath.exec h ⟨hdata, hs⟩ hreset (fun off a t ht => ⟨exec_dataSound _ hdata t ht,
      exec_setupReadAnswer_datapath hs off a t ht⟩) fun hc => ?_).imp fun _ ht => ht.2
    refine jobLaw_datapath.exec_inner_of_free (fun hc h => ⟨h.1.records (records_of_changes hc rfl), h.2.of_changes hc rfl rfl⟩)
      (fun k h _ => ⟨h.1, h.2.of_changes (changes_setContext ..) rfl rfl⟩) hc
      (fun hd _ t ht => ⟨exec_datapath_jobs hd h.jobs t ht, exec_dataSound _ hdata t ht, exec_datapath_sound hd hs h.jobs t ht⟩)
      ⟨h.jobs, hdata, hs⟩

end

/-- Settles O14: the data records as the heads take them, the start and the end of a job, and the datapath's commands. -/
theorem datapathStaysSound : Obligations.DatapathStaysSound := fun s t h hdata hs hstep => by
  obtain rfl | ⟨c, l, hc⟩ := step_next_cases hstep
  · exact ⟨hdata, hs⟩
  · exact ⟨exec_dataSound (s := { s with pending := l }) c hdata t hc,
      exec_datapathSound (s := { s with pending := l }) c { h with } hdata hs t hc⟩

end Sys2Proof.Machine
end

section
/-! SUPPORT. The ring accounting and the claims across each change of a stream's record (R4, R6 to R16, R19 to R22). -/

namespace Sys2Proof.Machine

open Sys2Proof

/-! ### One stream and a job's role in it -/

/-- The stream can feed or accept a block of `n` samples in a role. -/
def Feeds (r : StreamRec) (role : Role) (n : Nat) : Prop := streamCheck r role n = none ∧ streamReady r role n = true

theorem streamCheck_eq_none_iff (r : StreamRec) (role : Role) (n : Nat) : streamCheck r role n = none ↔
    r.defined = true ∧ endpointKindOk r role = true ∧ n ≤ r.length - r.hist := by
  cases hd : r.defined with
  | false => simp [(streamCheck_of_free hd role n).1]
  | true =>
    cases hk : endpointKindOk r role with
    | false => simp [streamCheck_of_wrong_kind hd hk]
    | true => simp [streamCheck_of_kind hd hk]

theorem feeds_input_iff (r : StreamRec) (n : Nat) : Feeds r .input n ↔
    r.defined = true ∧ r.consumer = .job ∧ n ≤ r.length - r.hist ∧ n ≤ r.fill := by
  rw [Feeds, streamCheck_eq_none_iff, streamReady, endpointKindOk, Bool.and_eq_true, decide_eq_true_iff, decide_eq_true_iff]
  tauto

theorem feeds_output_iff (r : StreamRec) (n : Nat) : Feeds r .output n ↔
    r.defined = true ∧ r.producer = .job ∧ n ≤ r.length - r.hist ∧ n ≤ freeSpace r := by
  rw [Feeds, streamCheck_eq_none_iff, streamReady, endpointKindOk, Bool.and_eq_true, decide_eq_true_iff, decide_eq_true_iff]
  tauto

theorem Feeds.defined {r : StreamRec} {role : Role} {n : Nat} (h : Feeds r role n) : r.defined = true :=
  ((streamCheck_eq_none_iff r role n).mp h.1).1

/-- A stream's record from one state to the next: its accounting stays, its claim too, and what a job claimed stands. -/
structure StreamNext (r r' : StreamRec) : Prop where
  free : (r.defined = false → r = StreamRec.free) → r'.defined = false → r' = StreamRec.free
  account : (r.defined = true → RingAccount r) → r'.defined = true → RingAccount r'
  claimed : r'.claimed = r.claimed
  feeds : ∀ role n, Feeds r role n → Feeds r' role n

namespace StreamNext

variable {r r' r'' : StreamRec}

theorem refl (r : StreamRec) : StreamNext r r := ⟨id, id, rfl, fun _ _ => id⟩

theorem trans (h : StreamNext r r') (h' : StreamNext r' r'') : StreamNext r r'' :=
  ⟨fun hr => h'.free (h.free hr), fun hr => h'.account (h.account hr), h'.claimed.trans h.claimed,
    fun role n hf => h'.feeds role n (h.feeds role n hf)⟩

/-- A DEFINED stream moves. -/
theorem of_defined (hd : r'.defined = true) (hdef : r.defined = true) (haccount : RingAccount r → RingAccount r')
    (hclaimed : r'.claimed = r.claimed) (hfeeds : ∀ role n, Feeds r role n → Feeds r' role n) : StreamNext r r' :=
  ⟨fun _ hno => absurd (hd.symm.trans hno) nofun, fun hr _ => haccount (hr hdef), hclaimed, hfeeds⟩

theorem eq_of_unmirrored (h : unmirrored r' = unmirrored r) : r' = { r with rxbind := r'.rxbind, txbind := r'.txbind } := by
  cases r
  cases r'
  simp only [unmirrored, StreamRec.mk.injEq] at h ⊢
  tauto

/-- Only the mirrors of a DEFINED stream change. -/
theorem of_unmirrored (h : unmirrored r' = unmirrored r) (hfree : r.defined = false → r' = r) : StreamNext r r' := by
  cases hd : r.defined with
  | false =>
    rw [hfree hd]
    exact refl r
  | true =>
    have heq := eq_of_unmirrored h
    rw [heq]
    exact of_defined hd hd (fun ha => { ha with }) rfl fun _ _ hf => hf

/-- A port take of the stream that a job does not consume. -/
theorem take (hd : r.defined = true) (hk : r.consumer = .portTx) (hfill : 1 ≤ r.fill) (f : Word) :
    StreamNext r { r with rdpos := (r.rdpos + 1) % r.length, fill := r.fill - 1, stamp := f } := by
  refine of_defined hd hd (fun ha => ⟨?_, Nat.mod_lt _ (Nat.lt_of_le_of_lt (Nat.zero_le _) ha.rdpos), ?_⟩) rfl fun role n hf => ?_
  · have := ha.room
    dsimp only
    omega
  · dsimp only
    rw [Nat.mod_add_mod, ha.wrpos]
    congr 1
    omega
  · cases role with
    | input => exact absurd (((feeds_input_iff r n).mp hf).2.1.symm.trans hk) nofun
    | output =>
      obtain ⟨-, hp, hn, hspace⟩ := (feeds_output_iff r n).mp hf
      refine (feeds_output_iff _ n).mpr ⟨hd, hp, hn, ?_⟩
      simp only [freeSpace] at hspace ⊢
      omega

/-- A port append to the stream that a job does not produce. -/
theorem append (hd : r.defined = true) (hk : r.producer = .portRx) (hspace : 1 ≤ freeSpace r) (f : Word) :
    StreamNext r { r with wrpos := (r.wrpos + 1) % r.length, fill := r.fill + 1, stamp := f } := by
  refine of_defined hd hd (fun ha => ⟨?_, ha.rdpos, ?_⟩) rfl fun role n hf => ?_
  · simp only [freeSpace] at hspace
    dsimp only
    omega
  · dsimp only
    rw [ha.wrpos, Nat.mod_add_mod, Nat.add_assoc]
  · cases role with
    | input =>
      obtain ⟨-, hc, hn, hfill⟩ := (feeds_input_iff r n).mp hf
      exact (feeds_input_iff _ n).mpr ⟨hd, hc, hn, Nat.le_succ_of_le hfill⟩
    | output => exact absurd (((feeds_output_iff r n).mp hf).2.1.symm.trans hk) nofun

/-- An overrun, the oldest sample dropped or the new one. -/
theorem overrun (hd : r.defined = true) (f : Word) : StreamNext r (overrunRec r f) := by
  unfold overrunRec
  dsimp only
  split
  · refine of_defined hd hd (fun ha => ⟨ha.room, Nat.mod_lt _ (Nat.lt_of_le_of_lt (Nat.zero_le _) ha.rdpos), ?_⟩) rfl fun _ _ hf => hf
    dsimp only
    rw [ha.wrpos, Nat.mod_add_mod, Nat.mod_add_mod]
    congr 1
    omega
  · exact of_defined hd hd (fun ha => { ha with }) rfl fun _ _ hf => hf

theorem underrun (hd : r.defined = true) (f : Word) :
    StreamNext r { r with undcnt := satSucc r.undcnt, stamp := f, undarm := false } :=
  of_defined hd hd (fun ha => { ha with }) rfl fun _ _ hf => hf

theorem rearm (hd : r.defined = true) : StreamNext r (rearmStream r) :=
  of_defined hd hd (fun ha => { ha with }) rfl fun _ _ hf => hf

end StreamNext

/-! ### The streams from one state to the next -/

/-- Every stream from `s` to `t`. -/
structure StreamsNext (s t : State) : Prop where
  next : ∀ n, StreamNext (s.stream n) (t.stream n)

namespace StreamsNext

variable {s t u : State} {n : Fin 48} {p : PortId}

theorem refl (s : State) : StreamsNext s s := ⟨fun _ => StreamNext.refl _⟩

theorem trans (h : StreamsNext s t) (h' : StreamsNext t u) : StreamsNext s u := ⟨fun n => (h.next n).trans (h'.next n)⟩

theorem of_changes {F : List Part} (h : Changes F s t) (hs : Part.streams.isIn F = false) : StreamsNext s t :=
  ⟨fun n => by rw [h.stream hs]; exact StreamNext.refl _⟩

theorem of_setStream {r : StreamRec} (hr : StreamNext (s.stream n) r) : StreamsNext s (s.setStream n r) := ⟨fun m => by
  by_cases hm : m = n
  · subst hm
    rw [State.stream_setStream_self]
    exact hr
  · rw [State.stream_setStream_ne _ _ hm]
    exact StreamNext.refl _⟩

/-- The mirrors alone change, and the laws of the bindings hold before and after. -/
theorem of_bindings (h : StreamsKeep unmirrored s t) (hs : BindLaws s) (ht : BindLaws t) : StreamsNext s t := ⟨fun n => by
  refine StreamNext.of_unmirrored (h.value n) fun hd => ?_
  have hdt : (t.stream n).defined = false := (show (unmirrored (t.stream n)).defined = (unmirrored (s.stream n)).defined by
    rw [h.value n]).trans hd
  have hnone : ∀ {u : State}, BindLaws u → (u.stream n).defined = false → ∀ dir, mirror (u.stream n) dir = none :=
    fun hu hun dir => Option.not_isSome_iff_eq_none.mp fun hm => absurd (hun.symm.trans (hu.kinds n dir hm).1) nofun
  have hrx : (t.stream n).rxbind = (s.stream n).rxbind := (hnone ht hdt .rx).trans (hnone hs hd .rx).symm
  have htx : (t.stream n).txbind = (s.stream n).txbind := (hnone ht hdt .tx).trans (hnone hs hd .tx).symm
  rw [StreamNext.eq_of_unmirrored (h.value n), hrx, htx]⟩

theorem portTake (hd : (s.stream n).defined = true) (hk : (s.stream n).consumer = .portTx) (f : Word) :
    StreamsNext s (portTake n f s) := by
  unfold Machine.portTake
  dsimp only
  split
  case isTrue hfill => exact (of_setStream (StreamNext.take hd hk hfill f)).trans (of_changes (notify_changes ..) rfl)
  case isFalse =>
    have hunder : StreamsNext s (s.setStream n _) := of_setStream (StreamNext.underrun hd f)
    split
    · exact hunder.trans (of_changes (raiseEvent_changes ..) rfl)
    · exact hunder

theorem portAppend (hd : (s.stream n).defined = true) (hk : (s.stream n).producer = .portRx) (f : Word) (x : Sample) :
    StreamsNext s (portAppend n f x s) := by
  unfold Machine.portAppend
  dsimp only
  split
  case isTrue hspace =>
    exact ((of_changes (changes_store s (storeWrite s.store (ringWord (s.stream n) (s.stream n).wrpos) x)) rfl).trans
      (of_setStream (StreamNext.append hd hk hspace f))).trans (of_changes (notify_changes ..) rfl)
  case isFalse =>
    have hover : StreamsNext s (s.setStream n (overrunRec (s.stream n) f)) := of_setStream (StreamNext.overrun hd f)
    have hfull : StreamsNext s (if overrunReason (s.stream n) = .oldDropped then
        { s.setStream n (overrunRec (s.stream n) f) with
          store := storeWrite s.store (ringWord (s.stream n) (s.stream n).wrpos) x }
        else s.setStream n (overrunRec (s.stream n) f)) := by
      split
      · exact hover.trans (of_changes (changes_store ..) rfl)
      · exact hover
    split
    · exact hfull.trans (of_changes (raiseEvent_changes ..) rfl)
    · exact hfull

/-! ### The slots of a port -/

/-- A bound slot names a DEFINED stream of the endpoint kind of its direction. -/
theorem bound_of_slotStream {dir : Dir} {j : Fin 32} (h : BindLaws s) (hs : slotStream (s.port p) dir j = some n) :
    (s.stream n).defined = true ∧ bindKindOk (s.stream n) dir = true := by
  obtain ⟨hc, -⟩ := (slotStream_eq_some_iff ..).mp hs
  have hphase : ∃ ph, slotPhase ((s.port p).slot j) = some (dir, n, ph) := by
    have hf := h.slots p j
    unfold slotFits at hf
    unfold slotPhase
    rw [hc] at hf ⊢
    cases hp : ((s.port p).slot j).pending with
    | none => exact ⟨.current, rfl⟩
    | some c =>
      rw [hp] at hf
      cases c with
      | bind d m q => exact hf.elim
      | unbind q => exact ⟨.unbinding, rfl⟩
  obtain ⟨ph, hph⟩ := hphase
  exact h.kinds n dir (by rw [(h.mirrored p j dir n ph).mp hph]; rfl)

theorem takeSlots (h : BindLaws s) (f : Word) (l : List (Fin 32)) : StreamsNext s (takeSlots p f l s) := by
  induction l generalizing s with
  | nil => exact refl s
  | cons j rest ih =>
    have hbind : BindLaws (takeSlot p f j s) := h.keep (takeSlots_bindingsKeep p f [j] s)
    refine trans ?_ (ih hbind)
    cases hs : slotStream (s.port p) .tx j with
    | none =>
      rw [takeSlot_of_unbound hs]
      exact of_changes (changes_setPort ..) rfl
    | some n =>
      obtain ⟨hd, hk⟩ := bound_of_slotStream h hs
      rw [takeSlot_of_bound hs]
      exact (portTake hd (of_decide_eq_true hk) f).trans (of_changes (changes_setPort ..) rfl)

theorem appendSlots (h : BindLaws s) (f : Word) (l : List (Fin 32)) : StreamsNext s (appendSlots p f l s) := by
  induction l generalizing s with
  | nil => exact refl s
  | cons j rest ih =>
    have hbind : BindLaws (appendSlot p f j s) := h.keep (appendSlots_bindingsKeep p f [j] s)
    refine trans ?_ (ih hbind)
    unfold appendSlot
    split
    case h_1 n hs =>
      obtain ⟨hd, hk⟩ := bound_of_slotStream h hs
      exact portAppend hd (of_decide_eq_true hk) f _
    case h_2 => exact refl s

theorem applySlots (h : BindLaws s) (l : List (Fin 32)) : StreamsNext s (applySlots p l s) := by
  induction l generalizing s with
  | nil => exact refl s
  | cons j rest ih =>
    exact trans (of_bindings (StreamsKeep.applySlot unbound_unmirrored p j s) h (h.applySlot p j)) (ih (h.applySlot p j))

theorem takeLineEvent (h : BindLaws s) (d : LineDue) : StreamsNext s (takeLineEvent p d s) := by
  have hport : ∀ {u : State} (r : PortRec), StreamsNext u (u.setPort p r) := fun r => of_changes (changes_setPort ..) rfl
  have hmap : ∀ {r : PortRec}, r.map = (s.port p).map → BindLaws (s.setPort p r) ∧ StreamsNext s (s.setPort p r) := fun hr =>
    ⟨h.keep (BindingsKeep.setPort hr), hport _⟩
  cases d with
  | frame mark =>
    rw [Machine.takeLineEvent, frameEvent_eq]
    have htake : BindLaws (Machine.takeSlots p (s.port p).fcount slotIds s) := h.keep (takeSlots_bindingsKeep ..)
    have happend := htake.keep (appendSlots_bindingsKeep p (s.port p).fcount slotIds _)
    exact ((((takeSlots h _ _).trans (appendSlots htake _ _)).trans (applySlots happend _)).trans (hport _)).trans
      (of_changes (releaseParked_changes ..) rfl)
  | huntMark => exact hport _
  | drop => exact hport _
  | lock =>
    obtain ⟨hset, hnext⟩ := hmap (r := { s.port p with
      lock := .locked, bitpos := 0, miss := false, candidate := none, due := none }) rfl
    refine trans (hnext.trans (takeSlots (p := p) hset (s.port p).fcount slotIds)) ?_
    exact trans (hport _) (of_changes (raiseEvent_changes _ .portLocked (portCode p) .none) rfl)
  | loss reason =>
    obtain ⟨hset, hnext⟩ := hmap (r := { s.port p with
      lock := .hunting, miss := false, candidate := if reason = .misplaced then some 0 else none,
      txhold := Vector.replicate 32 none, due := none }) rfl
    have hraise := hset.keep (BindingsKeep.of_changes
      (raiseEvent_changes _ .portSyncLost (portCode p) (lossReason reason)) rfl rfl)
    refine trans (hnext.trans (of_changes (raiseEvent_changes _ .portSyncLost (portCode p) (lossReason reason)) rfl)) ?_
    exact trans (applySlots (p := p) hraise slotIds) (of_changes (releaseParked_changes (pendingQueues (s.port p)) _) rfl)

end StreamsNext

end Sys2Proof.Machine
end

section
/-! SUPPORT. The claims of the STARTING or RUNNING job and the stream table under every command (R12, R14, R16). -/

namespace Sys2Proof.Machine

open Sys2Proof

/-! ### The claims of a head -/

/-- The data record and the claims of a head's STARTING or RUNNING job. -/
def claimant (h : Head) : Option (DataRec × Bool) := (activeJob h).map fun a => (a.data, a.claims)

section

variable {h h' : Head} {s t : State} {q : Fin 4}

theorem claimant_of_active {pos : Nat} {hd : Header} {j : JobRec} (ha : jobActive (.data pos hd j) = true) :
    claimant (.data pos hd j) = some (j.data, j.claims) := by
  rw [claimant, activeJob_of_active ha]
  rfl

theorem claimant_of_inactive (ha : jobActive h = false) : claimant h = none := by
  rw [claimant, activeJob_of_inactive ha]
  rfl

theorem claimant_eq_some_iff (h : Head) (d : DataRec) (b : Bool) : claimant h = some (d, b) ↔
    jobActive h = true ∧ ∃ pos hd j, h = .data pos hd j ∧ j.data = d ∧ j.claims = b := by
  constructor
  · intro hc
    cases ha : jobActive h with
    | false =>
      rw [claimant_of_inactive ha] at hc
      cases hc
    | true =>
      obtain ⟨pos, hd, j, rfl, -⟩ := (jobActive_iff h).mp ha
      rw [claimant_of_active ha] at hc
      obtain ⟨rfl, rfl⟩ := Prod.mk.inj (Option.some.inj hc)
      exact ⟨rfl, pos, hd, j, rfl, rfl, rfl⟩
  · rintro ⟨ha, pos, hd, j, rfl, rfl, rfl⟩
    exact claimant_of_active ha

/-- The laws of the stream table and the claims. -/
structure StreamLaws (s : State) : Prop where
  account : ∀ n, (s.stream n).defined = true → RingAccount (s.stream n)
  free : ∀ n, (s.stream n).defined = false → s.stream n = StreamRec.free
  claimed : ∀ n, (s.stream n).claimed = true ↔ ∃ q d b, claimant (s.queue q).head = some (d, b) ∧ n ∈ namedStreams d
  stands : ∀ q d b, claimant (s.queue q).head = some (d, b) → b = !(namedStreams d).isEmpty ∧
    ∀ x ∈ streamRoles d, Feeds (s.stream x.1) x.2 d.n

theorem StreamsSound.laws (h : StreamsSound s) : StreamLaws s where
  account := h.account
  free := h.free
  claimed := fun n => by
    rw [h.claimed]
    constructor
    · rintro ⟨q, ha, j, hj, hn⟩
      obtain ⟨pos, hd, hh⟩ := (headJob_eq_some_iff _ j).mp hj
      exact ⟨q, j.data, j.claims, (claimant_eq_some_iff ..).mpr ⟨ha, pos, hd, j, hh, rfl, rfl⟩, hn⟩
    · rintro ⟨q, d, b, hc, hn⟩
      obtain ⟨ha, pos, hd, j, hh, rfl, rfl⟩ := (claimant_eq_some_iff ..).mp hc
      exact ⟨q, ha, j, (headJob_eq_some_iff _ j).mpr ⟨pos, hd, hh⟩, hn⟩
  stands := fun q d b hc => by
    obtain ⟨ha, pos, hd, j, hh, rfl, rfl⟩ := (claimant_eq_some_iff ..).mp hc
    have hs := h.stands q
    rw [hh] at hs ha
    exact hs ha

theorem StreamLaws.sound (h : StreamLaws s) (hsnap : SnapshotSound s) : StreamsSound s where
  account := h.account
  free := h.free
  claimed := fun n => by
    rw [h.claimed]
    constructor
    · rintro ⟨q, d, b, hc, hn⟩
      obtain ⟨ha, pos, hd, j, hh, rfl, rfl⟩ := (claimant_eq_some_iff ..).mp hc
      exact ⟨q, ha, j, (headJob_eq_some_iff _ j).mpr ⟨pos, hd, hh⟩, hn⟩
    · rintro ⟨q, ha, j, hj, hn⟩
      obtain ⟨pos, hd, hh⟩ := (headJob_eq_some_iff _ j).mp hj
      exact ⟨q, j.data, j.claims, (claimant_eq_some_iff ..).mpr ⟨ha, pos, hd, j, hh, rfl, rfl⟩, hn⟩
  stands := fun q => by
    have hq := h.stands q
    cases hh : (s.queue q).head with
    | data pos hd j =>
      intro ha
      exact hq j.data j.claims (by rw [hh]; exact claimant_of_active ha)
    | _ => trivial
  snapshot := hsnap

/-! ### The laws across the changes of streams and heads -/

namespace StreamLaws

theorem next (h : StreamLaws s) (hs : StreamsNext s t) (hq : ∀ k, claimant (t.queue k).head = claimant (s.queue k).head) :
    StreamLaws t where
  account := fun n => (hs.next n).account (h.account n)
  free := fun n => (hs.next n).free (h.free n)
  claimed := fun n => by
    rw [(hs.next n).claimed, h.claimed]
    simp only [hq]
  stands := fun q d b hc => by
    rw [hq] at hc
    obtain ⟨hb, hfeeds⟩ := h.stands q d b hc
    exact ⟨hb, fun x hx => (hs.next x.1).feeds x.2 d.n (hfeeds x hx)⟩

theorem quiet (h : StreamLaws s) (hq : Quiet s t) : StreamLaws t :=
  h.next (StreamsNext.of_changes hq.parts rfl) fun k => by rw [claimant, hq.jobs, claimant]

theorem named_defined (h : StreamLaws s) {d : DataRec} {b : Bool} (hc : claimant (s.queue q).head = some (d, b)) {n : Fin 48}
    (hn : n ∈ namedStreams d) : (s.stream n).defined = true := by
  obtain ⟨x, hx, rfl⟩ := List.mem_map.mp (List.mem_dedup.mp hn)
  exact ((h.stands q d b hc).2 x hx).defined

/-- A stream that no job claims is set. -/
theorem replace (h : StreamLaws s) {n : Fin 48} {r : StreamRec} (hun : (s.stream n).claimed = false) (hr : r.claimed = false)
    (hfree : r.defined = false → r = StreamRec.free) (haccount : r.defined = true → RingAccount r) :
    StreamLaws (s.setStream n r) := by
  have hunnamed : ∀ k d b, claimant (s.queue k).head = some (d, b) → n ∉ namedStreams d := fun k d b hc hn =>
    absurd (hun.symm.trans ((h.claimed n).mpr ⟨k, d, b, hc, hn⟩)) nofun
  refine ⟨fun m => ?_, fun m => ?_, fun m => ?_, fun k d b hc => ?_⟩
  · by_cases hm : m = n
    · subst hm
      rw [State.stream_setStream_self]
      exact haccount
    · rw [State.stream_setStream_ne _ _ hm]
      exact h.account m
  · by_cases hm : m = n
    · subst hm
      rw [State.stream_setStream_self]
      exact hfree
    · rw [State.stream_setStream_ne _ _ hm]
      exact h.free m
  · by_cases hm : m = n
    · subst hm
      rw [State.stream_setStream_self, hr]
      exact ⟨nofun, fun ⟨k, d, b, hc, hn⟩ => absurd hn (hunnamed k d b hc)⟩
    · rw [State.stream_setStream_ne _ _ hm]
      exact h.claimed m
  · refine ⟨(h.stands k d b hc).1, fun x hx => ?_⟩
    have hne : x.1 ≠ n := fun heq =>
      hunnamed k d b hc (heq ▸ List.mem_dedup.mpr (List.mem_map.mpr ⟨x, hx, rfl⟩))
    rw [State.stream_setStream_ne _ _ hne]
    exact (h.stands k d b hc).2 x hx

/-- The only job that starts or runs leaves its head: its claims are cleared, and its streams may have moved. -/
theorem leave (h : StreamLaws s) {d : DataRec} {b : Bool} (hc : claimant (s.queue q).head = some (d, b))
    (honly : ∀ k, k ≠ q → jobActive (s.queue k).head = false) (hd : Drops q s t)
    (haccount : ∀ n, (s.stream n).defined = true → RingAccount (t.stream n))
    (hdefined : ∀ n, (t.stream n).defined = (s.stream n).defined)
    (hclaimed : ∀ n, n ∈ namedStreams d → (t.stream n).claimed = false) (hother : ∀ n, n ∉ namedStreams d → t.stream n = s.stream n) :
    StreamLaws t := by
  have hnone : ∀ k, claimant (t.queue k).head = none := fun k => by
    by_cases hk : k = q
    · subst hk
      exact claimant_of_inactive hd.active
    · rw [hd.others k hk, claimant_of_inactive (honly k hk)]
  refine ⟨fun n hn => haccount n (by rw [← hdefined, hn]), fun n hn => ?_, fun n => ?_, fun k d b hk => ?_⟩
  · rw [hdefined] at hn
    rw [hother n fun hmem => absurd (hn.symm.trans (h.named_defined hc hmem)) nofun]
    exact h.free n hn
  · refine ⟨fun hn => ?_, fun ⟨k, _, _, hk, _⟩ => absurd ((hnone k).symm.trans hk) nofun⟩
    by_cases hmem : n ∈ namedStreams d
    · exact absurd ((hclaimed n hmem).symm.trans hn) nofun
    · rw [hother n hmem] at hn
      obtain ⟨k, d', b', hk, hmem'⟩ := (h.claimed n).mp hn
      by_cases hkq : k = q
      · subst hkq
        obtain ⟨rfl, -⟩ := Prod.mk.inj (Option.some.inj (hc.symm.trans hk))
        exact absurd hmem' hmem
      · rw [claimant_of_inactive (honly k hkq)] at hk
        cases hk
  · exact absurd ((hnone k).symm.trans hk) nofun

end StreamLaws

/-! ### The start and the end of a job -/

theorem claimAll_granted {s : State} {n : Nat} {l : List (Fin 48 × Role)} (hc : claimAll s n l = .granted) :
    ∀ x ∈ l, Feeds (s.stream x.1) x.2 n := by
  induction l with
  | nil => exact nofun
  | cons y rest ih =>
    rw [claimAll] at hc
    split at hc
    case h_1 hy =>
      intro x hx
      obtain rfl | hx := List.mem_cons.mp hx
      · exact (claimOne_eq_granted_iff ..).mp hy
      · exact ih hc x hx
    case h_2 hy => exact absurd hc hy

theorem claimedState_stream (q : Fin 4) (pos : Nat) (hd : Header) (j : JobRec) (s : State) (n : Fin 48) :
    (claimedState q pos hd j s).stream n =
      { s.stream n with claimed := if n ∈ namedStreams j.data then true else (s.stream n).claimed } :=
  setClaims_record ..

theorem StreamLaws.claimedState {pos : Nat} {hd : Header} {j : JobRec} (h : StreamLaws s)
    (hnone : ∀ k, jobActive (s.queue k).head = false) (hc : claimResult s j.data = .granted) :
    StreamLaws (claimedState q pos hd j s) := by
  have hfeeds := claimAll_granted hc
  have hself : claimant ((Machine.claimedState q pos hd j s).queue q).head =
      some (j.data, decide (namedStreams j.data ≠ [])) := by
    rw [claimedState_head]
    exact claimant_of_active rfl
  have honly : ∀ k d b, claimant ((Machine.claimedState q pos hd j s).queue k).head = some (d, b) →
      d = j.data ∧ b = decide (namedStreams j.data ≠ []) := fun k d b hk => by
    by_cases hkq : k = q
    · subst hkq
      exact Prod.mk.inj (Option.some.inj (hk.symm.trans hself))
    · rw [claimedState_queue_ne hkq, claimant_of_inactive (hnone k)] at hk
      cases hk
  have hunclaimed : ∀ n, (s.stream n).claimed = false := fun n => Bool.eq_false_iff.mpr fun hn => by
    obtain ⟨k, d, b, hk, -⟩ := (h.claimed n).mp hn
    rw [claimant_of_inactive (hnone k)] at hk
    cases hk
  refine ⟨fun n hn => ?_, fun n hn => ?_, fun n => ?_, fun k d b hk => ?_⟩
  · rw [claimedState_stream] at hn ⊢
    exact { h.account n hn with }
  · rw [claimedState_stream] at hn ⊢
    have hmem : n ∉ namedStreams j.data := fun hmem => by
      obtain ⟨x, hx, rfl⟩ := List.mem_map.mp (List.mem_dedup.mp hmem)
      exact absurd (hn.symm.trans (hfeeds x hx).defined) nofun
    rw [if_neg hmem]
    exact h.free n hn
  · rw [claimedState_stream]
    dsimp only
    rw [hunclaimed]
    constructor
    · intro hn
      split at hn
      case isTrue hmem => exact ⟨q, _, _, hself, hmem⟩
      case isFalse => cases hn
    · rintro ⟨k, d, b, hk, hmem⟩
      rw [(honly k d b hk).1] at hmem
      rw [if_pos hmem]
  · obtain ⟨rfl, rfl⟩ := honly k d b hk
    refine ⟨?_, fun x hx => ?_⟩
    · cases namedStreams j.data <;> rfl
    · rw [claimedState_stream]
      exact hfeeds x hx

theorem failStart_stream {pos : Nat} {hd : Header} {j : JobRec} (hh : (s.queue q).head = .data pos hd j) (st : Status) (n : Fin 48) :
    (failStart q st s).stream n = if j.claims then (releaseStreams j.data s).stream n else s.stream n := by
  unfold failStart
  rw [hh]
  dsimp only
  rw [(completeJob_changes ..).stream rfl, (useEndOf_changes ..).stream rfl]
  split <;> rfl

theorem StreamLaws.failStart {pos : Nat} {hd : Header} {j : JobRec} (h : StreamLaws s) (hjobs : Jobs s)
    (hh : (s.queue q).head = .data pos hd j) (hj : j.jstate = .starting) (st : Status) : StreamLaws (failStart q st s) := by
  have hc : claimant (s.queue q).head = some (j.data, j.claims) := by
    rw [hh]
    exact claimant_of_active (starting_active ((headIn_iff _ _).mpr ⟨pos, hd, j, rfl, hj⟩))
  have hstream : ∀ n, (Machine.failStart q st s).stream n =
      { s.stream n with claimed := if n ∈ namedStreams j.data then false else (s.stream n).claimed } := fun n => by
    rw [failStart_stream hh]
    cases hcl : j.claims with
    | true =>
      rw [if_pos rfl, releaseStreams_stream]
      simp only [mem_namedStreams_iff_endpoint]
    | false =>
      have hempty : namedStreams j.data = [] := by
        have hb := (h.stands q _ _ hc).1
        rw [hcl] at hb
        simpa using hb
      rw [hempty]
      simp
  refine h.leave hc (fun k hk => hjobs.only_of_starting hh hj hk) (failStart_drops st hh) (fun n hn => ?_) (fun n => ?_)
    (fun n hn => ?_) (fun n hn => ?_)
  · rw [hstream]
    exact { h.account n hn with }
  · rw [hstream]
  · rw [hstream]
    exact if_pos hn
  · rw [hstream, if_neg hn]

theorem mem_streamRoles_input {d : DataRec} {n : Fin 48} (hn : n ∈ streamInputs d) : (n, Role.input) ∈ streamRoles d :=
  List.mem_append_left _ (List.mem_map.mpr ⟨n, hn, rfl⟩)

theorem mem_streamRoles_output {d : DataRec} {n : Fin 48} (hn : d.output = .stream n) : (n, Role.output) ∈ streamRoles d := by
  rw [streamRoles, hn]
  exact List.mem_append_right _ (List.mem_singleton.mpr rfl)

/-- The accounting of a stream after the commit of a block of `k` samples, its input and its output. -/
theorem RingAccount.commit {r : StreamRec} {k : Nat} {i o : Prop} [Decidable i] [Decidable o] (h : RingAccount r)
    (hi : i → Feeds r .input k) (ho : o → Feeds r .output k) : RingAccount { r with
      rdpos := if i then (r.rdpos + k) % r.length else r.rdpos
      wrpos := if o then (r.wrpos + k) % r.length else r.wrpos
      fill := (if i then r.fill - k else r.fill) + (if o then k else 0)
      claimed := false } := by
  have hlen : 0 < r.length := Nat.lt_of_le_of_lt (Nat.zero_le _) h.rdpos
  have hroom := h.room
  have hin : i → k ≤ r.fill := fun x => ((feeds_input_iff r k).mp (hi x)).2.2.2
  have hout : o → k + r.fill + r.hist ≤ r.length := fun x => by
    obtain ⟨-, -, hn, hspace⟩ := (feeds_output_iff r k).mp (ho x)
    rw [freeSpace] at hspace
    omega
  refine ⟨?_, ?_, ?_⟩
  · dsimp only
    by_cases hx : i <;> by_cases hy : o <;> simp only [hx, hy, if_true, if_false]
    · have := hin hx
      omega
    · omega
    · have := hout hy
      omega
    · omega
  · dsimp only
    split
    · exact Nat.mod_lt _ hlen
    · exact h.rdpos
  · dsimp only
    by_cases hx : i <;> by_cases hy : o <;> simp only [hx, hy, if_true, if_false, h.wrpos, Nat.mod_add_mod]
    · have := hin hx
      congr 1
      omega
    · have := hin hx
      congr 1
      omega
    · congr 1
      omega
    · rfl

theorem endedState_stream (hd : Header) (j : JobRec) (s : State) (n : Fin 48) : (endedState hd j s).stream n =
    (endStreams j s.dp { s with dp := Datapath.idle, stopReq := false }).stream n := by
  rw [(endedState_changes hd j s).stream rfl, releasedState, (useEndOf_changes ..).stream rfl, (endContext_changes ..).stream rfl]

theorem StreamLaws.endedState {pos : Nat} {hd : Header} {j : JobRec} (h : StreamLaws s) (hjobs : Jobs s) (hdata : DataSound s)
    (hh : (s.queue s.dp.jobq).head = .data pos hd j) (hj : j.jstate = .running) : StreamLaws (endedState hd j s) := by
  have hrun : headIn .running (s.queue s.dp.jobq).head = true := (headIn_iff _ _).mpr ⟨pos, hd, j, hh, hj⟩
  have hc : claimant (s.queue s.dp.jobq).head = some (j.data, j.claims) := by
    rw [hh] at hrun ⊢
    exact claimant_of_active (running_active hrun)
  have hfeeds := (h.stands _ _ _ hc).2
  have honly : ∀ k, k ≠ s.dp.jobq → jobActive (s.queue k).head = false := fun k hk => Bool.eq_false_iff.mpr fun ha =>
    hk (hjobs.oneJob k s.dp.jobq ha (running_active hrun))
  have hnodup : (streamInputs j.data).Nodup := (hdata.fits hh).2.2.2.2
  by_cases hok : s.dp.endStat = .ok
  · have hstream : ∀ n, (Machine.endedState hd j s).stream n = { s.stream n with
        rdpos := if n ∈ streamInputs j.data then ((s.stream n).rdpos + j.data.n) % (s.stream n).length else (s.stream n).rdpos
        wrpos := if j.data.output = .stream n then ((s.stream n).wrpos + j.data.n) % (s.stream n).length else (s.stream n).wrpos
        fill := (if n ∈ streamInputs j.data then (s.stream n).fill - j.data.n else (s.stream n).fill) +
          (if j.data.output = .stream n then j.data.n else 0)
        claimed := if n ∈ streamInputs j.data ∨ j.data.output = .stream n then false else (s.stream n).claimed } := fun n => by
      rw [endedState_stream, endStreams, if_pos hok, commitStreams_stream hnodup]
      rfl
    refine h.leave hc honly (endedState_drops hd j s) (fun n hn => ?_) (fun n => ?_) (fun n hn => ?_) (fun n hn => ?_)
    · rw [hstream]
      have hcommit := (h.account n hn).commit (k := j.data.n) (i := n ∈ streamInputs j.data) (o := j.data.output = .stream n)
        (fun hi => hfeeds _ (mem_streamRoles_input hi)) (fun ho => hfeeds _ (mem_streamRoles_output ho))
      exact { hcommit with }
    · rw [hstream]
    · rw [hstream]
      exact if_pos ((mem_namedStreams_iff_endpoint ..).mp hn)
    · rw [mem_namedStreams_iff_endpoint, not_or] at hn
      rw [hstream]
      simp [hn.1, hn.2]
  · have hstream : ∀ n, (Machine.endedState hd j s).stream n = { s.stream n with
        claimed := if n ∈ streamInputs j.data ∨ j.data.output = .stream n then false else (s.stream n).claimed } := fun n => by
      rw [endedState_stream, endStreams, if_neg hok, releaseStreams_stream]
      rfl
    refine h.leave hc honly (endedState_drops hd j s) (fun n hn => ?_) (fun n => ?_) (fun n hn => ?_) (fun n hn => ?_)
    · rw [hstream]
      exact { h.account n hn with }
    · rw [hstream]
    · rw [hstream]
      exact if_pos ((mem_namedStreams_iff_endpoint ..).mp hn)
    · rw [mem_namedStreams_iff_endpoint, not_or] at hn
      rw [hstream]
      simp [hn.1, hn.2]

theorem enterRunning_claimant {pos : Nat} {hd : Header} {j : JobRec} (hh : (s.queue q).head = .data pos hd j)
    (hj : j.jstate = .starting) (reads : List ReadChoice) (k : Fin 4) :
    claimant ((enterRunning q reads s).queue k).head = claimant (s.queue k).head := by
  by_cases hk : k = q
  · subst hk
    rw [(enterRunning_facts hh reads).1, hh, claimant_of_active (by rfl), claimant_of_active]
    · rfl
    · simp [jobActive, hj]
  · rw [enterRunning_queue_ne reads s hk]

theorem jobLaw_streams : JobLaw (fun s => DataSound s ∧ StreamLaws s) :=
  jobLaw_of_data (P := StreamLaws)
    (quiet := fun _ _ h hq => h.quiet hq)
    (claim := fun _ _ h hnone _ hc => h.claimedState hnone hc)
    (fail := fun st hjobs _ h hh hj => h.failStart hjobs hh hj st)
    (run := fun reads _ _ h hh hj => h.next (StreamsNext.of_changes (enterRunning_changes ..) rfl)
      (enterRunning_claimant hh hj reads))
    (finish := fun hjobs hdata h _ hh hj => h.endedState hjobs hdata hh hj)

end

end Sys2Proof.Machine
end

section
/-! SUPPORT. The stream table under every command (R3, R4, R8, R12, R23). -/

namespace Sys2Proof.Machine

open Sys2Proof

/-! ### The jobs across a change of streams -/

section

variable {s t u : State} {q : Fin 4}

/-- The datapath stays, and the heads' STARTING and RUNNING jobs; a head takes no record but one that decoded. -/
structure JobsStay (s t : State) : Prop where
  dp : t.dp = s.dp
  jobs : ∀ k, activeJob (t.queue k).head = activeJob (s.queue k).head
  records : ∀ k, RecordSteps k (s.queue k).head (t.queue k).head

namespace JobsStay

theorem trans (h : JobsStay s t) (h' : JobsStay t u) : JobsStay s u :=
  ⟨h'.dp.trans h.dp, fun k => (h'.jobs k).trans (h.jobs k), fun k => (h.records k).trans (h'.records k)⟩

theorem of_quiet (h : Quiet s t) : JobsStay s t := ⟨h.parts.dp rfl, h.jobs, h.records⟩

theorem of_changes {F : List Part} (h : Changes F s t) (hd : Part.dp.isIn F = false) (hq : Part.queues.isIn F = false) :
    JobsStay s t := ⟨h.dp hd, fun k => by rw [h.queue hq], records_of_changes h hq⟩

theorem completeParked (st : Status) (d : Detail) (s : State) : JobsStay s (completeParked q st d s) := by
  refine of_quiet ?_
  unfold Machine.completeParked
  split
  case h_1 pos h body hh =>
    refine Quiet.of_units (completeHead_unitsKeep _ ?_ ?_) (completeHead_changes ..) rfl (completeHead_loose ..).records
    · rw [hh]
      rfl
    · rw [hh]
      rfl
  case h_2 => exact Quiet.refl s

theorem releaseParked (l : List (Fin 4)) (s : State) : JobsStay s (releaseParked l s) := by
  induction l generalizing s with
  | nil => exact of_quiet (Quiet.refl s)
  | cons q l ih =>
    refine trans ?_ (ih _)
    unfold releaseBind
    split
    · exact completeParked ..
    · exact of_quiet (Quiet.refl s)

theorem takeLineEvent (p : PortId) (d : LineDue) (s : State) : JobsStay s (takeLineEvent p d s) := by
  cases d with
  | frame mark =>
    rw [Machine.takeLineEvent, frameEvent_eq]
    refine trans (of_changes ((((takeSlots_changes ..).trans (appendSlots_changes ..)).trans (applySlots_changes ..)).trans
      (changes_setPort ..)) rfl rfl) (releaseParked ..)
  | huntMark => exact of_changes (huntMark_changes p s) rfl rfl
  | drop => exact of_changes (dropCandidate_changes p s) rfl rfl
  | lock =>
    exact of_changes ((((changes_setPort ..).trans (takeSlots_changes ..)).trans (changes_setPort ..)).trans
      (raiseEvent_changes ..)) rfl rfl
  | loss reason =>
    exact trans (of_changes (((changes_setPort ..).trans (raiseEvent_changes ..)).trans (applySlots_changes ..)) rfl rfl)
      (releaseParked ..)

end JobsStay

/-- The streams move within their laws, and the jobs stay. -/
theorem lawful_next (h : Lawful (fun s => DataSound s ∧ StreamLaws s) s) (hj : JobsStay s t) (hs : StreamsNext s t) :
    Lawful (fun s => DataSound s ∧ StreamLaws s) t :=
  ⟨h.1.keep (by rw [hj.dp]) (by rw [hj.dp]) hj.jobs, h.2.1.records hj.records,
    h.2.2.next hs fun k => by rw [claimant, hj.jobs, claimant]⟩

/-- A free stream or one without a claim is defined or freed. -/
theorem lawful_setStream (h : Lawful (fun s => DataSound s ∧ StreamLaws s) s) {n : Fin 48} {r : StreamRec}
    (hs : StreamLaws (s.setStream n r)) : Lawful (fun s => DataSound s ∧ StreamLaws s) (s.setStream n r) :=
  ⟨h.1.of_changes (changes_setStream ..) rfl rfl, h.2.1.records (records_of_changes (changes_setStream ..) rfl), hs⟩

/-! ### The control records that change a table -/

theorem ringAccount_definedStream {base length hist : Nat} (hfits : ringFits base length hist) (producer : Producer)
    (consumer : Consumer) (policy : OverrunPolicy) (idle : Sample) :
    RingAccount (definedStream base length hist producer consumer policy idle) := by
  obtain ⟨-, hroom⟩ := hfits
  refine ⟨?_, ?_, ?_⟩
  · change 0 + hist ≤ length
    omega
  · change 0 < length
    omega
  · exact (Nat.zero_mod _).symm

theorem StreamLaws.define (h : StreamLaws s) {n : Fin 48} {r : StreamRec} (hd : (s.stream n).defined = false)
    (hclaimed : r.claimed = false) (hr : r.defined = true) (haccount : RingAccount r) : StreamLaws (s.setStream n r) :=
  h.replace (by rw [h.free n hd]; rfl) hclaimed (fun hno => absurd (hr.symm.trans hno) nofun) fun _ => haccount

theorem StreamLaws.retire (h : StreamLaws s) {n : Fin 48} (hok : retireStatus (s.stream n) = .ok) :
    StreamLaws (s.setStream n StreamRec.free) := by
  refine h.replace ?_ rfl (fun _ => rfl) nofun
  unfold retireStatus at hok
  cases hc : (s.stream n).claimed with
  | false => rfl
  | true =>
    rw [hc, if_pos rfl] at hok
    split at hok
    · cases hok
    · cases hok

theorem executeControl_streamLaws {body : ControlRec} {pos : Nat} {hd : Header}
    (hh : (s.queue q).head = .control pos hd body .executing) (hfits : defineFits (s.queue q).head) (hb : BindLaws s)
    (htouches : ControlClosed.touchesTables body = true) :
    LawKept (fun s => DataSound s ∧ StreamLaws s) s (executeControl q body s) := by
  intro h
  have hfin : ∀ {u : State} (st : Status) n d hit, Lawful (fun s => DataSound s ∧ StreamLaws s) u →
      Lawful (fun s => DataSound s ∧ StreamLaws s) (finishControl q st n d hit u) :=
    fun st n d hit => jobLaw_streams.kept_quiet (finishControl_quiet ..)
  have hfinNotice : ∀ {u : State} (m : Fin 48) (st : Status) n d hit, Lawful (fun s => DataSound s ∧ StreamLaws s) u →
      Lawful (fun s => DataSound s ∧ StreamLaws s) (finishControl q st n d hit (notify u m)) := fun m st n d hit hu =>
    hfin st n d hit (jobLaw_streams.kept_changes (notify_changes ..) rfl rfl hu)
  rw [hh] at hfits
  cases body with
  | defineStream n base length hist producer consumer policy idle =>
    rw [executeControl, execDefine]
    split
    · exact hfin _ _ _ _ h
    · split
      · exact hfin _ _ _ _ h
      case isFalse hdef =>
        have hstore : Lawful (fun s => DataSound s ∧ StreamLaws s)
            { s with store := storeWriteAll s.store (historyZeroes base length hist) } :=
          lawful_next h (JobsStay.of_changes (changes_store ..) rfl rfl) (StreamsNext.of_changes (changes_store ..) rfl)
        exact hfinNotice n _ _ _ _ (lawful_setStream hstore
          (hstore.2.2.define (Bool.eq_false_iff.mpr hdef) rfl rfl (ringAccount_definedStream hfits ..)))
  | retireStream n =>
    rw [executeControl]
    unfold execRetire
    split
    case h_1 hok => exact hfinNotice n _ _ _ _ (lawful_setStream h (h.2.2.retire hok))
    case h_2 => exact hfin _ _ _ _ h
  | bindSlot p j action =>
    rw [executeControl]
    unfold execBind
    split
    case h_1 hok =>
      have hrec := hb.recordPending hok q
      have hpending : Lawful (fun s => DataSound s ∧ StreamLaws s) (recordPending p j action q s) :=
        lawful_next h (JobsStay.of_changes (recordPending_changes ..) rfl rfl)
          (StreamsNext.of_bindings (StreamsKeep.recordPending unbound_unmirrored ..) hb hrec)
      split
      · exact jobLaw_streams.kept_quiet (parkControl_quiet ..) hpending
      · exact hfin _ _ _ _ (lawful_next hpending (JobsStay.of_changes (applySlot_changes ..) rfl rfl)
          (StreamsNext.of_bindings (StreamsKeep.applySlot unbound_unmirrored ..) hrec (hrec.applySlot p j)))
    case h_2 => exact hfin _ _ _ _ h
  | clearContext c =>
    rw [executeControl, execClearContext]
    split
    · exact hfin _ _ _ _ h
    · split
      · exact hfin _ _ _ _ (lawful_next h (JobsStay.of_changes (changes_setContext ..) rfl rfl)
          (StreamsNext.of_changes (changes_setContext ..) rfl))
      · exact hfin _ _ _ _ h
  | _ => cases htouches

/-! ### The laws across every command -/

theorem executing_bindingsKeep (pos : Nat) (hd : Header) (body : ControlRec) (s : State) :
    BindingsKeep s (executing q pos hd body s) := by
  have hcu : Changes [.cu] s { s with cu := { work := none, last := q } } := changes_cu ..
  exact BindingsKeep.of_changes (hcu.trans (changes_setHead ..)) rfl rfl

theorem exec_streamLaws_inner {c : Instr} (hc : inner c = true) (h : Jobs s) (hdata : DataSound s) (hrings : RingsSound s)
    (hb : BindLaws s) (hs : StreamLaws s) (hsnap : SnapshotSound s) :
    Answers (Lawful fun s => DataSound s ∧ StreamLaws s) (exec c s) := by
  refine jobLaw_streams.exec_inner hc (fun q n a re bs hw hl => ?_) (fun hd hl => ?_) (fun p d _ hl => ?_)
    (fun q pos hd body _ hh htouches => ?_) (fun q pos hd body p j hl => ?_) ⟨h, hdata, hs⟩
  · have hdef : (s.stream n).defined = true := by
      rwa [SnapshotSound, hw] at hsnap
    exact lawful_next hl (JobsStay.of_changes (changes_setStream ..) rfl rfl) (StreamsNext.of_setStream (StreamNext.rearm hdef))
  · refine (ControlClosed.exec_datapath jobLaw_streams.closed.ordinary (fun hm hu => ?_) hd s).imp fun t ht => ht hl
    exact ⟨hu.1.dpMoves hm, hu.2.1.records (records_of_changes hm.parts rfl),
      hu.2.2.next (StreamsNext.of_changes hm.parts rfl) fun k => by rw [hm.parts.queue rfl]⟩
  · exact lawful_next hl (JobsStay.takeLineEvent p d s) (StreamsNext.takeLineEvent hb d)
  · refine executeControl_streamLaws (executing_head ..) ?_ (hb.keep (executing_bindingsKeep ..)) htouches
    rw [executing_head]
    exact defineFits_of_record (by rw [hh]; rfl) (hrings.held q)
  · have hbe := hb.keep (executing_bindingsKeep (q := q) pos hd body s)
    exact lawful_next hl (JobsStay.of_changes (withdrawSlot_changes ..) rfl rfl)
      (StreamsNext.of_bindings (StreamsKeep.withdrawSlot unbound_unmirrored ..) hbe (hbe.withdrawSlot p j))

theorem exec_streamLaws (c : Instr) (h : HeadsSound s) (he : EngineSound s) (hdata : DataSound s) (hrings : RingsSound s)
    (hb : BindLaws s) (hs : StreamLaws s) (hsnap : SnapshotSound s) : Answers StreamLaws (exec c s) := by
  cases hreset : resets c with
  | true =>
    cases c with
    | clear =>
      refine answers_taken hs ?_
      split
      · exact streamsSound_reset.laws.next ⟨fun _ => StreamNext.refl _⟩ fun _ => rfl
      · exact hs.next ⟨fun _ => StreamNext.refl _⟩ fun _ => rfl
    | pinReset => exact answers_next (streamsSound_reset.laws.next ⟨fun _ => StreamNext.refl _⟩ fun _ => rfl)
    | _ => cases hreset
  | false =>
    exact (jobLaw_streams.exec h ⟨hdata, hs⟩ hreset (jobLaw_streams.exec_setup h he.setup ⟨hdata, hs⟩) fun hc =>
      exec_streamLaws_inner hc h.jobs hdata hrings hb hs hsnap).imp fun _ ht => ht.2

end

end Sys2Proof.Machine
end

section
/-! SUPPORT. A snapshot that waits for its answer is of a DEFINED stream, under every command (R23, R24); and the stream table. -/

namespace Sys2Proof.Machine

open Sys2Proof

/-! ### The work of the control unit -/

section

variable {s t u : State} {q : Fin 4}

theorem finishControl_work (q : Fin 4) (st : Status) (n : Nat) (d : Detail) (hit : Bool) (s : State) :
    (finishControl q st n d hit s).cu.work = none := congrArg ControlUnit.work ((completeControl_changes ..).cu rfl)

/-- No snapshot begins from `s` to `t`. -/
structure WorkKeeps (s t : State) : Prop where
  snapshot : ∀ q n a re bs, t.cu.work = some (.snapshot q n a re bs) → s.cu.work = some (.snapshot q n a re bs)

namespace WorkKeeps

theorem refl (s : State) : WorkKeeps s s := ⟨fun _ _ _ _ _ => id⟩

theorem trans (h : WorkKeeps s t) (h' : WorkKeeps t u) : WorkKeeps s u :=
  ⟨fun q n a re bs hw => h.snapshot q n a re bs (h'.snapshot q n a re bs hw)⟩

theorem of_changes {F : List Part} (h : Changes F s t) (hc : Part.cu.isIn F = false) : WorkKeeps s t :=
  ⟨fun _ _ _ _ _ hw => by rwa [h.cu hc] at hw⟩

theorem of_no_snapshot (h : ∀ q n a re bs, t.cu.work ≠ some (.snapshot q n a re bs)) : WorkKeeps s t :=
  ⟨fun q n a re bs hw => absurd hw (h q n a re bs)⟩

theorem of_idle (h : t.cu.work = none) : WorkKeeps s t := of_no_snapshot fun _ _ _ _ _ hw => nomatch h.symm.trans hw

theorem finishControl (q : Fin 4) (st : Status) (n : Nat) (d : Detail) (hit : Bool) (s : State) :
    WorkKeeps s (finishControl q st n d hit s) := of_idle (finishControl_work ..)

theorem parkControl (q : Fin 4) (s : State) : WorkKeeps s (parkControl q s) := by
  unfold Machine.parkControl
  split
  · exact of_idle rfl
  · exact refl s

theorem endAbort (q : Fin 4) (s : State) : WorkKeeps s (endAbort q s) := by
  unfold Machine.endAbort
  split
  · split
    · exact finishControl ..
    · exact refl s
  · exact refl s

theorem endOfJob (s : State) : WorkKeeps s (endOfJob s) := by
  cases hh : (s.queue s.dp.jobq).head with
  | data pos hd j =>
    rw [endOfJob_eq hh]
    exact ((of_changes ((releasedState_changes j s).trans (completeHead_changes ..)) rfl).trans (endAbort ..)).trans
      (of_changes (checkDrain_changes _) rfl)
  | _ =>
    rw [endOfJob_of_no_job fun _ _ _ heq => nomatch hh.symm.trans heq]
    exact ⟨fun _ _ _ _ _ => id⟩

theorem closed : Closed WorkKeeps where
  refl := refl
  trans := trans
  other := fun h => of_changes h rfl
  drain := fun s => of_changes (checkDrain_changes s) rfl
  event := fun s k n r => of_changes (raiseEvent_changes s k n r) rfl
  complete := fun _ _ => of_changes (completeHead_changes ..) rfl
  job := fun _ _ => of_changes (changes_setHead ..) rfl
  fail := fun _ _ _ => of_changes (failStart_changes ..) rfl
  run := fun _ _ _ _ => of_changes (enterRunning_changes ..) rfl
  finish := fun _ => endOfJob _

theorem unitConcludes (s : State) : ControlClosed.UnitConcludes WorkKeeps s :=
  have h : ∀ q hd, Concludes WorkKeeps q hd := fun q _ => ⟨fun _ st n d hit => finishControl q st n d hit _,
    fun _ => parkControl q _, fun _ => of_no_snapshot fun _ _ _ _ _ => nofun⟩
  ⟨fun _ _ _ _ _ _ => h .., fun _ _ _ _ _ => h ..⟩

end WorkKeeps

/-- Every command but the resets and the selection of a control record begins no snapshot. -/
theorem exec_workKeeps {c : Instr} (hreset : resets c = false) (hselect : c ≠ .controlSelect) :
    Answers (WorkKeeps s) (exec c s) := by
  have hkeep : ∀ {F : List Part} {s t : State}, Changes F s t → Part.cu.isIn F = false → WorkKeeps s t := WorkKeeps.of_changes
  cases hc : inner c with
  | true =>
    refine ControlClosed.exec_inner_of_datapath WorkKeeps.closed
      ⟨fun q s => hkeep (arbiterMove_changes q s) rfl, fun _ _ _ _ _ => hkeep (claimedState_changes ..) rfl⟩
      (WorkKeeps.unitConcludes s) (fun _ h => hkeep h rfl) hc (fun _ _ _ _ _ _ => hkeep (changes_setStream ..) rfl)
      (fun hd => ControlClosed.exec_datapath WorkKeeps.closed.ordinary (fun h => hkeep h.parts rfl) hd s)
      (ControlClosed.exec_portCommand WorkKeeps.closed.ordinary (fun p d _ => WorkKeeps.closed.ordinary.takeLineEvent
          (fun s n f => hkeep (portTake_changes n f s) rfl) (fun s n f x => hkeep (portAppend_changes n f x s) rfl)
          (fun s n dir m => hkeep (setMirror_changes n dir m s) rfl) d)
        (fun heq => absurd heq hselect) hc)
  | false =>
    by_cases hsetup : ∃ off a, c = .setupReadAnswer off a
    · obtain ⟨off, a, rfl⟩ := hsetup
      refine answers_taken (WorkKeeps.refl s) ?_
      split
      · exact WorkKeeps.refl s
      · split
        · dsimp only
          split
          · unfold setupDone
            split
            · exact ⟨fun _ _ _ _ _ => id⟩
            · dsimp only
              split
              · exact ⟨fun _ _ _ _ _ => id⟩
              · exact WorkKeeps.of_idle rfl
          · exact ⟨fun _ _ _ _ _ => id⟩
        · exact WorkKeeps.refl s
    · have hparts : Part.cu.isIn (commandParts c) = false := by
        cases c with
        | setupReadAnswer off a => exact absurd ⟨off, a, rfl⟩ hsetup
        | _ => cases hc <;> cases hreset <;> rfl
      exact exec_keeps_of_parts fun t h => hkeep h hparts

/-! ### The snapshot under every command -/

theorem snapshotSound_iff (s : State) :
    SnapshotSound s ↔ ∀ q n a re bs, s.cu.work = some (.snapshot q n a re bs) → (s.stream n).defined = true := by
  unfold SnapshotSound
  split
  case h_1 hw => exact ⟨fun h q n a re bs hw' => by cases hw.symm.trans hw'; exact h, fun h => h _ _ _ _ _ hw⟩
  case h_2 hno => exact ⟨fun _ q n a re bs hw => absurd hw (hno q n a re bs), fun _ => trivial⟩

theorem snapshotSound_of_idle (h : s.cu.work = none) : SnapshotSound s :=
  (snapshotSound_iff s).mpr fun _ _ _ _ _ hw => nomatch h.symm.trans hw

theorem WorkKeeps.snapshotSound (hw : WorkKeeps s t) (hs : StreamsKeep definitionOf s t) (h : SnapshotSound s) :
    SnapshotSound t := (snapshotSound_iff t).mpr fun q n a re bs ht => by
  rw [hs.defined]
  exact (snapshotSound_iff s).mp h q n a re bs (hw.snapshot q n a re bs ht)

/-- Each way in which a control record's execution ends leaves no snapshot but of a DEFINED stream. -/
theorem controlClosed_snapshotSound : ControlClosed (fun _ _ => True) (fun _ t => SnapshotSound t) where
  refl := fun _ => trivial
  trans := fun _ _ => trivial
  other := fun _ => trivial
  drain := fun _ => trivial
  event := fun _ _ _ _ => trivial
  complete := fun _ _ => trivial
  job := fun _ _ => trivial
  fail := fun _ _ _ => trivial
  run := fun _ _ _ _ => trivial
  finish := fun _ => trivial
  after := fun _ h => h
  conclude := fun {s q} st n d hit _ => snapshotSound_of_idle (finishControl_work q st n d hit s)
  park := fun hx => by
    obtain ⟨pos, h, body, hh⟩ := (ctlIn_iff _ _).mp hx
    unfold parkControl
    rw [hh]
    exact snapshotSound_of_idle rfl
  busy := fun {s} w _ _ hdef => (snapshotSound_iff _).mpr fun q n a re bs hw =>
    hdef q n a re bs (Option.some.inj hw)

theorem exec_snapshotSound (c : Instr) (h : SnapshotSound s) : Answers SnapshotSound (exec c s) := by
  cases hreset : resets c with
  | true =>
    cases c with
    | clear =>
      refine answers_taken h ?_
      split
      · exact snapshotSound_of_idle rfl
      · exact h
    | pinReset => exact answers_next (snapshotSound_of_idle rfl)
    | _ => cases hreset
  | false =>
    by_cases hselect : c = .controlSelect
    · rw [hselect]
      refine exec_controlSelect_answers h fun q pos hd body _ _ _ => ?_
      exact controlClosed_snapshotSound.executeControl_of_tables (fun _ => trivial) body (by rw [executing_head]; rfl)
    · exact fun t ht => (exec_workKeeps hreset hselect t ht).snapshotSound (exec_definitionsKeep hreset hselect t ht) h

end

/-- Settles O16: each operation moves a stream within its accounting, and a job's claims come and go with it. -/
theorem streamsStaySound : Obligations.StreamsStaySound := fun s t h he hdata hrings _ hb hs hstep => by
  obtain rfl | ⟨c, l, hc⟩ := step_next_cases hstep
  · exact hs
  · have hlaws : StreamLaws { s with pending := l } := { hs.laws with }
    have hbind : BindLaws { s with pending := l } := { hb.laws with }
    exact (exec_streamLaws (s := { s with pending := l }) c { h with } { he with } hdata { hrings with } hbind hlaws hs.snapshot t hc).sound
      (exec_snapshotSound (s := { s with pending := l }) c hs.snapshot t hc)

end Sys2Proof.Machine
end

section
/-! SUPPORT. The laws of the chain cache and its loader, apart from the block's state: the entries, the requests, their waiters,
the use of entries and the pins (R76 to R87). -/

namespace Sys2Proof.Machine

open Sys2Proof

/-! ### The entries, the LRU list and the fill (R76, R78, R82) -/

/-- VALID and not stale: such entries stand in the LRU list. -/
def Live (x : Entry) : Prop := x.estate = .valid ∧ x.stale = false

/-- What one entry obeys. -/
structure EntryFits (x : Entry) : Prop where
  empty : x.estate = .empty → x = Entry.free
  pinned : x.pinned = true → Live x
  stale : x.estate = .valid → x.stale = true → x.inuse = true

/-- The entries with the LRU list and the entry and address of the fill under way. -/
structure EntryLaws (E : Fin 8 → Entry) (lru : List (Fin 8)) (fill : Option (Fin 8 × Word)) : Prop where
  fits : ∀ e, EntryFits (E e)
  distinct : ∀ e f, (E e).estate ≠ .empty → (E f).estate ≠ .empty → (E e).addr = (E f).addr → e = f
  filling : ∀ e, (E e).estate = .filling ↔ ∃ a, fill = some (e, a)
  fillAddr : ∀ e a, fill = some (e, a) → (E e).addr = a
  lruOnce : lru.Nodup
  lru : ∀ e, e ∈ lru ↔ Live (E e)

theorem entryFits_free : EntryFits Entry.free := ⟨fun _ => rfl, nofun, nofun⟩

theorem not_live_of_state {x : Entry} (h : x.estate ≠ .valid) : ¬ Live x := fun hl => h hl.1

section

variable {E : Fin 8 → Entry} {lru lru' : List (Fin 8)} {fill fill' : Option (Fin 8 × Word)} {e : Fin 8} {x : Entry} {a : Word}

/-- One entry changes, and with it its place in the LRU list and the fill. -/
theorem EntryLaws.update (h : EntryLaws E lru fill) (hfits : EntryFits x)
    (haddr : x.estate ≠ .empty → ∀ f, f ≠ e → (E f).estate ≠ .empty → (E f).addr ≠ x.addr)
    (hfilling : x.estate = .filling ↔ ∃ a, fill' = some (e, a)) (hfillAddr : ∀ a, fill' = some (e, a) → x.addr = a)
    (hfill : ∀ f, f ≠ e → ∀ a, fill' = some (f, a) ↔ fill = some (f, a)) (honce : lru'.Nodup)
    (hlru : ∀ f, f ≠ e → (f ∈ lru' ↔ f ∈ lru)) (hlive : e ∈ lru' ↔ Live x) :
    EntryLaws (Function.update E e x) lru' fill' := by
  have hself : Function.update E e x e = x := Function.update_self ..
  have hne : ∀ {f}, f ≠ e → Function.update E e x f = E f := fun hf => Function.update_of_ne hf ..
  refine ⟨fun f => ?_, fun f g hf hg hfg => ?_, fun f => ?_, fun f a hf => ?_, honce, fun f => ?_⟩
  · by_cases hf : f = e
    · rw [hf, hself]
      exact hfits
    · rw [hne hf]
      exact h.fits f
  · by_cases hfe : f = e
    · by_cases hge : g = e
      · rw [hfe, hge]
      · rw [hfe, hself] at hf hfg
        rw [hne hge] at hg hfg
        exact absurd hfg.symm (haddr hf g hge hg)
    · rw [hne hfe] at hf hfg
      by_cases hge : g = e
      · rw [hge, hself] at hg hfg
        exact absurd hfg (haddr hg f hfe hf)
      · rw [hne hge] at hg hfg
        exact h.distinct f g hf hg hfg
  · by_cases hf : f = e
    · rw [hf, hself]
      exact hfilling
    · rw [hne hf, h.filling]
      simp only [hfill f hf]
  · by_cases hfe : f = e
    · subst hfe
      rw [hself]
      exact hfillAddr a hf
    · rw [hne hfe]
      exact h.fillAddr f a ((hfill f hfe a).mp hf)
  · by_cases hf : f = e
    · rw [hf, hself]
      exact hlive
    · rw [hne hf, hlru f hf]
      exact h.lru f

/-- The address of an entry is that of no other. -/
theorem EntryLaws.addr_ne (h : EntryLaws E lru fill) (he : (E e).estate ≠ .empty) (f : Fin 8) (hf : f ≠ e)
    (hfe : (E f).estate ≠ .empty) : (E f).addr ≠ (E e).addr := fun heq => hf (h.distinct f e hfe he heq)

/-- The flags of an entry change, and not whether it stands in the LRU list. -/
theorem EntryLaws.flags (h : EntryLaws E lru fill) (hfits : EntryFits x) (hstate : x.estate = (E e).estate)
    (haddr : x.addr = (E e).addr) (hlive : Live x ↔ Live (E e)) : EntryLaws (Function.update E e x) lru fill := by
  refine h.update hfits (fun he f hf hfe => ?_) (by rw [hstate, h.filling]) (fun a ha => by rw [haddr, h.fillAddr e a ha])
    (fun _ _ _ => Iff.rfl) h.lruOnce (fun _ _ => Iff.rfl) (by rw [h.lru, hlive])
  rw [haddr]
  exact h.addr_ne (by rwa [← hstate]) f hf hfe

theorem mem_filter_ne {f : Fin 8} : f ∈ lru.filter (fun y => y != e) ↔ f ∈ lru ∧ f ≠ e := by
  rw [List.mem_filter, bne_iff_ne]

/-- An entry that is not being filled leaves the LRU list, VALID and stale or EMPTY. -/
theorem EntryLaws.leave (h : EntryLaws E lru fill) (hfits : EntryFits x) (hold : (E e).estate ≠ .filling)
    (hstate : x.estate ≠ .filling) (hlive : ¬ Live x)
    (haddr : x.estate ≠ .empty → (E e).estate ≠ .empty ∧ x.addr = (E e).addr) :
    EntryLaws (Function.update E e x) (lru.filter (fun y => y != e)) fill := by
  refine h.update hfits (fun he f hf hfe => ?_) ⟨fun hx => absurd hx hstate, fun hx => absurd ((h.filling e).mpr hx) hold⟩
    (fun a ha => absurd ((h.filling e).mpr ⟨a, ha⟩) hold) (fun _ _ _ => Iff.rfl) (h.lruOnce.filter _) (fun f hf => ?_) ?_
  · obtain ⟨hold, heq⟩ := haddr he
    rw [heq]
    exact h.addr_ne hold f hf hfe
  · rw [mem_filter_ne]
    exact ⟨fun hm => hm.1, fun hm => ⟨hm, hf⟩⟩
  · rw [mem_filter_ne]
    exact ⟨fun hm => absurd rfl hm.2, fun hl => absurd hl hlive⟩

/-- The fill under way ends, its entry VALID or EMPTY. -/
theorem EntryLaws.fillEnd (h : EntryLaws E lru (some (e, a))) (hfits : EntryFits x) (hstate : x.estate ≠ .filling)
    (haddr : x.estate ≠ .empty → x.addr = a) (hlru : lru' = lru ∧ ¬ Live x ∨ lru' = lru ++ [e] ∧ Live x) :
    EntryLaws (Function.update E e x) lru' none := by
  have hfilling : (E e).estate = .filling := (h.filling e).mpr ⟨a, rfl⟩
  have hnot : e ∉ lru := fun hm => absurd (hfilling.symm.trans ((h.lru e).mp hm).1) nofun
  refine h.update hfits (fun he f hf hfe => ?_) ⟨fun hx => absurd hx hstate, nofun⟩ nofun (fun f hf b => ⟨nofun, fun hb => ?_⟩)
    ?_ (fun f hf => ?_) ?_
  · rw [haddr he, ← h.fillAddr e a rfl]
    exact h.addr_ne (by rw [hfilling]; nofun) f hf hfe
  · exact absurd (congrArg Prod.fst (Option.some.inj hb)).symm hf
  · obtain ⟨rfl, -⟩ | ⟨rfl, -⟩ := hlru
    · exact h.lruOnce
    · exact List.nodup_append.mpr ⟨h.lruOnce, List.nodup_singleton e, fun y hy z hz hyz =>
        hnot (List.mem_singleton.mp hz ▸ hyz ▸ hy)⟩
  · obtain ⟨rfl, -⟩ | ⟨rfl, -⟩ := hlru
    · rfl
    · rw [List.mem_append, List.mem_singleton, or_iff_left hf]
  · obtain ⟨rfl, hl⟩ | ⟨rfl, hl⟩ := hlru
    · exact ⟨fun hm => absurd hm hnot, fun hx => absurd hx hl⟩
    · exact ⟨fun _ => hl, fun _ => List.mem_append_right _ (List.mem_singleton_self e)⟩

/-- A fill begins in an entry, for an address that no other entry holds. -/
theorem EntryLaws.fillBegin (h : EntryLaws E lru none) (ha : ∀ f, (E f).estate ≠ .empty → (E f).addr ≠ a) :
    EntryLaws (Function.update E e { Entry.free with estate := .filling, addr := a }) (lru.filter (fun y => y != e))
      (some (e, a)) := by
  refine h.update ⟨nofun, nofun, nofun⟩ (fun _ f _ hfe => ha f hfe) ⟨fun _ => ⟨a, rfl⟩, fun _ => rfl⟩
    (fun b hb => congrArg Prod.snd (Option.some.inj hb)) (fun f hf b => ⟨fun hb => ?_, nofun⟩) (h.lruOnce.filter _) (fun f hf => ?_) ?_
  · exact absurd (congrArg Prod.fst (Option.some.inj hb)).symm hf
  · rw [mem_filter_ne]
    exact ⟨fun hm => hm.1, fun hm => ⟨hm, hf⟩⟩
  · rw [mem_filter_ne]
    exact ⟨fun hm => absurd rfl hm.2, fun hl => absurd hl (not_live_of_state nofun)⟩

theorem EntryLaws.touch (h : EntryLaws E lru fill) (e : Fin 8) : EntryLaws E (lruTouch e lru) fill := by
  have hperm : (lruTouch e lru).Perm lru := by
    unfold lruTouch
    split
    case isTrue hm => exact (List.perm_append_singleton e _).trans (List.perm_cons_erase (List.contains_iff_mem.mp hm)).symm
    case isFalse => exact List.Perm.refl _
  exact { h with lruOnce := hperm.nodup_iff.mpr h.lruOnce, lru := fun f => by rw [hperm.mem_iff, h.lru] }

end

/-! ### The requests (R81) -/

/-- The request list with the entries. -/
structure RequestLaws (E : Fin 8 → Entry) (reqs : List Request) : Prop where
  addrs : (reqs.map Request.addr).Nodup
  places : (reqs.map Request.place).Nodup
  apart : ∀ r ∈ reqs, ∀ e, (E e).estate ≠ .empty → (E e).addr ≠ r.addr

section

variable {E : Fin 8 → Entry} {reqs : List Request} {e : Fin 8} {x : Entry}

/-- An entry changes for another with its address, or is EMPTY then. -/
theorem RequestLaws.update (h : RequestLaws E reqs)
    (hx : x.estate ≠ .empty → ∀ r ∈ reqs, x.addr ≠ r.addr) : RequestLaws (Function.update E e x) reqs := by
  refine ⟨h.addrs, h.places, fun r hr f hf => ?_⟩
  by_cases hfe : f = e
  · rw [hfe, Function.update_self] at hf ⊢
    exact hx hf r hr
  · rw [Function.update_of_ne hfe] at hf ⊢
    exact h.apart r hr f hf

theorem RequestLaws.update_same (h : RequestLaws E reqs)
    (hx : x.estate ≠ .empty → (E e).estate ≠ .empty ∧ x.addr = (E e).addr) : RequestLaws (Function.update E e x) reqs :=
  h.update fun hne r hr => by
    obtain ⟨hold, heq⟩ := hx hne
    rw [heq]
    exact h.apart r hr e hold

theorem RequestLaws.sublist {l : List Request} (h : RequestLaws E reqs) (hl : l.Sublist reqs) : RequestLaws E l :=
  ⟨h.addrs.sublist (hl.map _), h.places.sublist (hl.map _), fun r hr => h.apart r (hl.subset hr)⟩

/-- The waiters alone change. -/
theorem RequestLaws.map (h : RequestLaws E reqs) {f : Request → Request} (haddr : ∀ r, (f r).addr = r.addr)
    (hplace : ∀ r, (f r).place = r.place) : RequestLaws E (reqs.map f) := by
  have haddrs : (reqs.map f).map Request.addr = reqs.map Request.addr := by
    rw [List.map_map]
    exact List.map_congr_left fun r _ => haddr r
  have hplaces : (reqs.map f).map Request.place = reqs.map Request.place := by
    rw [List.map_map]
    exact List.map_congr_left fun r _ => hplace r
  refine ⟨haddrs ▸ h.addrs, hplaces ▸ h.places, fun r hr e he => ?_⟩
  obtain ⟨k, hk, rfl⟩ := List.mem_map.mp hr
  rw [haddr]
  exact h.apart k hk e he

theorem RequestLaws.place {r : Request} (h : RequestLaws E reqs) (haddr : ∀ k ∈ reqs, k.addr ≠ r.addr)
    (hplace : ∀ k ∈ reqs, k.place ≠ r.place) (hentry : ∀ e, (E e).estate ≠ .empty → (E e).addr ≠ r.addr) :
    RequestLaws E (reqs ++ [r]) := by
  refine ⟨?_, ?_, fun k hk => ?_⟩
  · rw [List.map_append, List.nodup_append]
    refine ⟨h.addrs, List.nodup_singleton _, fun y hy z hz => ?_⟩
    obtain ⟨k, hk, rfl⟩ := List.mem_map.mp hy
    rw [List.mem_singleton.mp hz]
    exact haddr k hk
  · rw [List.map_append, List.nodup_append]
    refine ⟨h.places, List.nodup_singleton _, fun y hy z hz => ?_⟩
    obtain ⟨k, hk, rfl⟩ := List.mem_map.mp hy
    rw [List.mem_singleton.mp hz]
    exact hplace k hk
  · obtain hk | hk := List.mem_append.mp hk
    · exact h.apart k hk
    · rw [List.mem_singleton.mp hk]
      exact hentry

end

/-! ### The waiters (R81, R82) -/

/-- A waiter of a request or a fill of an address. -/
def ChainView.WaitsFor (x : ChainView) (w : ChainWait) (a : Word) : Prop := x.waits = some (some w, a) ∨ x.waits = some (none, a)

/-- All waiters of the loader, those of the fill first. -/
def waiterList (fill : Option (Word × List (Fin 4))) (reqs : List Request) : List (Fin 4) :=
  (fill.map Prod.snd).getD [] ++ reqs.flatMap Request.waiters

/-- The waiters of the fill, with its address, and of the requests. -/
structure WaitLaws (v : Fin 4 → ChainView) (fill : Option (Word × List (Fin 4))) (reqs : List Request) : Prop where
  waited : ∀ r ∈ reqs, r.waiters ≠ []
  once : (waiterList fill reqs).Nodup
  ofFill : ∀ a l, fill = some (a, l) → ∀ q ∈ l, (v q).WaitsFor .filling a
  ofReq : ∀ r ∈ reqs, ∀ q ∈ r.waiters, (v q).WaitsFor .requested r.addr

section

variable {v v' : Fin 4 → ChainView} {fill : Option (Word × List (Fin 4))} {reqs : List Request} {q : Fin 4} {a : Word}
  {l : List (Fin 4)}

theorem mem_waiterList : q ∈ waiterList fill reqs ↔ (∃ a l, fill = some (a, l) ∧ q ∈ l) ∨ ∃ r ∈ reqs, q ∈ r.waiters := by
  rw [waiterList, List.mem_append, List.mem_flatMap]
  cases fill with
  | none => simp
  | some p =>
    obtain ⟨a, l⟩ := p
    simp

/-- A waiter waits. -/
theorem WaitLaws.waits (h : WaitLaws v fill reqs) (hq : q ∈ waiterList fill reqs) : ∃ w a, (v q).WaitsFor w a := by
  obtain ⟨a, l, hf, hl⟩ | ⟨r, hr, hw⟩ := mem_waiterList.mp hq
  · exact ⟨_, _, h.ofFill a l hf q hl⟩
  · exact ⟨_, _, h.ofReq r hr q hw⟩

theorem WaitLaws.not_mem (h : WaitLaws v fill reqs) (hq : (v q).waits = none) : q ∉ waiterList fill reqs := fun hm => by
  obtain ⟨w, a, hw | hw⟩ := h.waits hm
  · cases hq.symm.trans hw
  · cases hq.symm.trans hw

/-- A job that waits for a request waits for no fill. -/
theorem WaitLaws.not_mem_of_requested (h : WaitLaws v fill reqs) (hq : ∀ w a, (v q).WaitsFor w a → w ≠ .filling)
    (hr : ∀ r ∈ reqs, q ∉ r.waiters) : q ∉ waiterList fill reqs := fun hm => by
  obtain ⟨a, l, hf, hl⟩ | ⟨r, hr', hw⟩ := mem_waiterList.mp hm
  · exact hq _ _ (h.ofFill a l hf q hl) rfl
  · exact hr r hr' hw

theorem WaitLaws.congr (h : WaitLaws v fill reqs) (hv : ∀ k ∈ waiterList fill reqs, (v' k).waits = (v k).waits) :
    WaitLaws v' fill reqs where
  waited := h.waited
  once := h.once
  ofFill := fun a l hf q hl => by
    rw [ChainView.WaitsFor, hv q (mem_waiterList.mpr (.inl ⟨a, l, hf, hl⟩))]
    exact h.ofFill a l hf q hl
  ofReq := fun r hr q hw => by
    rw [ChainView.WaitsFor, hv q (mem_waiterList.mpr (.inr ⟨r, hr, hw⟩))]
    exact h.ofReq r hr q hw

/-- A head that is no waiter changes. -/
theorem WaitLaws.update (h : WaitLaws v fill reqs) (hq : q ∉ waiterList fill reqs) (x : ChainView) :
    WaitLaws (Function.update v q x) fill reqs := h.congr fun k hk => by
  have hne : k ≠ q := fun heq => hq (heq ▸ hk)
  rw [Function.update_of_ne hne]

theorem WaitLaws.joinFill (h : WaitLaws v (some (a, l)) reqs) (hq : q ∉ waiterList (some (a, l)) reqs)
    (hw : (v q).WaitsFor .filling a) : WaitLaws v (some (a, l ++ [q])) reqs where
  waited := h.waited
  once := by
    have hperm : (waiterList (some (a, l ++ [q])) reqs).Perm (q :: waiterList (some (a, l)) reqs) := by
      simp only [waiterList, Option.map_some, Option.getD_some, List.append_assoc, List.singleton_append]
      exact List.perm_middle
    exact hperm.nodup_iff.mpr (List.nodup_cons.mpr ⟨hq, h.once⟩)
  ofFill := fun b k hb p hp => by
    obtain ⟨rfl, rfl⟩ := Prod.mk.inj (Option.some.inj hb)
    obtain hp | hp := List.mem_append.mp hp
    · exact h.ofFill a l rfl p hp
    · rw [List.mem_singleton.mp hp]
      exact hw
  ofReq := h.ofReq

/-- A queue joins the requests of an address. -/
def joined (a : Word) (q : Fin 4) (r : Request) : Request := if r.addr = a then { r with waiters := r.waiters ++ [q] } else r

theorem joined_addr (a : Word) (q : Fin 4) (r : Request) : (joined a q r).addr = r.addr := by
  unfold joined
  split <;> rfl

theorem joined_place (a : Word) (q : Fin 4) (r : Request) : (joined a q r).place = r.place := by
  unfold joined
  split <;> rfl

theorem joined_of_ne {r : Request} (h : r.addr ≠ a) : joined a q r = r := if_neg h

theorem waiters_joined_perm (hn : (reqs.map Request.addr).Nodup) (ha : ∃ r ∈ reqs, r.addr = a) :
    ((reqs.map (joined a q)).flatMap Request.waiters).Perm (q :: reqs.flatMap Request.waiters) := by
  induction reqs with
  | nil =>
    obtain ⟨r, hr, -⟩ := ha
    cases hr
  | cons k rest ih =>
    obtain ⟨hk, hrest⟩ := List.nodup_cons.mp hn
    rw [List.map_cons, List.flatMap_cons, List.flatMap_cons]
    by_cases hka : k.addr = a
    · have hsame : rest.map (joined a q) = rest := List.map_congr_left (fun r hr => joined_of_ne fun hra =>
        hk (List.mem_map.mpr ⟨r, hr, hra.trans hka.symm⟩)) |>.trans (List.map_id _)
      rw [hsame, joined, if_pos hka, List.append_assoc, List.singleton_append]
      exact List.perm_middle
    · have hrest' : ∃ r ∈ rest, r.addr = a := by
        obtain ⟨r, hr, hra⟩ := ha
        obtain rfl | hr := List.mem_cons.mp hr
        · exact absurd hra hka
        · exact ⟨r, hr, hra⟩
      rw [joined_of_ne hka]
      exact ((ih hrest hrest').append_left _).trans List.perm_middle

theorem WaitLaws.joinRequest (h : WaitLaws v fill reqs) (hn : (reqs.map Request.addr).Nodup) (ha : ∃ r ∈ reqs, r.addr = a)
    (hq : q ∉ waiterList fill reqs) (hw : (v q).WaitsFor .requested a) : WaitLaws v fill (reqs.map (joined a q)) where
  waited := fun r hr => by
    obtain ⟨k, hk, rfl⟩ := List.mem_map.mp hr
    unfold joined
    split
    · exact List.append_ne_nil_of_right_ne_nil _ (List.cons_ne_nil q [])
    · exact h.waited k hk
  once := by
    have hperm : (waiterList fill (reqs.map (joined a q))).Perm (q :: waiterList fill reqs) :=
      ((waiters_joined_perm hn ha).append_left _).trans List.perm_middle
    exact hperm.nodup_iff.mpr (List.nodup_cons.mpr ⟨hq, h.once⟩)
  ofFill := h.ofFill
  ofReq := fun r hr p hp => by
    obtain ⟨k, hk, rfl⟩ := List.mem_map.mp hr
    rw [joined_addr]
    unfold joined at hp
    split at hp
    case isTrue hka =>
      obtain hp | hp := List.mem_append.mp hp
      · exact h.ofReq k hk p hp
      · rw [List.mem_singleton.mp hp, hka]
        exact hw
    case isFalse => exact h.ofReq k hk p hp

theorem WaitLaws.place (h : WaitLaws v fill reqs) (p : Place) (hq : q ∉ waiterList fill reqs)
    (hw : (v q).WaitsFor .requested a) : WaitLaws v fill (reqs ++ [{ addr := a, place := p, waiters := [q] }]) where
  waited := fun r hr => by
    obtain hr | hr := List.mem_append.mp hr
    · exact h.waited r hr
    · rw [List.mem_singleton.mp hr]
      exact List.cons_ne_nil q []
  once := by
    have hperm : (waiterList fill (reqs ++ [{ addr := a, place := p, waiters := [q] }])).Perm (q :: waiterList fill reqs) := by
      simp only [waiterList, List.flatMap_append, List.flatMap_cons, List.flatMap_nil, List.append_nil, ← List.append_assoc]
      exact List.perm_append_singleton ..
    exact hperm.nodup_iff.mpr (List.nodup_cons.mpr ⟨hq, h.once⟩)
  ofFill := h.ofFill
  ofReq := fun r hr k hk => by
    obtain hr | hr := List.mem_append.mp hr
    · exact h.ofReq r hr k hk
    · rw [List.mem_singleton.mp hr] at hk ⊢
      rw [List.mem_singleton.mp hk]
      exact hw

/-- A queue leaves the waiters; a request without any left is not a request any more. -/
def withdrawn (q : Fin 4) (reqs : List Request) : List Request :=
  (reqs.map fun r => { r with waiters := r.waiters.filter (fun w => w != q) }).filter fun r => !r.waiters.isEmpty

theorem mem_withdrawn {r : Request} (hr : r ∈ withdrawn q reqs) : r.waiters ≠ [] ∧
    ∃ k ∈ reqs, r.addr = k.addr ∧ r.waiters = k.waiters.filter (fun w => w != q) := by
  obtain ⟨hm, hne⟩ := List.mem_filter.mp hr
  obtain ⟨k, hk, rfl⟩ := List.mem_map.mp hm
  exact ⟨by simpa using hne, k, hk, rfl, rfl⟩

theorem waiters_withdrawn (q : Fin 4) (reqs : List Request) :
    (withdrawn q reqs).flatMap Request.waiters = (reqs.flatMap Request.waiters).filter (fun w => w != q) := by
  induction reqs with
  | nil => rfl
  | cons r rest ih =>
    rw [withdrawn] at ih ⊢
    rw [List.map_cons, List.flatMap_cons, List.filter_append, ← ih]
    cases hr : r.waiters.filter (fun w => w != q) with
    | nil => rw [List.filter_cons_of_neg (by simp), List.nil_append]
    | cons k ks => rw [List.filter_cons_of_pos (by simp), List.flatMap_cons]

theorem WaitLaws.withdraw (h : WaitLaws v fill reqs) (q : Fin 4) :
    WaitLaws v (fill.map fun p => (p.1, p.2.filter (fun w => w != q))) (withdrawn q reqs) ∧
      q ∉ waiterList (fill.map fun p => (p.1, p.2.filter (fun w => w != q))) (withdrawn q reqs) := by
  have hlist : waiterList (fill.map fun p => (p.1, p.2.filter (fun w => w != q))) (withdrawn q reqs) =
      (waiterList fill reqs).filter (fun w => w != q) := by
    rw [waiterList, waiterList, waiters_withdrawn, List.filter_append]
    cases fill <;> rfl
  refine ⟨⟨fun r hr => (mem_withdrawn hr).1, hlist ▸ h.once.filter _, fun a l hf k hk => ?_, fun r hr k hk => ?_⟩, ?_⟩
  · obtain ⟨p, hp, heq⟩ := Option.map_eq_some_iff.mp hf
    obtain ⟨rfl, rfl⟩ := Prod.mk.inj heq
    exact h.ofFill p.1 p.2 hp k (List.mem_filter.mp hk).1
  · obtain ⟨-, r', hr', haddr, hws⟩ := mem_withdrawn hr
    rw [hws] at hk
    rw [haddr]
    exact h.ofReq r' hr' k (List.mem_filter.mp hk).1
  · rw [hlist, List.mem_filter, bne_iff_ne]
    exact fun hm => hm.2 rfl

/-- The fill ends. -/
theorem WaitLaws.endFill (h : WaitLaws v fill reqs) : WaitLaws v none reqs :=
  { h with once := (List.nodup_append.mp h.once).2.1, ofFill := nofun }

/-- The oldest request leaves the list. -/
theorem WaitLaws.next {r : Request} (h : WaitLaws v none (r :: reqs)) :
    WaitLaws v none reqs ∧ ∀ q ∈ r.waiters, q ∉ waiterList none reqs := by
  have honce : (r.waiters ++ reqs.flatMap Request.waiters).Nodup := h.once
  obtain ⟨-, hrest, hdisj⟩ := List.nodup_append.mp honce
  exact ⟨⟨fun k hk => h.waited k (List.mem_cons_of_mem _ hk), hrest, nofun, fun k hk => h.ofReq k (List.mem_cons_of_mem _ hk)⟩,
    fun q hq hm => hdisj q hq q hm rfl⟩

/-- The waiters of a request become those of the fill. -/
theorem WaitLaws.beginFill {r : Request} (h : WaitLaws v none (r :: reqs)) (hv : ∀ q ∈ r.waiters, (v' q).WaitsFor .filling r.addr)
    (hother : ∀ q, q ∉ r.waiters → (v' q).waits = (v q).waits) : WaitLaws v' (some (r.addr, r.waiters)) reqs := by
  obtain ⟨hrest, hnot⟩ := h.next
  refine { hrest.congr (v' := v') fun k hk => hother k fun hm => hnot k hm hk with once := h.once, ofFill := fun a l hf q hq => ?_ }
  obtain ⟨rfl, rfl⟩ := Prod.mk.inj (Option.some.inj hf)
  exact hv q hq

end

/-! ### The use of entries (R86) -/

/-- INUSE marks the entry of the RUNNING job, and the entry `u` that a STARTING job begins to use. -/
structure UseLaws (u : Option (Fin 8)) (v : Fin 4 → ChainView) (E : Fin 8 → Entry) : Prop where
  held : ∀ e, (E e).inuse = true ↔ (∃ q, (v q).job = some .running ∧ (v q).entry = some e) ∨ u = some e
  holder : ∀ q e, (v q).entry = some e →
    (E e).estate = .valid ∧ ((v q).job = some .running ∨ (v q).job = some .starting ∧ u = some e)
  user : ∀ e, u = some e → (E e).estate = .valid

section

variable {u : Option (Fin 8)} {v v' : Fin 4 → ChainView} {E E' : Fin 8 → Entry} {q : Fin 4} {e : Fin 8} {x : ChainView}

theorem UseLaws.congr (h : UseLaws u v E) (hjob : ∀ k, (v' k).job = (v k).job ∧ (v' k).entry = (v k).entry)
    (hinuse : ∀ f, (E' f).inuse = (E f).inuse)
    (hvalid : ∀ f, (E f).estate = .valid → (E f).inuse = true → (E' f).estate = .valid) : UseLaws u v' E' where
  held := fun f => by
    rw [hinuse, h.held]
    simp only [hjob]
  holder := fun k f hk => by
    rw [(hjob k).2] at hk
    rw [(hjob k).1]
    obtain ⟨hv, huse⟩ := h.holder k f hk
    refine ⟨hvalid f hv ((h.held f).mpr ?_), huse⟩
    obtain hr | ⟨-, hu⟩ := huse
    · exact .inl ⟨k, hr, hk⟩
    · exact .inr hu
  user := fun f hf => hvalid f (h.user f hf) ((h.held f).mpr (.inr hf))

/-- While no job uses an entry, none is INUSE. -/
theorem useLaws_of_none (hinuse : ∀ e, (E e).inuse = false) (hentry : ∀ k, (v k).entry = none) : UseLaws none v E where
  held := fun e => by
    rw [hinuse]
    refine ⟨nofun, fun h => ?_⟩
    obtain ⟨k, -, hk⟩ | h := h
    · cases (hentry k).symm.trans hk
    · cases h
  holder := fun k e hk => nomatch (hentry k).symm.trans hk
  user := nofun

/-- A head without a job does not hold an entry. -/
theorem UseLaws.entry_of_no_job (h : UseLaws u v E) (hq : (v q).job = none) : (v q).entry = none := by
  cases he : (v q).entry with
  | none => rfl
  | some e =>
    obtain ⟨-, hr | ⟨hs, -⟩⟩ := h.holder q e he
    · cases hq.symm.trans hr
    · cases hq.symm.trans hs

end

/-! ### The pins (R87) -/

/-- An entry holds the address PINNED, or a head waits to pin it. -/
def PinnedAddr (v : Fin 4 → ChainView) (E : Fin 8 → Entry) (a : Word) : Prop :=
  (∃ e, (E e).pinned = true ∧ (E e).addr = a) ∨ ∃ q, (v q).pins = some a

/-- At most 7 addresses are pinned or wait to be. -/
def PinLaw (v : Fin 4 → ChainView) (E : Fin 8 → Entry) : Prop :=
  ∃ l : List Word, l.length ≤ Config.maxPins ∧ ∀ a, PinnedAddr v E a → a ∈ l

theorem PinLaw.mono {v v' : Fin 4 → ChainView} {E E' : Fin 8 → Entry} (h : PinLaw v E)
    (hsub : ∀ a, PinnedAddr v' E' a → PinnedAddr v E a) : PinLaw v' E' := by
  obtain ⟨l, hl, hmem⟩ := h
  exact ⟨l, hl, fun a ha => hmem a (hsub a ha)⟩

end Sys2Proof.Machine
end

section
/-! SUPPORT. The laws of the chain cache in a state, and what each kind of change keeps of them (R76 to R87). -/

namespace Sys2Proof.Machine

open Sys2Proof

/-! ### The laws of a state -/

/-- What the cache and the loader see of the heads. -/
def looks (s : State) : Fin 4 → ChainView := fun k => chainView (s.queue k).head

/-- The entry and the address of the fill under way. -/
def fillTarget (s : State) : Option (Fin 8 × Word) := s.cache.fill.map fun f => (f.entry, f.addr)

/-- The address and the waiters of the fill under way. -/
def fillWaiters (s : State) : Option (Word × List (Fin 4)) := s.cache.fill.map fun f => (f.addr, f.waiters)

/-- The waiters of the loader. -/
def waitersOf (s : State) : List (Fin 4) := waiterList (fillWaiters s) s.cache.reqs

/-- The laws of the cache in a state in which a STARTING job begins to use the entry `u`. -/
structure CacheLaws (u : Option (Fin 8)) (s : State) : Prop where
  entries : EntryLaws s.entry s.cache.lru (fillTarget s)
  requests : RequestLaws s.entry s.cache.reqs
  waiters : WaitLaws (looks s) (fillWaiters s) s.cache.reqs
  uses : UseLaws u (looks s) s.entry
  pins : PinLaw (looks s) s.entry

section

variable {s t : State} {q : Fin 4} {u : Option (Fin 8)}

theorem fillTarget_eq_some_iff (s : State) (e : Fin 8) (a : Word) :
    fillTarget s = some (e, a) ↔ ∃ f, s.cache.fill = some f ∧ f.entry = e ∧ f.addr = a := by
  rw [fillTarget, Option.map_eq_some_iff]
  simp only [Prod.mk.injEq]

theorem fillWaiters_eq_some_iff (s : State) (a : Word) (l : List (Fin 4)) :
    fillWaiters s = some (a, l) ↔ ∃ f, s.cache.fill = some f ∧ f.addr = a ∧ f.waiters = l := by
  rw [fillWaiters, Option.map_eq_some_iff]
  simp only [Prod.mk.injEq]

theorem waitersOf_eq (s : State) : waitersOf s = allWaiters s := by
  rw [waitersOf, waiterList, allWaiters, fillWaiters, Option.map_map]
  rfl

theorem waiterSound_iff (s : State) (w : ChainWait) (a : Word) (q : Fin 4) :
    waiterSound s w a q ↔ (looks s q).WaitsFor w a := by
  unfold waiterSound ChainView.WaitsFor looks chainView
  cases hh : (s.queue q).head with
  | empty => simp [headWaits]
  | fetching pos => simp [headWaits]
  | data pos hd j =>
    cases hk : j.data.kind <;> by_cases hj : j.jstate = .starting <;> simp [headWaits, filterAddr, hk, hj]
  | control pos hd body c =>
    cases c with
    | parked =>
      cases body with
      | chainControl action addr => cases action <;> simp [headWaits, loadAddr]
      | _ => simp [headWaits, loadAddr]
    | controlWait => cases body <;> simp [headWaits]
    | executing => cases body <;> simp [headWaits]

theorem looks_job_running_iff (s : State) (q : Fin 4) : (looks s q).job = some .running ↔ headIn .running (s.queue q).head = true := by
  rw [headIn_running_eq, beq_iff_eq]
  rfl

/-! ### The pin count -/

theorem pinnedAddr_iff (s : State) (a : Word) : PinnedAddr (looks s) s.entry a ↔
    (∃ e, (s.entry e).pinned = true ∧ (s.entry e).addr = a) ∨ a ∈ pendingPins s := by
  rw [mem_pendingPins_iff, PinnedAddr]
  refine or_congr Iff.rfl (exists_congr fun q => ?_)
  exact pendingPin_eq_some_iff _ a

/-- The addresses the pin count counts. -/
def pinAddrs (s : State) : List Word := (entryIds.filter fun e => (s.entry e).pinned).map (fun e => (s.entry e).addr) ++
  (pendingPins s).filter (fun a => !pinnedAt s a)

theorem pinAddrs_length (s : State) : (pinAddrs s).length = pinCount s := by
  rw [pinAddrs, List.length_append, List.length_map, pinCount]

theorem mem_pinAddrs_iff (s : State) (a : Word) : a ∈ pinAddrs s ↔ PinnedAddr (looks s) s.entry a := by
  have hentry : a ∈ (entryIds.filter fun e => (s.entry e).pinned).map (fun e => (s.entry e).addr) ↔
      ∃ e, (s.entry e).pinned = true ∧ (s.entry e).addr = a := by
    simp only [List.mem_map, List.mem_filter, mem_entryIds, true_and]
  rw [pinnedAddr_iff, pinAddrs, List.mem_append, hentry, List.mem_filter, Bool.not_eq_true', pinnedAt_eq_false_iff]
  by_cases hp : ∃ e, (s.entry e).pinned = true ∧ (s.entry e).addr = a
  · exact ⟨fun _ => .inl hp, fun _ => .inl hp⟩
  · exact or_congr Iff.rfl ⟨fun h => h.1, fun h => ⟨h, fun e he ha => hp ⟨e, he, ha⟩⟩⟩

theorem pinAddrs_nodup (h : EntryLaws s.entry s.cache.lru (fillTarget s)) : (pinAddrs s).Nodup := by
  have hvalid : ∀ e, (s.entry e).pinned = true → (s.entry e).estate ≠ .empty := fun e he hempty =>
    absurd (hempty.symm.trans ((h.fits e).pinned he).1) nofun
  refine List.nodup_append.mpr ⟨?_, (List.nodup_dedup _).filter _, fun a ha b hb hab => ?_⟩
  · refine (entryIds_nodup.filter _).map_on fun e he f hf hef => ?_
    exact h.distinct e f (hvalid e (List.mem_filter.mp he).2) (hvalid f (List.mem_filter.mp hf).2) hef
  · obtain ⟨e, he, rfl⟩ := List.mem_map.mp ha
    have hfree := (pinnedAt_eq_false_iff s b).mp (by simpa using (List.mem_filter.mp hb).2)
    exact hfree e (List.mem_filter.mp he).2 hab

theorem pinLaw_iff (h : EntryLaws s.entry s.cache.lru (fillTarget s)) :
    PinLaw (looks s) s.entry ↔ pinCount s ≤ Config.maxPins := by
  rw [← pinAddrs_length]
  refine ⟨fun ⟨l, hl, hmem⟩ => ?_, fun hl => ⟨pinAddrs s, hl, fun a ha => (mem_pinAddrs_iff s a).mpr ha⟩⟩
  exact Nat.le_trans (List.subperm_of_subset (pinAddrs_nodup h) fun a ha => hmem a ((mem_pinAddrs_iff s a).mp ha)).length_le hl

/-- Where a new pin fits, one more address may be pinned. -/
theorem pinLaw_of_fits {v : Fin 4 → ChainView} {E : Fin 8 → Entry} {addr : Word} (hpin : PinLaw (looks s) s.entry)
    (hfits : pinRefused s true addr = false) (hsub : ∀ a, PinnedAddr v E a → a = addr ∨ PinnedAddr (looks s) s.entry a) :
    PinLaw v E := by
  obtain hmem | hlt := (pinRefused_eq_false_iff s true addr).mp hfits rfl
  · refine hpin.mono fun a ha => ?_
    obtain rfl | ha := hsub a ha
    · exact (pinnedAddr_iff s a).mpr (.inr hmem)
    · exact ha
  · refine ⟨addr :: pinAddrs s, ?_, fun a ha => ?_⟩
    · rw [List.length_cons, pinAddrs_length]
      exact hlt
    · obtain rfl | ha := hsub a ha
      · exact List.mem_cons_self
      · exact List.mem_cons_of_mem _ ((mem_pinAddrs_iff s a).mpr ha)

/-! ### The laws as the model states them -/

theorem CacheSound.laws (h : CacheSound s) : CacheLaws none s := by
  have hentries : EntryLaws s.entry s.cache.lru (fillTarget s) := by
    refine ⟨fun e => ⟨h.empty e, h.pinned e, h.stale e⟩, h.distinct, fun e => ?_, fun e a hf => ?_, h.lru.1, h.lru.2⟩
    · rw [h.filling, fillTarget]
      cases s.cache.fill <;> simp
    · obtain ⟨f, hfill, rfl, rfl⟩ := (fillTarget_eq_some_iff s e a).mp hf
      exact h.fillAddr f hfill
  refine ⟨hentries, ⟨h.requests.1, h.requests.2.1, fun r hr => (h.requests.2.2 r hr).2⟩, ⟨fun r hr => (h.requests.2.2 r hr).1, ?_,
    fun a l hf q hq => ?_, fun r hr q hq => (waiterSound_iff ..).mp (h.waitReq r hr q hq)⟩, ⟨fun e => ?_, fun q e he => ?_, nofun⟩,
    (pinLaw_iff hentries).mpr h.pins⟩
  · change (waitersOf s).Nodup
    rw [waitersOf_eq]
    exact h.waitersOnce
  · obtain ⟨f, hfill, rfl, rfl⟩ := (fillWaiters_eq_some_iff s a l).mp hf
    exact (waiterSound_iff ..).mp (h.waitFill f hfill q hq)
  · simp only [looks_job_running_iff, reduceCtorEq, or_false]
    exact h.held e
  · obtain ⟨hr, hv⟩ := h.holder q e he
    exact ⟨hv, .inl ((looks_job_running_iff s q).mpr hr)⟩

theorem CacheLaws.sound (h : CacheLaws none s) : CacheSound s where
  distinct := h.entries.distinct
  requests := ⟨h.requests.addrs, h.requests.places, fun r hr => ⟨h.waiters.waited r hr, h.requests.apart r hr⟩⟩
  filling := fun e => by
    rw [h.entries.filling, fillTarget]
    cases s.cache.fill <;> simp
  fillAddr := fun f hf => h.entries.fillAddr f.entry f.addr (by rw [fillTarget, hf]; rfl)
  lru := ⟨h.entries.lruOnce, h.entries.lru⟩
  empty := fun e => (h.entries.fits e).empty
  pinned := fun e => (h.entries.fits e).pinned
  held := fun e => by
    rw [h.uses.held]
    simp only [looks_job_running_iff, reduceCtorEq, or_false]
    rfl
  holder := fun q e he => by
    obtain ⟨hv, hr | ⟨-, hu⟩⟩ := h.uses.holder q e he
    · exact ⟨(looks_job_running_iff s q).mp hr, hv⟩
    · cases hu
  stale := fun e => (h.entries.fits e).stale
  waitersOnce := waitersOf_eq s ▸ h.waiters.once
  waitFill := fun f hf q hq => (waiterSound_iff ..).mpr (h.waiters.ofFill f.addr f.waiters (by rw [fillWaiters, hf]; rfl) q hq)
  waitReq := fun r hr q hq => (waiterSound_iff ..).mpr (h.waiters.ofReq r hr q hq)
  pins := (pinLaw_iff h.entries).mp h.pins

end

/-! ### Heads change and the cache stays -/

section

variable {s t : State} {q : Fin 4} {u : Option (Fin 8)} {e : Fin 8} {x : Entry}

theorem entry_congr (h : t.cache = s.cache) : t.entry = s.entry := funext fun e => by rw [State.entry, h, State.entry]

theorem setEntry_entry (s : State) (e : Fin 8) (x : Entry) : (s.setEntry e x).entry = Function.update s.entry e x := by
  funext f
  by_cases hf : f = e
  · rw [hf, State.entry_setEntry_self, Function.update_self]
  · rw [State.entry_setEntry_ne _ _ hf, Function.update_of_ne hf]

/-- Heads that the loader does not wait for come to rest. -/
theorem CacheLaws.quiet (h : CacheLaws u s) (hc : t.cache = s.cache) (hv : ∀ k, looks t k = looks s k ∨
    k ∉ waitersOf s ∧ (looks s k).job = none ∧ looks t k = .rests) : CacheLaws u t := by
  have hentry : t.entry = s.entry := entry_congr hc
  have hfill : fillTarget t = fillTarget s := by rw [fillTarget, hc, fillTarget]
  have hwait : fillWaiters t = fillWaiters s := by rw [fillWaiters, hc, fillWaiters]
  refine ⟨by rw [hentry, hc, hfill]; exact h.entries, by rw [hentry, hc]; exact h.requests, ?_, ?_, ?_⟩
  · rw [hwait, hc]
    refine h.waiters.congr fun k hk => ?_
    obtain hsame | ⟨hnot, -⟩ := hv k
    · rw [hsame]
    · exact absurd hk hnot
  · rw [hentry]
    refine h.uses.congr (fun k => ?_) (fun _ => rfl) fun _ hf _ => hf
    obtain hsame | ⟨-, hjob, hrests⟩ := hv k
    · rw [hsame]
      exact ⟨rfl, rfl⟩
    · rw [hrests, hjob, h.uses.entry_of_no_job hjob]
      exact ⟨rfl, rfl⟩
  · rw [hentry]
    refine h.pins.mono fun a ha => ?_
    obtain he | ⟨k, hk⟩ := ha
    · exact .inl he
    · obtain hsame | ⟨-, -, hrests⟩ := hv k
      · exact .inr ⟨k, hsame ▸ hk⟩
      · rw [hrests] at hk
        cases hk

theorem CacheLaws.stay (h : CacheLaws u s) (hc : t.cache = s.cache) (hv : ∀ k, ViewKeeps (s.queue k).head (t.queue k).head) :
    CacheLaws u t := h.quiet hc fun k => by
  obtain hsame | ⟨hu, hrests⟩ := hv k
  · exact .inl hsame
  · obtain ⟨hwaits, hjob⟩ := (unseen_iff _).mp hu
    exact .inr ⟨h.waiters.not_mem hwaits, hjob, hrests⟩

theorem CacheLaws.of_changes {F : List Part} (h : CacheLaws u s) (hc : Changes F s t) (hq : Part.queues.isIn F = false)
    (hcache : Part.cache.isIn F = false) : CacheLaws u t :=
  h.stay (hc.cache hcache) fun k => by rw [hc.queue hq]; exact ViewKeeps.refl _

/-- One head changes. -/
theorem looks_update {y : ChainView} (hne : ∀ k, k ≠ q → t.queue k = s.queue k) (hq : chainView (t.queue q).head = y) :
    looks t = Function.update (looks s) q y := by
  funext k
  by_cases hk : k = q
  · rw [hk, Function.update_self]
    exact hq
  · rw [Function.update_of_ne hk, looks, hne k hk]
    rfl

/-- A head that is no waiter changes, without a change of its job and its entry. -/
theorem CacheLaws.update {y : ChainView} (h : CacheLaws u s) (hc : t.cache = s.cache) (hl : looks t = Function.update (looks s) q y)
    (hq : q ∉ waitersOf s) (hjob : y.job = (looks s q).job) (hentry : y.entry = (looks s q).entry)
    (hpin : ∀ a, y.pins = some a → pinRefused s true a = false) : CacheLaws u t := by
  have hsame : t.entry = s.entry := entry_congr hc
  have hfill : fillTarget t = fillTarget s := by rw [fillTarget, hc, fillTarget]
  have hwait : fillWaiters t = fillWaiters s := by rw [fillWaiters, hc, fillWaiters]
  have hne : ∀ {k}, k ≠ q → Function.update (looks s) q y k = looks s k := fun hk => Function.update_of_ne hk ..
  refine ⟨by rw [hsame, hc, hfill]; exact h.entries, by rw [hsame, hc]; exact h.requests, ?_, ?_, ?_⟩
  · rw [hwait, hc, hl]
    exact h.waiters.update hq y
  · rw [hsame, hl]
    refine h.uses.congr (fun k => ?_) (fun _ => rfl) fun _ hf _ => hf
    by_cases hk : k = q
    · rw [hk, Function.update_self]
      exact ⟨hjob, hentry⟩
    · rw [hne hk]
      exact ⟨rfl, rfl⟩
  · rw [hsame, hl]
    cases hy : y.pins with
    | none =>
      refine h.pins.mono fun a ha => ?_
      obtain he | ⟨k, hk⟩ := ha
      · exact .inl he
      · by_cases hkq : k = q
        · rw [hkq, Function.update_self, hy] at hk
          cases hk
        · exact .inr ⟨k, by rwa [hne hkq] at hk⟩
    | some addr =>
      refine pinLaw_of_fits h.pins (hpin addr hy) fun a ha => ?_
      obtain he | ⟨k, hk⟩ := ha
      · exact .inr (.inl he)
      · by_cases hkq : k = q
        · rw [hkq, Function.update_self, hy] at hk
          exact .inl (Option.some.inj hk).symm
        · exact .inr (.inr ⟨k, by rwa [hne hkq] at hk⟩)

/-! ### Entries change and the heads stay -/

/-- The flags of an entry change, besides INUSE. -/
theorem CacheLaws.setFlags (h : CacheLaws u s) (hfits : EntryFits x) (hstate : x.estate = (s.entry e).estate)
    (haddr : x.addr = (s.entry e).addr) (hlive : Live x ↔ Live (s.entry e)) (hinuse : x.inuse = (s.entry e).inuse)
    (hpin : x.pinned = true → (s.entry e).pinned = true ∨ pinRefused s true x.addr = false) : CacheLaws u (s.setEntry e x) := by
  have hentry := setEntry_entry s e x
  have hself : Function.update s.entry e x e = x := Function.update_self ..
  have hne : ∀ {f}, f ≠ e → Function.update s.entry e x f = s.entry f := fun hf => Function.update_of_ne hf ..
  refine ⟨by rw [hentry]; exact h.entries.flags hfits hstate haddr hlive,
    by rw [hentry]; exact h.requests.update_same fun hx => ⟨hstate ▸ hx, haddr⟩, h.waiters, ?_, ?_⟩
  · rw [hentry]
    refine h.uses.congr (fun _ => ⟨rfl, rfl⟩) (fun f => ?_) fun f hf _ => ?_
    · by_cases hfe : f = e
      · rw [hfe, hself, hinuse]
      · rw [hne hfe]
    · by_cases hfe : f = e
      · rw [hfe, hself, hstate, ← hfe, hf]
      · rw [hne hfe, hf]
  · rw [hentry]
    have hsub : ∀ a, PinnedAddr (looks s) (Function.update s.entry e x) a →
        (x.pinned = true ∧ x.addr = a) ∨ PinnedAddr (looks s) s.entry a := fun a ha => by
      obtain ⟨f, hf, ha⟩ | hq := ha
      · by_cases hfe : f = e
        · rw [hfe, hself] at hf ha
          exact .inl ⟨hf, ha⟩
        · rw [hne hfe] at hf ha
          exact .inr (.inl ⟨f, hf, ha⟩)
      · exact .inr (.inr hq)
    by_cases hp : x.pinned = true
    · obtain hold | hnew := hpin hp
      · refine h.pins.mono fun a ha => (hsub a ha).elim (fun hx => .inl ⟨e, hold, haddr ▸ hx.2⟩) id
      · exact pinLaw_of_fits h.pins hnew fun a ha => (hsub a ha).imp_left fun hx => hx.2.symm
    · exact h.pins.mono fun a ha => (hsub a ha).elim (fun hx => absurd hx.1 hp) id

/-- The pins stay where one entry loses its own. -/
theorem PinLaw.unpin {v : Fin 4 → ChainView} {E : Fin 8 → Entry} (h : PinLaw v E) (hx : x.pinned = false) :
    PinLaw v (Function.update E e x) := h.mono fun a ha => by
  obtain ⟨f, hf, ha⟩ | hq := ha
  · by_cases hfe : f = e
    · rw [hfe, Function.update_self, hx] at hf
      cases hf
    · rw [Function.update_of_ne hfe] at hf ha
      exact .inl ⟨f, hf, ha⟩
  · exact .inr hq

/-- An entry that no job uses, or that stays VALID, leaves the LRU list. -/
theorem CacheLaws.leaveList (h : CacheLaws u s) (hfits : EntryFits x) (hold : (s.entry e).estate = .valid)
    (hstate : x.estate ≠ .filling) (hlive : ¬ Live x) (haddr : x.estate ≠ .empty → x.addr = (s.entry e).addr)
    (hinuse : x.inuse = (s.entry e).inuse) (hvalid : (s.entry e).inuse = true → x.estate = .valid) (hpin : x.pinned = false) :
    CacheLaws u (lruDrop e (s.setEntry e x)) := by
  have hentry : (lruDrop e (s.setEntry e x)).entry = Function.update s.entry e x := setEntry_entry s e x
  have hself : Function.update s.entry e x e = x := Function.update_self ..
  have hne : ∀ {f}, f ≠ e → Function.update s.entry e x f = s.entry f := fun hf => Function.update_of_ne hf ..
  have hkeeps : x.estate ≠ .empty → (s.entry e).estate ≠ .empty ∧ x.addr = (s.entry e).addr := fun hx =>
    ⟨by rw [hold]; nofun, haddr hx⟩
  refine ⟨by rw [hentry]; exact h.entries.leave hfits (by rw [hold]; nofun) hstate hlive hkeeps,
    by rw [hentry]; exact h.requests.update_same hkeeps, h.waiters, ?_, by rw [hentry]; exact h.pins.unpin hpin⟩
  rw [hentry]
  refine h.uses.congr (fun _ => ⟨rfl, rfl⟩) (fun f => ?_) fun f hf huse => ?_
  · by_cases hfe : f = e
    · rw [hfe, hself, hinuse]
    · rw [hne hfe]
  · by_cases hfe : f = e
    · subst hfe
      rw [hself, hvalid huse]
    · rw [hne hfe, hf]

theorem CacheLaws.touch (h : CacheLaws u s) (e : Fin 8) : CacheLaws u (touchEntry e s) :=
  { h with entries := h.entries.touch e }

theorem CacheLaws.invalidate (h : CacheLaws u s) (e : Fin 8) : CacheLaws u (invalidate e s) := by
  have hfits := h.entries.fits e
  have hnotLive : (s.entry e).estate ≠ .valid → (s.entry e).pinned = false := fun hx =>
    Bool.eq_false_iff.mpr fun hp => hx (hfits.pinned hp).1
  cases hx : (s.entry e).estate with
  | empty =>
    have hsame : Machine.invalidate e s = s := by
      rw [Machine.invalidate, invalidatedEntry, hx, State.setEntry_entry, if_neg nofun]
    rw [hsame]
    exact h
  | filling =>
    rw [invalidate_of_filling hx]
    refine h.setFlags ⟨fun hn => ?_, fun hp => ?_, fun hv => ?_⟩ rfl rfl ⟨fun hl => absurd hl.2 nofun, fun hl => ?_⟩ rfl fun hp => .inl hp
    · exact nomatch hx.symm.trans hn
    · exact nomatch (hnotLive (by rw [hx]; nofun)).symm.trans hp
    · exact nomatch hx.symm.trans hv
    · exact nomatch hx.symm.trans hl.1
  | valid =>
    cases hstale : (s.entry e).stale with
    | true =>
      have hmem : e ∉ s.cache.lru := fun hm => nomatch hstale.symm.trans ((h.entries.lru e).mp hm).2
      rw [invalidate_of_stale hx hstale hmem]
      exact h
    | false =>
      rw [invalidate_of_valid hx hstale]
      cases huse : (s.entry e).inuse with
      | true =>
        exact h.leaveList ⟨fun hn => absurd (hx.symm.trans hn) nofun, nofun, fun _ _ => huse⟩ hx (by change (s.entry e).estate ≠ _; rw [hx]; nofun)
          (fun hl => absurd hl.2 nofun) (fun _ => rfl) rfl (fun _ => hx) rfl
      | false =>
        exact h.leaveList entryFits_free hx nofun (not_live_of_state nofun) (fun hn => absurd rfl hn) huse.symm
          (fun hu => absurd (huse.symm.trans hu) nofun) rfl

theorem CacheLaws.invalidateAll (h : CacheLaws u s) (l : List (Fin 8)) : CacheLaws u (invalidateAll l s) := by
  induction l generalizing s with
  | nil => exact h
  | cons e rest ih => exact ih (h.invalidate e)

end

end Sys2Proof.Machine
end

section
/-! SUPPORT. The cache's laws across the begin and the end of an entry's use, and across the waiters that join and leave (R69, R80,
R81, R86, R90). -/

namespace Sys2Proof.Machine

open Sys2Proof

section

variable {s t : State} {q : Fin 4} {u : Option (Fin 8)} {e : Fin 8} {x : Entry} {y : ChainView}

theorem CacheLaws.congr (h : CacheLaws u s) (hc : t.cache = s.cache) (hl : looks t = looks s) : CacheLaws u t :=
  h.quiet hc fun k => .inl (by rw [hl])

/-! ### The use of an entry (R86) -/

/-- A STARTING job begins to use a live entry, while none runs. -/
theorem CacheLaws.beginUse (h : CacheLaws none s) (hlive : Live (s.entry e)) (hidle : ∀ k, (looks s k).job ≠ some .running) :
    CacheLaws (some e) (s.setEntry e { s.entry e with inuse := true }) := by
  have hentry := setEntry_entry s e { s.entry e with inuse := true }
  have hself : Function.update s.entry e { s.entry e with inuse := true } e = { s.entry e with inuse := true } :=
    Function.update_self ..
  have hne : ∀ {f}, f ≠ e → Function.update s.entry e { s.entry e with inuse := true } f = s.entry f := fun hf =>
    Function.update_of_ne hf ..
  have hsame : ∀ f, (Function.update s.entry e { s.entry e with inuse := true } f).estate = (s.entry f).estate ∧
      (Function.update s.entry e { s.entry e with inuse := true } f).pinned = (s.entry f).pinned ∧
      (Function.update s.entry e { s.entry e with inuse := true } f).addr = (s.entry f).addr := fun f => by
    by_cases hf : f = e
    · rw [hf, hself]
      exact ⟨rfl, rfl, rfl⟩
    · rw [hne hf]
      exact ⟨rfl, rfl, rfl⟩
  have hfits : EntryFits { s.entry e with inuse := true } :=
    ⟨fun hn => absurd (hlive.1.symm.trans hn) nofun, fun _ => hlive, fun _ _ => rfl⟩
  refine ⟨by rw [hentry]; exact h.entries.flags hfits rfl rfl Iff.rfl,
    by rw [hentry]; exact h.requests.update_same fun hn => ⟨hn, rfl⟩, h.waiters, ?_, ?_⟩
  · rw [hentry]
    refine ⟨fun f => ?_, fun k f hk => ?_, fun f hf => ?_⟩
    · by_cases hf : f = e
      · rw [hf, hself]
        exact ⟨fun _ => .inr rfl, fun _ => rfl⟩
      · rw [hne hf, h.uses.held]
        exact or_congr Iff.rfl ⟨nofun, fun hu => absurd (Option.some.inj hu).symm hf⟩
    · obtain ⟨-, hr | ⟨-, hu⟩⟩ := h.uses.holder k f hk
      · exact absurd hr (hidle k)
      · cases hu
    · rw [(hsame f).1, ← Option.some.inj hf]
      exact hlive.1
  · rw [hentry]
    refine h.pins.mono fun a ha => ?_
    obtain ⟨f, hf, ha⟩ | hq := ha
    · exact .inl ⟨f, (hsame f).2.1 ▸ hf, (hsame f).2.2 ▸ ha⟩
    · exact .inr hq

/-- A head that does not run holds a STARTING job then, with no entry or the one it begins to use. -/
theorem CacheLaws.setStarting (h : CacheLaws u s) (hc : t.cache = s.cache) (hl : looks t = Function.update (looks s) q y)
    (hq : q ∉ waitersOf s) (hold : (looks s q).job ≠ some .running) (hjob : y.job = some .starting) (hpin : y.pins = none)
    (hentry : y.entry = none ∨ y.entry = u) : CacheLaws u t := by
  have hsame : t.entry = s.entry := entry_congr hc
  have hfill : fillTarget t = fillTarget s := by rw [fillTarget, hc, fillTarget]
  have hwait : fillWaiters t = fillWaiters s := by rw [fillWaiters, hc, fillWaiters]
  have hself : Function.update (looks s) q y q = y := Function.update_self ..
  have hne : ∀ {k}, k ≠ q → Function.update (looks s) q y k = looks s k := fun hk => Function.update_of_ne hk ..
  refine ⟨by rw [hsame, hc, hfill]; exact h.entries, by rw [hsame, hc]; exact h.requests,
    by rw [hwait, hc, hl]; exact h.waiters.update hq y, ?_, ?_⟩
  · rw [hsame, hl]
    refine ⟨fun f => ?_, fun k f hk => ?_, h.uses.user⟩
    · rw [h.uses.held]
      refine or_congr (exists_congr fun k => ?_) Iff.rfl
      by_cases hk : k = q
      · rw [hk, hself, hjob]
        exact ⟨fun hr => absurd hr.1 hold, fun hr => absurd hr.1 nofun⟩
      · rw [hne hk]
    · by_cases hkq : k = q
      · rw [hkq, hself] at hk ⊢
        obtain hn | hu := hentry
        · cases hn.symm.trans hk
        · have hf : u = some f := hu.symm.trans hk
          exact ⟨h.uses.user f hf, .inr ⟨hjob, hf⟩⟩
      · rw [hne hkq] at hk ⊢
        exact h.uses.holder k f hk
  · rw [hsame, hl]
    refine h.pins.mono fun a ha => ?_
    obtain he | ⟨k, hk⟩ := ha
    · exact .inl he
    · by_cases hkq : k = q
      · rw [hkq, hself, hpin] at hk
        cases hk
      · exact .inr ⟨k, by rwa [hne hkq] at hk⟩

/-- The STARTING job enters RUNNING with the entry it begins to use, while no other job has started. -/
theorem CacheLaws.run (h : CacheLaws u s) (hc : t.cache = s.cache) (hl : looks t = Function.update (looks s) q y)
    (hq : q ∉ waitersOf s) (honly : ∀ k, (looks s k).job ≠ some .running) (hjob : y.job = some .running) (hpin : y.pins = none)
    (hentry : y.entry = u) (hother : ∀ k, k ≠ q → (looks s k).job = none) : CacheLaws none t := by
  have hsame : t.entry = s.entry := entry_congr hc
  have hfill : fillTarget t = fillTarget s := by rw [fillTarget, hc, fillTarget]
  have hwait : fillWaiters t = fillWaiters s := by rw [fillWaiters, hc, fillWaiters]
  have hself : Function.update (looks s) q y q = y := Function.update_self ..
  have hne : ∀ {k}, k ≠ q → Function.update (looks s) q y k = looks s k := fun hk => Function.update_of_ne hk ..
  refine ⟨by rw [hsame, hc, hfill]; exact h.entries, by rw [hsame, hc]; exact h.requests,
    by rw [hwait, hc, hl]; exact h.waiters.update hq y, ?_, ?_⟩
  · rw [hsame, hl]
    refine ⟨fun f => ?_, fun k f hk => ?_, nofun⟩
    · rw [h.uses.held]
      constructor
      · rintro (⟨k, hr, -⟩ | hu)
        · exact absurd hr (honly k)
        · exact .inl ⟨q, by rw [hself]; exact hjob, by rw [hself, hentry, hu]⟩
      · rintro (⟨k, hr, hk⟩ | hn)
        · by_cases hkq : k = q
          · rw [hkq, hself, hentry] at hk
            exact .inr hk
          · rw [hne hkq] at hr
            exact absurd hr (honly k)
        · cases hn
    · by_cases hkq : k = q
      · rw [hkq, hself] at hk ⊢
        exact ⟨h.uses.user f (hentry.symm.trans hk), .inl hjob⟩
      · rw [hne hkq, h.uses.entry_of_no_job (hother k hkq)] at hk
        cases hk
  · rw [hsame, hl]
    refine h.pins.mono fun a ha => ?_
    obtain he | ⟨k, hk⟩ := ha
    · exact .inl he
    · by_cases hkq : k = q
      · rw [hkq, hself, hpin] at hk
        cases hk
      · exact .inr ⟨k, by rwa [hne hkq] at hk⟩

/-- The entry that the end of a use leaves. -/
def unusedEntry (x : Entry) : Entry := if x.stale = true then Entry.free else { x with inuse := false }

theorem unusedEntry_inuse (x : Entry) : (unusedEntry x).inuse = false := by
  unfold unusedEntry
  split <;> rfl

/-- The laws of the entries across the end of a use. -/
theorem EntryLaws.unuse {E : Fin 8 → Entry} {lru : List (Fin 8)} {fill : Option (Fin 8 × Word)} (h : EntryLaws E lru fill)
    (hv : (E e).estate = .valid) : EntryLaws (Function.update E e (unusedEntry (E e))) lru fill := by
  unfold unusedEntry
  split
  case isTrue hstale =>
    have hmem : e ∉ lru := fun hm => absurd (hstale.symm.trans ((h.lru e).mp hm).2) nofun
    have hfilter : lru.filter (fun y => y != e) = lru := List.filter_eq_self.mpr fun y hy =>
      bne_iff_ne.mpr fun heq => hmem (heq ▸ hy)
    have hleave := h.leave entryFits_free (by rw [hv]; nofun) nofun (not_live_of_state nofun) (fun hn => absurd rfl hn) (e := e)
    rwa [hfilter] at hleave
  case isFalse hstale =>
    exact h.flags ⟨fun hn => absurd (hv.symm.trans hn) nofun, (h.fits e).pinned, fun _ hs => absurd hs hstale⟩ rfl rfl Iff.rfl

theorem unusedEntry_keeps (hx : (unusedEntry x).estate ≠ .empty) : x.estate ≠ .empty ∧ (unusedEntry x).addr = x.addr := by
  unfold unusedEntry at hx ⊢
  split
  case isTrue hs =>
    rw [if_pos hs] at hx
    exact absurd rfl hx
  case isFalse hs =>
    rw [if_neg hs] at hx
    exact ⟨hx, rfl⟩

theorem unusedEntry_pinned (hx : (unusedEntry x).pinned = true) : x.pinned = true ∧ (unusedEntry x).addr = x.addr := by
  unfold unusedEntry at hx ⊢
  split
  case isTrue hs =>
    rw [if_pos hs] at hx
    cases hx
  case isFalse hs =>
    rw [if_neg hs] at hx
    exact ⟨hx, rfl⟩

theorem useEndOf_entry_of_some (s : State) {j : JobRec} (hj : j.chainEnt = some e) :
    useEndOf j s = s.setEntry e (unusedEntry (s.entry e)) := useEndOf_of_some hj

/-- The entry that a STARTING or RUNNING job holds is released. -/
theorem CacheLaws.unuse {j : JobRec} (h : CacheLaws u s) (hj : (looks s q).entry = j.chainEnt)
    (hother : ∀ k, k ≠ q → (looks s k).job = none) (hu : u = none ∨ u = j.chainEnt) (hq : q ∉ waitersOf s)
    (hc : t.cache = (useEndOf j s).cache) (hl : looks t = Function.update (looks s) q .rests) : CacheLaws none t := by
  have hself : Function.update (looks s) q ChainView.rests q = .rests := Function.update_self ..
  have hne : ∀ {k}, k ≠ q → Function.update (looks s) q ChainView.rests k = looks s k := fun hk => Function.update_of_ne hk ..
  have hentries : ∀ k, (Function.update (looks s) q ChainView.rests k).entry = none := fun k => by
    by_cases hk : k = q
    · rw [hk, hself]
      rfl
    · rw [hne hk]
      exact h.uses.entry_of_no_job (hother k hk)
  have hinuse : ∀ f, (s.entry f).inuse = true → j.chainEnt = some f := fun f hf => by
    obtain ⟨k, hr, hk⟩ | hf := (h.uses.held f).mp hf
    · by_cases hkq : k = q
      · rw [← hj, ← hkq, hk]
      · rw [hother k hkq] at hr
        cases hr
    · obtain hn | hu := hu
      · cases hn.symm.trans hf
      · exact hu.symm.trans hf
  have hpins : ∀ {E : Fin 8 → Entry} {a : Word}, (∀ f, (E f).pinned = true → (s.entry f).pinned = true ∧ (E f).addr = (s.entry f).addr) →
      PinnedAddr (Function.update (looks s) q .rests) E a → PinnedAddr (looks s) s.entry a := fun hE ha => by
    obtain ⟨f, hf, ha⟩ | ⟨k, hk⟩ := ha
    · obtain ⟨hp, heq⟩ := hE f hf
      exact .inl ⟨f, hp, heq ▸ ha⟩
    · by_cases hkq : k = q
      · rw [hkq, hself] at hk
        cases hk
      · exact .inr ⟨k, by rwa [hne hkq] at hk⟩
  cases he : j.chainEnt with
  | none =>
    rw [useEndOf_of_none he] at hc
    have hsame : t.entry = s.entry := entry_congr hc
    have hfill : fillTarget t = fillTarget s := by rw [fillTarget, hc, fillTarget]
    have hwait : fillWaiters t = fillWaiters s := by rw [fillWaiters, hc, fillWaiters]
    refine ⟨by rw [hsame, hc, hfill]; exact h.entries, by rw [hsame, hc]; exact h.requests,
      by rw [hwait, hc, hl]; exact h.waiters.update hq _, ?_, ?_⟩
    · rw [hsame, hl]
      exact useLaws_of_none (fun f => Bool.eq_false_iff.mpr fun hf => absurd (he.symm.trans (hinuse f hf)) nofun) hentries
    · rw [hsame, hl]
      exact h.pins.mono fun a ha => hpins (fun f hf => ⟨hf, rfl⟩) ha
  | some e =>
    rw [useEndOf_entry_of_some s he] at hc
    have hsame : t.entry = Function.update s.entry e (unusedEntry (s.entry e)) := (entry_congr hc).trans (setEntry_entry ..)
    have hfill : fillTarget t = fillTarget s := by rw [fillTarget, hc]; rfl
    have hwait : fillWaiters t = fillWaiters s := by rw [fillWaiters, hc]; rfl
    have hvalid : (s.entry e).estate = .valid := (h.uses.holder q e (hj.trans he)).1
    refine ⟨by rw [hsame, hc, hfill]; exact h.entries.unuse hvalid, by rw [hsame, hc]; exact h.requests.update_same unusedEntry_keeps,
      by rw [hwait, hc, hl]; exact h.waiters.update hq _, ?_, ?_⟩
    · rw [hsame, hl]
      refine useLaws_of_none (fun f => ?_) hentries
      by_cases hf : f = e
      · rw [hf, Function.update_self]
        exact unusedEntry_inuse _
      · rw [Function.update_of_ne hf]
        exact Bool.eq_false_iff.mpr fun huse => hf (Option.some.inj (he.symm.trans (hinuse f huse))).symm
    · rw [hsame, hl]
      refine h.pins.mono fun a ha => hpins (fun f hf => ?_) ha
      by_cases hfe : f = e
      · rw [hfe, Function.update_self] at hf ⊢
        exact unusedEntry_pinned hf
      · rw [Function.update_of_ne hfe] at hf ⊢
        exact ⟨hf, rfl⟩

/-! ### Waiters join and leave (R69, R80, R81, R90) -/

theorem joinRequest_reqs (a : Word) (q : Fin 4) (s : State) : (joinRequest a q s).cache.reqs = s.cache.reqs.map (joined a q) := rfl

theorem CacheLaws.joinFill (h : CacheLaws u s) {f : Fill} (hf : s.cache.fill = some f) (hq : q ∉ waitersOf s)
    (hw : (looks s q).WaitsFor .filling f.addr) : CacheLaws u (joinFill q s) := by
  have htarget : fillTarget (Machine.joinFill q s) = fillTarget s := by
    rw [fillTarget, Machine.joinFill, hf, fillTarget, hf]
    rfl
  have hold : fillWaiters s = some (f.addr, f.waiters) := by rw [fillWaiters, hf]; rfl
  have hnew : fillWaiters (Machine.joinFill q s) = some (f.addr, f.waiters ++ [q]) := by
    rw [fillWaiters, Machine.joinFill, hf]
    rfl
  rw [waitersOf, hold] at hq
  have hwaiters := h.waiters
  rw [hold] at hwaiters
  exact ⟨by rw [htarget]; exact h.entries, h.requests, by rw [hnew]; exact hwaiters.joinFill hq hw, h.uses, h.pins⟩

theorem CacheLaws.joinRequest {a : Word} (h : CacheLaws u s) (ha : requested s a = true) (hq : q ∉ waitersOf s)
    (hw : (looks s q).WaitsFor .requested a) : CacheLaws u (joinRequest a q s) := by
  refine { h with requests := ?_, waiters := ?_ }
  · rw [joinRequest_reqs]
    exact h.requests.map (joined_addr a q) (joined_place a q)
  · rw [joinRequest_reqs]
    exact h.waiters.joinRequest h.requests.addrs ((requested_iff s a).mp ha) hq hw

theorem CacheLaws.placeRequest {a : Word} {p : Place} (h : CacheLaws u s) (hno : requested s a = false) (hp : placeFree s p = true)
    (hnone : findEntry s a = none) (hq : q ∉ waitersOf s) (hw : (looks s q).WaitsFor .requested a) :
    CacheLaws u (placeRequest a p q s) :=
  { h with
    requests := h.requests.place (r := { addr := a, place := p, waiters := [q] }) ((requested_eq_false_iff s a).mp hno)
      ((placeFree_iff s p).mp hp) ((findEntry_eq_none_iff s a).mp hnone)
    waiters := h.waiters.place p hq hw }

theorem CacheLaws.withdrawWaiter (h : CacheLaws u s) (q : Fin 4) :
    CacheLaws u (withdrawWaiter q s) ∧ q ∉ waitersOf (withdrawWaiter q s) := by
  have htarget : fillTarget (Machine.withdrawWaiter q s) = fillTarget s := by
    rw [fillTarget, Machine.withdrawWaiter, fillTarget]
    cases s.cache.fill <;> rfl
  have hfill : fillWaiters (Machine.withdrawWaiter q s) =
      (fillWaiters s).map fun p => (p.1, p.2.filter (fun w => w != q)) := by
    rw [fillWaiters, Machine.withdrawWaiter, fillWaiters]
    cases s.cache.fill <;> rfl
  obtain ⟨hwaiters, hnot⟩ := h.waiters.withdraw q
  have hreqs : RequestLaws s.entry (withdrawn q s.cache.reqs) :=
    (h.requests.map (f := fun r => { r with waiters := r.waiters.filter (fun w => w != q) }) (fun _ => rfl) (fun _ => rfl)).sublist
      List.filter_sublist
  refine ⟨⟨by rw [htarget]; exact h.entries, hreqs, by rw [hfill]; exact hwaiters, h.uses, h.pins⟩, ?_⟩
  rw [waitersOf, hfill]
  exact hnot

end

end Sys2Proof.Machine
end

section
/-! SUPPORT. The cache's laws across the start of a job: the chain step, the entry to RUNNING and a failed start (R63 to R65, R80,
R81, R86). -/

namespace Sys2Proof.Machine

open Sys2Proof

/-! ### What the loader sees of a job -/

section

variable {pos : Nat} {hd : Header} {j : JobRec} {h : Head}

theorem chainView_of_starting (hj : j.jstate = .starting) : chainView (.data pos hd j) =
    { ChainView.rests with waits := (filterAddr j.data).map fun a => (some j.chainWait, a), job := some .starting, entry := j.chainEnt } := by
  rw [chainView, headWaits, if_pos hj, activeJob_of_starting hj]
  rfl

theorem chainView_of_running (hj : j.jstate = .running) :
    chainView (.data pos hd j) = { ChainView.rests with job := some .running, entry := j.chainEnt } := by
  rw [chainView, headWaits, if_neg (by rw [hj]; nofun), activeJob_of_running hj]
  rfl

theorem chainView_job_of_inactive (ha : jobActive h = false) : (chainView h).job = none := by
  rw [chainView, activeJob_of_inactive ha]
  rfl

theorem filterAddr_of_filter {a : Word} {c : Option (Fin 32)} (hk : j.data.kind = .filter a c) : filterAddr j.data = some a := by
  rw [filterAddr, hk]

end

/-! ### The loader's waiters stay -/

section

variable {s t : State} {q : Fin 4} {u : Option (Fin 8)}

theorem waitersOf_congr (hreqs : t.cache.reqs = s.cache.reqs) (hfill : t.cache.fill = s.cache.fill) : waitersOf t = waitersOf s := by
  rw [waitersOf, fillWaiters, hreqs, hfill, waitersOf, fillWaiters]

theorem waitersOf_of_cache (hc : t.cache = s.cache) : waitersOf t = waitersOf s := waitersOf_congr (by rw [hc]) (by rw [hc])

theorem useEndOf_cache_congr (j : JobRec) (hc : t.cache = s.cache) : (useEndOf j t).cache = (useEndOf j s).cache := by
  cases he : j.chainEnt with
  | none => rw [useEndOf_of_none he, useEndOf_of_none he, hc]
  | some e =>
    rw [useEndOf_entry_of_some t he, useEndOf_entry_of_some s he, entry_congr hc]
    exact congrArg (fun c : Cache => { c with entries := c.entries.set e.val (unusedEntry (s.entry e)) }) hc

theorem waitersOf_useEndOf (j : JobRec) (s : State) : waitersOf (useEndOf j s) = waitersOf s := by
  cases he : j.chainEnt with
  | none => rw [useEndOf_of_none he]
  | some e =>
    rw [useEndOf_entry_of_some s he]
    rfl

/-- A head that no unit and no loader holds hands its completion over. -/
theorem CacheLaws.leave (h : CacheLaws u s) (hc : t.cache = s.cache) (hne : ∀ k, k ≠ q → t.queue k = s.queue k)
    (hq : q ∉ waitersOf s) (ha : jobActive (s.queue q).head = false) (hn : chainView (t.queue q).head = .rests) : CacheLaws u t :=
  h.quiet hc fun k => by
    by_cases hk : k = q
    · rw [hk]
      exact .inr ⟨hq, chainView_job_of_inactive ha, hn⟩
    · exact .inl (by rw [looks, hne k hk]; rfl)

end

/-! ### A job that starts -/

/-- The job of queue `q` is STARTING, no waiter of the loader's, and the cache's laws hold while it begins to use the entry `u`. -/
structure Starts (u : Option (Fin 8)) (s : State) (q : Fin 4) (pos : Nat) (hd : Header) (j : JobRec) : Prop where
  laws : CacheLaws u s
  jobs : Jobs s
  head : (s.queue q).head = .data pos hd j
  starting : j.jstate = .starting
  free : q ∉ waitersOf s

namespace Starts

variable {u : Option (Fin 8)} {s : State} {q : Fin 4} {pos : Nat} {hd : Header} {j : JobRec}

theorem view (h : Starts u s q pos hd j) : looks s q = { ChainView.rests with
    waits := (filterAddr j.data).map fun a => (some j.chainWait, a), job := some .starting, entry := j.chainEnt } := by
  rw [looks, h.head]
  exact chainView_of_starting h.starting

theorem other (h : Starts u s q pos hd j) {k : Fin 4} (hk : k ≠ q) : (looks s k).job = none :=
  chainView_job_of_inactive (h.jobs.only_of_starting h.head h.starting hk)

theorem none_running (h : Starts u s q pos hd j) (k : Fin 4) : (looks s k).job ≠ some .running := fun hr => by
  by_cases hk : k = q
  · rw [hk, h.view] at hr
    cases hr
  · rw [h.other hk] at hr
    cases hr

/-- A job that does not begin to use an entry holds none. -/
theorem no_entry (h : Starts none s q pos hd j) : j.chainEnt = none := by
  cases he : j.chainEnt with
  | none => rfl
  | some e =>
    obtain ⟨-, hr | ⟨-, hu⟩⟩ := h.laws.uses.holder q e (by rw [h.view]; exact he)
    · exact absurd hr (h.none_running q)
    · cases hu

/-- The job's record changes. -/
theorem setJob (h : Starts u s q pos hd j) {j' : JobRec} (hs : j'.jstate = .starting) (he : j'.chainEnt = none ∨ j'.chainEnt = u) :
    Starts u (s.setHead q (.data pos hd j')) q pos hd j' := by
  have hstart : headIn .starting (s.queue q).head = true := (headIn_iff _ _).mpr ⟨pos, hd, j, h.head, h.starting⟩
  refine ⟨h.laws.setStarting rfl (looks_update (fun k hk => State.queue_setHead_ne _ _ hk) (by rw [State.queue_setHead_self]))
    h.free (h.none_running q) ?_ ?_ ?_, ?_, by rw [State.queue_setHead_self], hs, h.free⟩
  · rw [chainView_of_starting hs]
  · rw [chainView_of_starting hs]
    rfl
  · rw [chainView_of_starting hs]
    exact he
  · refine ⟨fun a b ha hb => ?_, fun k => ?_⟩
    · have honly : ∀ k, jobActive ((s.setHead q (.data pos hd j')).queue k).head = true → k = q := fun k ha => by
        by_contra hk
        rw [State.queue_setHead_ne _ _ hk, h.jobs.only_of_starting h.head h.starting hk] at ha
        cases ha
      rw [honly a ha, honly b hb]
    · by_cases hk : k = q
      · rw [hk, State.queue_setHead_self, not_running_of_starting ((headIn_iff _ _).mpr ⟨pos, hd, j', rfl, hs⟩),
          ← not_running_of_starting hstart]
        exact h.jobs.running q
      · rw [State.queue_setHead_ne _ _ hk]
        exact h.jobs.running k

end Starts

/-- What the start of the job of queue `q` from `s` leaves in `t`. -/
structure Settled (q : Fin 4) (s t : State) : Prop where
  laws : CacheLaws none t
  jobs : Jobs t
  waiters : waitersOf t = waitersOf s
  queues : ∀ k, k ≠ q → t.queue k = s.queue k
  idle : ∀ k, headIn .starting (t.queue k).head = false

namespace Starts

variable {u : Option (Fin 8)} {s : State} {q : Fin 4} {pos : Nat} {hd : Header} {j : JobRec}

theorem not_starting (h : Starts u s q pos hd j) {k : Fin 4} (hk : k ≠ q) : headIn .starting (s.queue k).head = false :=
  Bool.eq_false_iff.mpr fun hs => absurd ((h.jobs.only_of_starting h.head h.starting hk).symm.trans (starting_active hs)) nofun

theorem failStart_cache (hh : (s.queue q).head = .data pos hd j) (st : Status) :
    (failStart q st s).cache = (useEndOf j s).cache := by
  rw [failStart_of_data hh, (completeJob_changes ..).cache rfl]
  refine useEndOf_cache_congr j ?_
  split
  · exact (releaseStreams_changes ..).cache rfl
  · rfl

/-- A failed start. -/
theorem failStart (h : Starts u s q pos hd j) (hu : u = none ∨ u = j.chainEnt) (st : Status) : Settled q s (failStart q st s) where
  laws := h.laws.unuse (by rw [h.view]) (fun _ hk => h.other hk) hu h.free (failStart_cache h.head st)
    (looks_update (fun k hk => failStart_queue_ne _ _ hk) (chainView_of_no_record (failStart_no_record st h.head)))
  jobs := h.jobs.failStart h.head h.starting st
  waiters := by
    have hc := failStart_cache h.head st
    rw [waitersOf_of_cache hc, waitersOf_useEndOf]
  queues := fun k hk => failStart_queue_ne _ _ hk
  idle := fun k => by
    by_cases hk : k = q
    · rw [hk]
      refine Bool.eq_false_iff.mpr fun hs => ?_
      exact absurd ((failStart_drops st h.head).active.symm.trans (starting_active hs)) nofun
    · rw [failStart_queue_ne _ _ hk]
      exact h.not_starting hk

/-- The entry to RUNNING. -/
theorem enterRunning (h : Starts u s q pos hd j) (he : j.chainEnt = u) (reads : List ReadChoice) :
    Settled q s (enterRunning q reads s) where
  laws := by
    refine h.laws.run ((enterRunning_changes ..).cache rfl) (looks_update (fun k hk => enterRunning_queue_ne _ _ hk)
      (by rw [(enterRunning_facts h.head reads).1, chainView_of_running rfl])) h.free h.none_running rfl rfl he fun k hk => h.other hk
  jobs := h.jobs.enterRunning h.head h.starting reads
  waiters := waitersOf_of_cache ((enterRunning_changes ..).cache rfl)
  queues := fun k hk => enterRunning_queue_ne _ _ hk
  idle := fun k => by
    by_cases hk : k = q
    · rw [hk, (enterRunning_facts h.head reads).1]
      rfl
    · rw [enterRunning_queue_ne _ _ hk]
      exact h.not_starting hk

theorem startWithChain (h : Starts u s q pos hd j) (he : j.chainEnt = u) (reads : List ReadChoice) :
    Settled q s (startWithChain q reads s) := by
  unfold Machine.startWithChain
  rw [headJob_of_data h.head]
  dsimp only
  split
  · exact h.failStart (.inr he.symm) _
  · exact h.enterRunning he reads

end Starts

/-! ### The chain step (R63, R80, R81) -/

/-- What a chain step of queue `q` leaves: its job may wait, and no other head's record changes. -/
structure Steps (q : Fin 4) (s t : State) : Prop where
  laws : CacheLaws none t
  waiters : ∀ k, k ∈ waitersOf t → k = q ∨ k ∈ waitersOf s

theorem Settled.steps {q : Fin 4} {s t : State} (h : Settled q s t) : Steps q s t :=
  ⟨h.laws, fun _ hk => .inr (h.waiters ▸ hk)⟩

section

variable {s : State} {q : Fin 4} {pos : Nat} {hd : Header} {j : JobRec}

theorem findEntry_valid_or_filling {s : State} {addr : Word} {e : Fin 8} (h : findEntry s addr = some e) :
    (s.entry e).addr = addr ∧ ((s.entry e).estate = .valid ∨ (s.entry e).estate = .filling) := by
  obtain ⟨he, ha⟩ := findEntry_some h
  refine ⟨ha, ?_⟩
  cases hs : (s.entry e).estate with
  | empty => exact absurd hs he
  | filling => exact .inr rfl
  | valid => exact .inl rfl

theorem CacheLaws.fill_of_filling {u : Option (Fin 8)} (h : CacheLaws u s) {e : Fin 8} (he : (s.entry e).estate = .filling) :
    ∃ f, s.cache.fill = some f ∧ f.entry = e ∧ f.addr = (s.entry e).addr := by
  obtain ⟨a, ha⟩ := (h.entries.filling e).mp he
  obtain ⟨f, hf, hfe, hfa⟩ := (fillTarget_eq_some_iff s e a).mp ha
  exact ⟨f, hf, hfe, hfa.trans (h.entries.fillAddr e a ha).symm⟩

theorem mem_waitersOf_joinFill {k : Fin 4} (hk : k ∈ waitersOf (joinFill q s)) : k = q ∨ k ∈ waitersOf s := by
  rw [waitersOf_eq, allWaiters] at hk ⊢
  cases hf : s.cache.fill with
  | none =>
    simp only [joinFill, hf, Option.map_none, Option.getD_none] at hk ⊢
    exact .inr hk
  | some f =>
    simp only [joinFill, hf, Option.map_some, Option.getD_some, List.mem_append, List.mem_singleton] at hk ⊢
    tauto

theorem mem_waitersOf_joinRequest {k : Fin 4} {a : Word} (hk : k ∈ waitersOf (joinRequest a q s)) : k = q ∨ k ∈ waitersOf s := by
  obtain ⟨b, l, hf, hl⟩ | ⟨r, hr, hw⟩ := mem_waiterList.mp hk
  · exact .inr (mem_waiterList.mpr (.inl ⟨b, l, hf, hl⟩))
  · obtain ⟨r', hr', rfl⟩ := List.mem_map.mp hr
    split at hw
    · obtain hw | hw := List.mem_append.mp hw
      · exact .inr (mem_waiterList.mpr (.inr ⟨r', hr', hw⟩))
      · exact .inl (List.mem_singleton.mp hw)
    · exact .inr (mem_waiterList.mpr (.inr ⟨r', hr', hw⟩))

theorem mem_waitersOf_placeRequest {k : Fin 4} {a : Word} {p : Place} (hk : k ∈ waitersOf (placeRequest a p q s)) :
    k = q ∨ k ∈ waitersOf s := by
  obtain ⟨b, l, hf, hl⟩ | ⟨r, hr, hw⟩ := mem_waiterList.mp hk
  · exact .inr (mem_waiterList.mpr (.inl ⟨b, l, hf, hl⟩))
  · obtain hr | hr := List.mem_append.mp hr
    · exact .inr (mem_waiterList.mpr (.inr ⟨r, hr, hw⟩))
    · rw [List.mem_singleton.mp hr] at hw
      exact .inl (List.mem_singleton.mp hw)

/-- A job that looks up an entry which is VALID begins to use it: the entry of no RUNNING job is not stale. -/
theorem Starts.hit (h : Starts none s q pos hd j) {e : Fin 8} (hv : (s.entry e).estate = .valid) :
    Starts (some e) (s.setEntry e { s.entry e with inuse := true }) q pos hd j := by
  have hlive : Live (s.entry e) := ⟨hv, Bool.eq_false_iff.mpr fun hstale => by
    obtain ⟨k, hr, -⟩ | hu := (h.laws.uses.held e).mp ((h.laws.entries.fits e).stale hv hstale)
    · exact h.none_running k hr
    · cases hu⟩
  exact ⟨h.laws.beginUse hlive h.none_running, h.jobs.of_changes (changes_setEntry ..) rfl rfl, h.head, h.starting, h.free⟩

theorem Starts.chainStep (h : Starts none s q pos hd j) (reads : List ReadChoice) : Steps q s (chainStep q reads s) := by
  have hnone := h.no_entry
  cases hkind : j.data.kind with
  | mix gains =>
    rw [Machine.chainStep, headJob_of_data h.head]
    simp only [hkind]
    exact (h.enterRunning hnone reads).steps
  | filter addr context =>
    have hjob : ∀ w, Starts none (s.setHead q (.data pos hd { j with chainWait := w })) q pos hd { j with chainWait := w } :=
      fun w => h.setJob h.starting (.inl hnone)
    have hwaits : ∀ w, (looks (s.setHead q (.data pos hd { j with chainWait := w })) q).waits = some (some w, addr) := fun w => by
      rw [(hjob w).view]
      change (filterAddr j.data).map _ = _
      rw [filterAddr_of_filter hkind]
      rfl
    cases hf : findEntry s addr with
    | some e =>
      rw [chainStep_of_entry h.head hkind hf]
      obtain ⟨haddr, hv | hfl⟩ := findEntry_valid_or_filling hf
      · rw [if_pos hv]
        have hheld := (h.hit hv).setJob (j' := { j with chainEnt := some e, chainWait := .none, chainHit := true }) h.starting (.inr rfl)
        have htouched : Starts (some e) (touchEntry e _) q pos hd _ :=
          ⟨hheld.laws.touch e, hheld.jobs.of_changes (touchEntry_changes ..) rfl rfl, hheld.head, hheld.starting, hheld.free⟩
        have hsettled := htouched.startWithChain rfl reads
        exact ⟨hsettled.laws, fun k hk => .inr (hsettled.waiters ▸ hk)⟩
      · rw [if_neg (by rw [hfl]; nofun)]
        obtain ⟨f, hfill, -, hfa⟩ := h.laws.fill_of_filling hfl
        exact ⟨(hjob .filling).laws.joinFill hfill h.free (.inl (by rw [hwaits, hfa, haddr])), fun _ hk => mem_waitersOf_joinFill hk⟩
    | none =>
      rw [chainStep_of_miss h.head hkind hf]
      have hreq := (hjob .requested).laws
      cases hr : requested s addr with
      | true =>
        rw [if_pos rfl]
        exact ⟨hreq.joinRequest hr h.free (.inl (hwaits _)), fun _ hk => mem_waitersOf_joinRequest hk⟩
      | false =>
        rw [if_neg Bool.false_ne_true]
        split
        case isTrue hp => exact ⟨hreq.placeRequest hr hp hf h.free (.inl (hwaits _)), fun _ hk => mem_waitersOf_placeRequest hk⟩
        case isFalse => exact ⟨hreq, fun _ hk => .inr hk⟩

end

end Sys2Proof.Machine
end

section
/-! SUPPORT. The cache's laws across the beginning and the end of a fill and the service of its waiters (R82 to R85). -/

namespace Sys2Proof.Machine

open Sys2Proof

/-! ### The waiters are served (R84, R85) -/

section

variable {u : Option (Fin 8)} {s : State} {q : Fin 4} {e : Fin 8} {l : List (Fin 4)}

theorem Jobs.of_closed {t : State} (h : Jobs s) (hk : LawKept (fun _ => True) s t) : Jobs t := (hk ⟨h, trivial⟩).1

/-- Queue `q`'s job looks up its address again: it waits for no fill and stands in no request. -/
theorem CacheLaws.retryJobPlace (h : CacheLaws none s) (hjobs : Jobs s) : CacheLaws none (retryJobPlace s) ∧
    ∀ k, headIn .starting (s.queue k).head = false → k ∈ waitersOf (Machine.retryJobPlace s) → k ∈ waitersOf s := by
  unfold Machine.retryJobPlace
  split
  case h_1 q hq =>
    have hfound := List.find?_some hq
    simp only [Bool.and_eq_true, decide_eq_true_iff, Bool.not_eq_true', List.any_eq_false] at hfound
    obtain ⟨⟨hstart, hwait⟩, hno⟩ := hfound
    obtain ⟨pos, hd, j, hh, hj⟩ := (headIn_iff _ _).mp hstart
    have hrequested : j.chainWait = .requested := by simpa [hh, headJob] using hwait
    split
    · have hfree : q ∉ waitersOf s := by
        refine h.waiters.not_mem_of_requested (fun w a hw hfill => ?_) fun r hr hm => hno r hr (by simpa using hm)
        rw [ChainView.WaitsFor, looks, hh, chainView_of_starting hj, hrequested, hfill] at hw
        cases hk : filterAddr j.data <;> simp [hk] at hw
      have hstep := (Starts.mk h hjobs hh hj hfree).chainStep []
      refine ⟨hstep.laws, fun k hk hm => (hstep.waiters k hm).resolve_left ?_⟩
      rintro rfl
      exact absurd (hk.symm.trans hstart) nofun
    · exact ⟨h, fun _ _ hm => hm⟩
  case h_2 => exact ⟨h, fun _ _ hm => hm⟩

theorem completeParked_no_record (hh : ctlIn .parked (s.queue q).head = true) (st : Status) (d : Detail) :
    heldRecord ((completeParked q st d s).queue q).head = none := by
  obtain ⟨pos, hd, body, hh⟩ := (ctlIn_iff _ _).mp hh
  unfold completeParked
  rw [hh]
  exact completeHead_no_record _

theorem completeParked_of_not_parked (hh : ctlIn .parked (s.queue q).head = false) (st : Status) (d : Detail) :
    completeParked q st d s = s := by
  unfold completeParked
  split
  case h_1 heq =>
    rw [heq] at hh
    cases hh
  case h_2 => rfl

theorem CacheLaws.completeParked (h : CacheLaws u s) (hq : q ∉ waitersOf s) (st : Status) (d : Detail) :
    CacheLaws u (completeParked q st d s) := by
  cases hp : ctlIn .parked (s.queue q).head with
  | false =>
    rw [completeParked_of_not_parked hp]
    exact h
  | true =>
    refine h.leave ((completeParked_changes ..).cache rfl) (fun k hk => completeParked_queue_ne _ _ _ hk) hq ?_
      (chainView_of_no_record (completeParked_no_record hp st d))
    obtain ⟨pos, hd, body, hh⟩ := (ctlIn_iff _ _).mp hp
    rw [hh]
    rfl

theorem headIn_starting_of_queue {t : State} {k : Fin 4} (h : t.queue k = s.queue k) : waiterIsJob t k = waiterIsJob s k := by
  rw [waiterIsJob, h, waiterIsJob]

/-- The waiters in `l` are still to be served with the entry `e`, which a job among them begins to use. -/
structure Serves (e : Fin 8) (u : Option (Fin 8)) (l : List (Fin 4)) (s : State) : Prop where
  laws : CacheLaws u s
  jobs : Jobs s
  free : ∀ q ∈ l, q ∉ waitersOf s
  user : (u = none ∧ ∀ q ∈ l, waiterIsJob s q = false) ∨ u = some e ∧ ∃ q ∈ l, waiterIsJob s q = true

/-- A record is served and the heads of the others stay. -/
theorem Serves.record (h : Serves e u (q :: l) s) (hjob : waiterIsJob s q = false) (st : Status) (d : Detail) :
    Serves e u l (completeParked q st d s) := by
  have hwaiters : waitersOf (completeParked q st d s) = waitersOf s := waitersOf_of_cache ((completeParked_changes ..).cache rfl)
  have hself : waiterIsJob (completeParked q st d s) q = false := by
    cases hp : ctlIn .parked (s.queue q).head with
    | false => rwa [completeParked_of_not_parked hp]
    | true =>
      exact Bool.eq_false_iff.mpr fun hs => absurd
        ((classes_of_no_record (completeParked_no_record hp st d)).1.symm.trans (starting_active hs)) nofun
  have hother : ∀ k, waiterIsJob (completeParked q st d s) k = waiterIsJob s k := fun k => by
    by_cases hk : k = q
    · rw [hk, hself, hjob]
    · exact headIn_starting_of_queue (completeParked_queue_ne _ _ _ hk)
  refine ⟨h.laws.completeParked (h.free q List.mem_cons_self) st d, h.jobs.of_closed (jobLaw_true.closed.completeParked st d),
    fun k hk => hwaiters ▸ h.free k (List.mem_cons_of_mem _ hk), ?_⟩
  obtain ⟨hu, hno⟩ | ⟨hu, k, hk, hkj⟩ := h.user
  · exact .inl ⟨hu, fun k hk => (hother k).trans (hno k (List.mem_cons_of_mem _ hk))⟩
  · obtain rfl | hk := List.mem_cons.mp hk
    · exact absurd (hjob.symm.trans hkj) nofun
    · exact .inr ⟨hu, k, hk, (hother k).trans hkj⟩

theorem Serves.starts {pos : Nat} {hd : Header} {j : JobRec} (h : Serves e u (q :: l) s) (hh : (s.queue q).head = .data pos hd j)
    (hj : j.jstate = .starting) : Starts u s q pos hd j := ⟨h.laws, h.jobs, hh, hj, h.free q List.mem_cons_self⟩

/-- The only job is served. -/
theorem Serves.settled {t v : State} (h : Serves e u (q :: l) s) (hw : waitersOf v = waitersOf s) (ht : Settled q v t) :
    Serves e none l t :=
  ⟨ht.laws, ht.jobs, fun k hk => by
    rw [ht.waiters, hw]
    exact h.free k (List.mem_cons_of_mem _ hk), .inl ⟨rfl, fun k _ => ht.idle k⟩⟩

theorem Serves.passed (h : Serves e u (q :: l) s) (stale : Bool) (reads : List ReadChoice) :
    ∃ v, Serves e v l (servePassed e stale reads q s) := by
  cases hjob : waiterIsJob s q with
  | true =>
    obtain ⟨pos, hd, j, hh, hj⟩ := (headIn_iff _ _).mp hjob
    have hu : u = some e := h.user.elim (fun hn => absurd ((hn.2 q List.mem_cons_self).symm.trans hjob) nofun) fun hs => hs.1
    rw [servePassed_of_job hh hj]
    have hstart := (h.starts hh hj).setJob (j' := { j with chainEnt := some e, chainWait := .none }) hj (.inr hu.symm)
    exact ⟨none, h.settled (v := s.setHead q _) rfl (hstart.startWithChain hu.symm reads)⟩
  | false =>
    unfold servePassed
    split
    case h_1 pos hd j hh =>
      rw [if_neg fun hj => absurd (hjob.symm.trans ((headIn_iff _ _).mpr ⟨pos, hd, j, hh, hj⟩)) nofun]
      refine ⟨u, h.laws, h.jobs, fun k hk => h.free k (List.mem_cons_of_mem _ hk), h.user.imp (fun hn => ⟨hn.1, fun k hk =>
        hn.2 k (List.mem_cons_of_mem _ hk)⟩) ?_⟩
      rintro ⟨hu, k, hk, hkj⟩
      obtain rfl | hk := List.mem_cons.mp hk
      · exact absurd (hjob.symm.trans hkj) nofun
      · exact ⟨hu, k, hk, hkj⟩
    case h_2 =>
      split
      · exact ⟨u, h.record hjob _ _⟩
      · exact ⟨u, h.record hjob _ _⟩

theorem Serves.passedAll (h : Serves e u l s) (stale : Bool) (reads : List ReadChoice) :
    CacheLaws none (servePassedAll e stale reads l s) := by
  induction l generalizing s u with
  | nil =>
    obtain ⟨hu, -⟩ | ⟨-, q, hq, -⟩ := h.user
    · exact hu ▸ h.laws
    · cases hq
  | cons q l ih =>
    obtain ⟨v, hv⟩ := h.passed stale reads
    exact ih hv

/-- Waiters whose fill failed. -/
theorem CacheLaws.serveFailedAll (h : CacheLaws none s) (hjobs : Jobs s) (hfree : ∀ q ∈ l, q ∉ waitersOf s) (st : Status) :
    CacheLaws none (serveFailedAll st l s) := by
  induction l generalizing s with
  | nil => exact h
  | cons q l ih =>
    have hq := hfree q List.mem_cons_self
    have hstep : CacheLaws none (serveFailed st q s) ∧ waitersOf (serveFailed st q s) = waitersOf s := by
      unfold serveFailed
      split
      case isTrue hj =>
        obtain ⟨pos, hd, j, hh, hj⟩ := (headIn_iff _ _).mp hj
        have hsettled := (Starts.mk h hjobs hh hj hq).failStart (.inl rfl) st
        exact ⟨hsettled.laws, hsettled.waiters⟩
      case isFalse => exact ⟨h.completeParked hq st .none, waitersOf_of_cache ((completeParked_changes ..).cache rfl)⟩
    refine ih hstep.1 (hjobs.of_closed (jobLaw_true.closed.serveFailed st)) fun k hk => ?_
    rw [hstep.2]
    exact hfree k (List.mem_cons_of_mem _ hk)

theorem mem_inOrder {order ws : List (Fin 4)} : q ∈ inOrder order ws ↔ q ∈ ws := by
  simp only [inOrder, List.mem_append, List.mem_filter, List.mem_dedup, List.contains_iff_mem, Bool.not_eq_true',
    ← Bool.not_eq_true]
  tauto

end

/-! ### The end of a fill -/

section

variable {u : Option (Fin 8)} {s t : State} {f : Fill} {x : Entry} {lru' : List (Fin 8)}

theorem waits_of_pins {h : Head} {a : Word} (hp : pendingPin h = some a) : (chainView h).waits = some (none, a) := by
  obtain ⟨pos, hd, rfl⟩ := (pendingPin_eq_some_iff _ a).mp hp
  rfl

/-- The fill under way is that of `f`'s address in `f`'s entry, for `f`'s waiters. -/
structure Fills (s : State) (f : Fill) : Prop where
  target : fillTarget s = some (f.entry, f.addr)
  waiters : fillWaiters s = some (f.addr, f.waiters)

theorem fills_of_fill (hf : s.cache.fill = some f) : Fills s f := ⟨by rw [fillTarget, hf]; rfl, by rw [fillWaiters, hf]; rfl⟩

theorem CacheLaws.entry_of_fills (h : CacheLaws u s) (hf : Fills s f) :
    (s.entry f.entry).estate = .filling ∧ (s.entry f.entry).addr = f.addr :=
  ⟨(h.entries.filling f.entry).mpr ⟨f.addr, hf.target⟩, h.entries.fillAddr f.entry f.addr hf.target⟩

/-- The waiters of a fill leave the loader with it. -/
theorem CacheLaws.free_of_fill (h : CacheLaws u s) (hf : Fills s f) (hreqs : t.cache.reqs = s.cache.reqs)
    (hnone : t.cache.fill = none) {q : Fin 4} (hq : q ∈ f.waiters) : q ∉ waitersOf t := by
  have honce := h.waiters.once
  rw [hf.waiters] at honce
  rw [waitersOf, fillWaiters, hnone, hreqs]
  exact fun hm => (List.nodup_append.mp honce).2.2 q hq q hm rfl

/-- The fill under way ends with the entry `x`, which a STARTING job begins to use, or no job does. -/
theorem CacheLaws.endFill (h : CacheLaws none s) (hf : Fills s f) (ht : t = { s with cache := { s.cache with
      entries := s.cache.entries.set f.entry.val x, fill := none, lru := lru' } })
    (hfits : EntryFits x) (hstate : x.estate ≠ .filling) (haddr : x.estate ≠ .empty → x.addr = f.addr)
    (hlru : lru' = s.cache.lru ∧ ¬ Live x ∨ lru' = s.cache.lru ++ [f.entry] ∧ Live x)
    (huse : u = none ∧ x.inuse = false ∨ u = some f.entry ∧ x.inuse = true ∧ x.estate = .valid)
    (hpin : x.pinned = true → x.addr = f.addr ∧ ∃ q, (looks s q).pins = some f.addr) : CacheLaws u t := by
  have hentry : t.entry = Function.update s.entry f.entry x := by
    rw [← setEntry_entry s f.entry x, ht]
    rfl
  have hentries := h.entries
  rw [hf.target] at hentries
  obtain ⟨hfilling, hfa⟩ := h.entry_of_fills hf
  have hself : Function.update s.entry f.entry x f.entry = x := Function.update_self ..
  have hne : ∀ {k}, k ≠ f.entry → Function.update s.entry f.entry x k = s.entry k := fun hk => Function.update_of_ne hk ..
  have hnoUser : ∀ k, (looks s k).entry ≠ some f.entry := fun k hk =>
    absurd (hfilling.symm.trans (h.uses.holder k f.entry hk).1) nofun
  have hlooks : looks t = looks s := by rw [ht]; rfl
  have hnew : fillTarget t = none := by rw [ht]; rfl
  have hwait : fillWaiters t = none := by rw [ht]; rfl
  have hreqs : t.cache.reqs = s.cache.reqs := by rw [ht]
  have hlist : t.cache.lru = lru' := by rw [ht]
  refine ⟨by rw [hentry, hnew, hlist]; exact hentries.fillEnd hfits hstate haddr hlru, ?_, by rw [hlooks, hwait, hreqs]; exact h.waiters.endFill, ?_, ?_⟩
  · rw [hentry, hreqs]
    refine h.requests.update_same fun hx => ⟨by rw [hfilling]; nofun, ?_⟩
    rw [haddr hx, hfa]
  · rw [hentry, hlooks]
    refine ⟨fun k => ?_, fun q k hq => ?_, fun k hk => ?_⟩
    · by_cases hk : k = f.entry
      · rw [hk, hself]
        obtain ⟨rfl, hx⟩ | ⟨rfl, hx, -⟩ := huse
        · rw [hx]
          exact ⟨nofun, fun hr => hr.elim (fun ⟨q, _, hq⟩ => absurd hq (hnoUser q)) nofun⟩
        · exact ⟨fun _ => .inr rfl, fun _ => hx⟩
      · rw [hne hk, h.uses.held k]
        refine or_congr Iff.rfl ⟨nofun, fun hu => ?_⟩
        obtain ⟨rfl, -⟩ | ⟨rfl, -⟩ := huse
        · exact hu
        · exact absurd (Option.some.inj hu).symm hk
    · have hk : k ≠ f.entry := fun heq => hnoUser q (heq ▸ hq)
      obtain ⟨hv, hr | ⟨-, hu⟩⟩ := h.uses.holder q k hq
      · exact ⟨by rw [hne hk, hv], .inl hr⟩
      · cases hu
    · obtain ⟨rfl, -⟩ | ⟨rfl, -, hv⟩ := huse
      · cases hk
      · rw [← Option.some.inj hk, hself, hv]
  · rw [hentry, hlooks]
    refine h.pins.mono fun a ha => ?_
    obtain ⟨k, hk, ha⟩ | hq := ha
    · by_cases hkf : k = f.entry
      · rw [hkf, hself] at hk ha
        obtain ⟨hxa, q, hq⟩ := hpin hk
        exact .inr ⟨q, by rw [hq, ← hxa, ha]⟩
      · rw [hne hkf] at hk ha
        exact .inl ⟨k, hk, ha⟩
    · exact .inr hq

theorem CacheLaws.fillFailed (h : CacheLaws none s) (hjobs : Jobs s) (hf : Fills s f) (st : Status)
    (order : List (Fin 4)) : CacheLaws none (fillFailed st f order s) := by
  have hended : CacheLaws none ((noFill s).setEntry f.entry Entry.free) := h.endFill hf (lru' := s.cache.lru) rfl
    entryFits_free nofun (fun hn => absurd rfl hn) (.inl ⟨rfl, not_live_of_state nofun⟩) (.inl ⟨rfl, rfl⟩) nofun
  refine hended.serveFailedAll (hjobs.of_changes ((noFill_changes s).trans (changes_setEntry ..)) rfl rfl) (fun q hq => ?_) st
  exact h.free_of_fill (t := (noFill s).setEntry f.entry Entry.free) hf rfl rfl (mem_inOrder.mp hq)

/-- The fill ends: where a waiter is a job, it begins to use the entry. -/
theorem CacheLaws.fillPassed (h : CacheLaws none s) (hjobs : Jobs s) (hf : Fills s f) (order : List (Fin 4))
    (reads : List ReadChoice) : CacheLaws none (fillPassed f order reads s) := by
  obtain ⟨-, haddr⟩ := h.entry_of_fills hf
  have hserve : ∀ {t : State} {job : Bool} (stale : Bool), f.waiters.any (waiterIsJob s) = job →
      CacheLaws (if job then some f.entry else none) t → Changes [.cache] s t → t.cache.reqs = s.cache.reqs → t.cache.fill = none →
      CacheLaws none (servePassedAll f.entry stale reads (inOrder order f.waiters) t) := fun {t job} stale hany hlaws hc hreqs hfill => by
    have hsame : ∀ k, waiterIsJob t k = waiterIsJob s k := fun k => headIn_starting_of_queue (hc.queue rfl k)
    refine Serves.passedAll ⟨hlaws, hjobs.of_changes hc rfl rfl, fun q hq => h.free_of_fill hf hreqs hfill (mem_inOrder.mp hq), ?_⟩
      stale reads
    cases job with
    | false =>
      refine .inl ⟨rfl, fun q hq => ?_⟩
      rw [hsame]
      exact Bool.eq_false_iff.mpr (List.any_eq_false.mp hany q (mem_inOrder.mp hq))
    | true =>
      obtain ⟨q, hq, hjob⟩ := List.any_eq_true.mp hany
      exact .inr ⟨rfl, q, mem_inOrder.mpr hq, (hsame q).trans hjob⟩
  cases hstale : (s.entry f.entry).stale with
  | true =>
    rw [fillPassed_of_stale hstale rfl]
    refine hserve true rfl ?_ (((noFill_changes s).trans (changes_setEntry ..)).mono rfl) rfl rfl
    cases hany : f.waiters.any (waiterIsJob s) with
    | true =>
      rw [if_pos rfl]
      exact h.endFill hf (lru' := s.cache.lru) rfl ⟨nofun, nofun, fun _ _ => rfl⟩ nofun (fun _ => haddr)
        (.inl ⟨rfl, fun hl => absurd (hstale.symm.trans hl.2) nofun⟩) (.inr ⟨rfl, rfl, rfl⟩) nofun
    | false =>
      rw [if_neg Bool.false_ne_true, if_neg Bool.false_ne_true]
      exact h.endFill hf (lru' := s.cache.lru) rfl entryFits_free nofun (fun hn => absurd rfl hn)
        (.inl ⟨rfl, not_live_of_state nofun⟩) (.inl ⟨rfl, rfl⟩) nofun
  | false =>
    rw [fillPassed_of_fresh hstale rfl rfl]
    refine hserve false rfl ?_ ((((noFill_changes s).trans (changes_setEntry ..)).trans (lruJoin_changes ..)).mono rfl) rfl rfl
    refine h.endFill hf (lru' := s.cache.lru ++ [f.entry]) rfl
      ⟨nofun, fun _ => ⟨rfl, hstale⟩, fun _ hs => absurd (hstale.symm.trans hs) nofun⟩ nofun (fun _ => haddr) (.inr ⟨rfl, rfl, hstale⟩) ?_ fun hp => ⟨haddr, ?_⟩
    · cases hany : f.waiters.any (waiterIsJob s) with
      | true => exact .inr ⟨rfl, rfl, rfl⟩
      | false => exact .inl ⟨rfl, rfl⟩
    · obtain ⟨q, hq, hsome⟩ := List.any_eq_true.mp hp
      obtain ⟨a, ha⟩ := Option.isSome_iff_exists.mp hsome
      have hwaits := h.waiters.ofFill f.addr f.waiters hf.waiters q hq
      have heq : a = f.addr := by
        rw [ChainView.WaitsFor, looks, waits_of_pins ha] at hwaits
        simpa using hwaits
      exact ⟨q, heq ▸ ha⟩

end

end Sys2Proof.Machine
end

section
/-! SUPPORT. The cache's laws across the beginning of a fill and its parts (R82, R83). -/

namespace Sys2Proof.Machine

open Sys2Proof

/-! ### The waiters of a request become those of its fill -/

/-- A view with the fill under way. -/
def ChainView.marked (v : ChainView) : ChainView := { v with waits := v.waits.map fun w => (w.1.map fun _ => .filling, w.2) }

theorem ChainView.marked_marked (v : ChainView) : v.marked.marked = v.marked := by
  simp only [ChainView.marked, Option.map_map, Function.comp_def]

theorem ChainView.WaitsFor.marked {v : ChainView} {w : ChainWait} {a : Word} (h : v.WaitsFor w a) : v.marked.WaitsFor .filling a := by
  obtain h | h := h
  · exact .inl (by rw [ChainView.marked, h]; rfl)
  · exact .inr (by rw [ChainView.marked, h]; rfl)

section

variable {u : Option (Fin 8)} {s : State} {q k : Fin 4} {l : List (Fin 4)}

theorem chainView_marked (pos : Nat) (hd : Header) (j : JobRec) :
    chainView (.data pos hd { j with chainWait := .filling }) = (chainView (.data pos hd j)).marked := by
  by_cases hj : j.jstate = .starting
  · rw [chainView_of_starting hj, chainView_of_starting (j := { j with chainWait := .filling }) hj, ChainView.marked, Option.map_map]
    rfl
  · rw [chainView, headWaits, if_neg hj, chainView, headWaits, if_neg hj]
    rfl

theorem chainView_marked_of_no_job {h : Head} (hn : headJob h = none) : (chainView h).marked = chainView h := by
  cases h with
  | data pos hd j => cases hn
  | empty => rfl
  | fetching pos => rfl
  | control pos hd body c =>
    simp only [chainView, ChainView.marked, headWaits]
    split
    · cases loadAddr body <;> rfl
    · rfl

/-- The first of the waiters is marked. -/
theorem markFilling_cons (q : Fin 4) (l : List (Fin 4)) (s : State) : ∃ t, markFilling (q :: l) s = markFilling l t ∧
    Changes [.queues] s t ∧ looks t = Function.update (looks s) q (looks s q).marked := by
  cases hj : headJob (s.queue q).head with
  | none =>
    refine ⟨s, by rw [markFilling, hj], Changes.refl .., ?_⟩
    rw [looks, chainView_marked_of_no_job hj]
    exact (Function.update_eq_self q (looks s)).symm
  | some j =>
    obtain ⟨pos, hd, hh⟩ := (headJob_eq_some_iff _ j).mp hj
    refine ⟨s.setHead q (.data pos hd { j with chainWait := .filling }), markFilling_cons_of_data hh l, changes_setHead ..,
      looks_update (fun k hk => State.queue_setHead_ne _ _ hk) ?_⟩
    rw [State.queue_setHead_self, chainView_marked, looks, hh]

theorem looks_markFilling (l : List (Fin 4)) (s : State) (k : Fin 4) :
    looks (markFilling l s) k = if k ∈ l then (looks s k).marked else looks s k := by
  induction l generalizing s with
  | nil => rfl
  | cons q l ih =>
    obtain ⟨t, ht, -, hl⟩ := markFilling_cons q l s
    rw [ht, ih, hl]
    by_cases hk : k = q
    · rw [hk, Function.update_self, ChainView.marked_marked, if_pos List.mem_cons_self, ite_self]
    · rw [Function.update_of_ne hk]
      simp only [List.mem_cons, hk, false_or]

/-- A head that waits to pin an address has its pin already. -/
theorem pinRefused_of_pins {a : Word} (hp : (looks s q).pins = some a) : pinRefused s true a = false := by
  obtain ⟨pos, hd, hh⟩ := (pendingPin_eq_some_iff _ a).mp hp
  exact (pinRefused_eq_false_iff s true a).mpr fun _ => .inl ((mem_pendingPins_iff s a).mpr ⟨q, pos, hd, hh⟩)

theorem CacheLaws.markFilling (h : CacheLaws u s) (hl : ∀ q ∈ l, q ∉ waitersOf s) : CacheLaws u (markFilling l s) := by
  induction l generalizing s with
  | nil => exact h
  | cons q l ih =>
    obtain ⟨t, ht, hc, hlooks⟩ := markFilling_cons q l s
    have hcache : t.cache = s.cache := hc.cache rfl
    rw [ht]
    refine ih (h.update hcache hlooks (hl q List.mem_cons_self) rfl rfl fun a ha => pinRefused_of_pins ha) fun k hk => ?_
    rw [waitersOf_of_cache hcache]
    exact hl k (List.mem_cons_of_mem _ hk)

/-! ### The request leaves the list -/

theorem fillWaiters_of_none (hf : s.cache.fill = none) : fillWaiters s = none := by rw [fillWaiters, hf]; rfl

theorem fillTarget_of_none (hf : s.cache.fill = none) : fillTarget s = none := by rw [fillTarget, hf]; rfl

theorem CacheLaws.next {r : Request} {rest : List Request} (h : CacheLaws u s) (hf : s.cache.fill = none)
    (hr : s.cache.reqs = r :: rest) : CacheLaws u { s with cache := { s.cache with reqs := rest } } ∧
      ∀ q ∈ r.waiters, q ∉ waitersOf { s with cache := { s.cache with reqs := rest } } := by
  have hwait := h.waiters
  have hreqs := h.requests
  rw [fillWaiters_of_none hf, hr] at hwait
  rw [hr] at hreqs
  have hnone : fillWaiters { s with cache := { s.cache with reqs := rest } } = none := fillWaiters_of_none hf
  obtain ⟨hnext, hfree⟩ := hwait.next
  refine ⟨{ h with requests := hreqs.sublist (List.sublist_cons_self ..), waiters := by rw [hnone]; exact hnext }, fun q hq => ?_⟩
  rw [waitersOf, hnone]
  exact hfree q hq

/-! ### The fill begins -/

theorem CacheLaws.victim_not_inuse (h : CacheLaws u s) {e : Fin 8} (hv : chooseVictim s = some e) : (s.entry e).inuse = false := by
  by_cases hfull : ∀ f : Fin 8, (s.entry f).estate ≠ .empty
  · rw [chooseVictim_of_full hfull] at hv
    have hrep : replaceable (s.entry e) = true := List.find?_some (p := fun e => replaceable (s.entry e)) hv
    cases hi : (s.entry e).inuse with
    | false => rfl
    | true => exact absurd (((replaceable_eq_false_iff _).mpr (.inr hi)).symm.trans hrep) nofun
  · unfold chooseVictim at hv
    split at hv
    case h_1 f hf =>
      have hempty : (s.entry f).estate = .empty := by simpa using List.find?_some hf
      rw [← Option.some.inj hv, (h.entries.fits f).empty hempty]
      rfl
    case h_2 hnone => exact absurd (fun f => by simpa using List.find?_eq_none.mp hnone f (mem_entryIds f)) hfull

/-- The fill of a request stands in an entry that no job uses. -/
theorem CacheLaws.placeFill {t : State} {r : Request} {rest : List Request} {e : Fin 8} (h : CacheLaws none s)
    (hf : s.cache.fill = none) (hr : s.cache.reqs = r :: rest) (huse : (s.entry e).inuse = false)
    (hentry : t.entry = Function.update s.entry e { Entry.free with estate := .filling, addr := r.addr })
    (hcache : t.cache.lru = s.cache.lru.filter (fun y => y != e) ∧ t.cache.reqs = rest ∧ t.cache.fill = some (newFill r e))
    (hlooks : ∀ k, looks t k = if k ∈ r.waiters then (looks s k).marked else looks s k) : CacheLaws none t := by
  obtain ⟨hlru, hreqs, hfill⟩ := hcache
  have hentries := h.entries
  rw [fillTarget_of_none hf] at hentries
  have hwaiters := h.waiters
  rw [fillWaiters_of_none hf, hr] at hwaiters
  have hrequests := h.requests
  rw [hr] at hrequests
  have hfills : Fills t (newFill r e) := fills_of_fill hfill
  have hsame : ∀ k, (looks t k).job = (looks s k).job ∧ (looks t k).entry = (looks s k).entry ∧ (looks t k).pins = (looks s k).pins :=
    fun k => by
      rw [hlooks k]
      split <;> exact ⟨rfl, rfl, rfl⟩
  refine ⟨?_, ?_, ?_, ?_, ?_⟩
  · rw [hentry, hlru, hfills.target]
    exact hentries.fillBegin (hrequests.apart r List.mem_cons_self)
  · rw [hentry, hreqs]
    refine (hrequests.sublist (List.sublist_cons_self ..)).update fun _ k hk heq => ?_
    exact (List.nodup_cons.mp hrequests.addrs).1 (List.mem_map.mpr ⟨k, hk, heq.symm⟩)
  · rw [hfills.waiters, hreqs]
    refine hwaiters.beginFill (fun q hq => ?_) fun q hq => ?_
    · rw [hlooks q, if_pos hq]
      exact (hwaiters.ofReq r List.mem_cons_self q hq).marked
    · rw [hlooks q, if_neg hq]
  · rw [hentry]
    refine h.uses.congr (fun k => ⟨(hsame k).1, (hsame k).2.1⟩) (fun f => ?_) fun f hv hin => ?_
    · by_cases hfe : f = e
      · rw [hfe, Function.update_self, huse]
        rfl
      · rw [Function.update_of_ne hfe]
    · have hfe : f ≠ e := by
        rintro rfl
        exact absurd (hin.symm.trans huse) nofun
      rw [Function.update_of_ne hfe, hv]
  · rw [hentry]
    refine PinLaw.unpin (h.pins.mono fun a ha => ?_) rfl
    exact ha.imp_right fun ⟨k, hk⟩ => ⟨k, (hsame k).2.2 ▸ hk⟩

theorem CacheLaws.beginFill {r : Request} {rest : List Request} (h : CacheLaws none s) (hjobs : Jobs s) (hf : s.cache.fill = none)
    (hr : s.cache.reqs = r :: rest) (order : List (Fin 4)) : CacheLaws none (beginFill r rest order s) := by
  obtain ⟨hnext, hfree⟩ := h.next hf hr
  have hcache := takenRequest_cache r rest s
  have htaken : CacheLaws none (takenRequest r rest s) := hnext.markFilling hfree
  have hfreeTaken : ∀ q ∈ inOrder order r.waiters, q ∉ waitersOf (takenRequest r rest s) := fun q hq => by
    rw [waitersOf_of_cache (s := { s with cache := { s.cache with reqs := rest } }) hcache]
    exact hfree q (mem_inOrder.mp hq)
  have hjobsTaken : Jobs (takenRequest r rest s) :=
    (hjobs.of_changes (changes_cache ..) rfl rfl).of_closed (jobLaw_true.closed.markFilling r.waiters _)
  have hfail : ∀ st, CacheLaws none (Machine.serveFailedAll st (inOrder order r.waiters) (takenRequest r rest s)) :=
    htaken.serveFailedAll hjobsTaken hfreeTaken
  unfold Machine.beginFill
  dsimp only
  split
  · exact hfail .chainInvalid
  · split
    · exact hfail .chainNoRoom
    case h_2 e he =>
      rw [show Machine.markFilling r.waiters { s with cache := { s.cache with reqs := rest } } = takenRequest r rest s from rfl,
        chooseVictim_takenRequest] at he
      have hentry : (takenRequest r rest s).entry = s.entry := by
        funext f
        rw [State.entry, hcache, State.entry]
      refine h.placeFill hf hr (h.victim_not_inuse he) ?_ ⟨?_, congrArg Cache.reqs hcache, rfl⟩ fun k => looks_markFilling r.waiters _ k
      · rw [← hentry]
        exact setEntry_entry (lruDrop e (takenRequest r rest s)) e _
      · have hlru : (takenRequest r rest s).cache.lru = s.cache.lru := by rw [hcache]
        exact congrArg (List.filter fun y => y != e) hlru

end

/-! ### The parts of a fill (R83) -/

section

variable {u : Option (Fin 8)} {s : State} {f g : Fill}

/-- The fill goes on with its next part. -/
theorem CacheLaws.setFill (h : CacheLaws u s) (hf : Fills s f) (hg : g.entry = f.entry ∧ g.addr = f.addr ∧ g.waiters = f.waiters) :
    CacheLaws u { s with cache := { s.cache with fill := some g } } := by
  obtain ⟨hentry, haddr, hwaiters⟩ := hg
  have hfills : Fills { s with cache := { s.cache with fill := some g } } g := fills_of_fill rfl
  refine ⟨?_, h.requests, ?_, h.uses, h.pins⟩
  · rw [hfills.target, hentry, haddr, ← hf.target]
    exact h.entries
  · rw [hfills.waiters, haddr, hwaiters, ← hf.waiters]
    exact h.waiters

/-- Stages are read into the entry that is being filled. -/
theorem CacheLaws.putStages (h : CacheLaws u s) (hf : Fills s f) (stages : List StageRec) : CacheLaws u (putStages f stages s) := by
  obtain ⟨hfilling, -⟩ := h.entry_of_fills hf
  refine h.setFlags ⟨fun hn => ?_, (h.entries.fits f.entry).pinned, (h.entries.fits f.entry).stale⟩ rfl rfl Iff.rfl rfl fun hp => .inl hp
  exact nomatch hfilling.symm.trans hn

theorem CacheLaws.partDone (h : CacheLaws none s) (hjobs : Jobs s) (hf : Fills s f) (order : List (Fin 4)) (reads : List ReadChoice) :
    CacheLaws none (partDone f order reads s) := by
  have hfail : ∀ st, CacheLaws none (Machine.fillFailed st f order s) := fun st => h.fillFailed hjobs hf st order
  have hput : ∀ stages, Fills (Machine.putStages f stages s) f := fun stages => ⟨hf.target, hf.waiters⟩
  have hpass : ∀ stages, CacheLaws none (Machine.fillPassed f order reads (Machine.putStages f stages s)) := fun stages =>
    (h.putStages hf stages).fillPassed (hjobs.of_changes (putStages_changes ..) rfl rfl) (hput stages) order reads
  unfold Machine.partDone
  split
  · exact hfail .busError
  · split
    · unfold headerDone
      dsimp only
      split
      · exact h.setFill hf ⟨rfl, rfl, rfl⟩
      · exact hfail .chainInvalid
    · unfold stagesDone
      split
      · exact hfail .chainInvalid
      · split
        · exact hpass _
        · split
          · exact (h.putStages hf _).setFill (hput _) ⟨rfl, rfl, rfl⟩
          · exact hfail .chainInvalid
    · exact hpass _

end

end Sys2Proof.Machine
end

section
/-! SUPPORT. The cache's laws across the control records, a job's end and the service of the CONTROL place (R69, R70, R86 to R93,
R120). -/

namespace Sys2Proof.Machine

open Sys2Proof

/-! ### A control record's execution ends -/

section

variable {u : Option (Fin 8)} {s : State} {q : Fin 4} {pos : Nat} {hd : Header} {body : ControlRec}

theorem CacheLaws.free_of_control (h : CacheLaws u s) {c : CtlState} (hh : (s.queue q).head = .control pos hd body c)
    (hc : c = .parked → loadAddr body = none) : q ∉ waitersOf s := by
  refine h.waiters.not_mem ?_
  rw [looks, hh, chainView, headWaits]
  split
  case isTrue hp => rw [hc hp]; rfl
  case isFalse => rfl

/-- A head that is no waiter and has no job hands its completion over. -/
theorem CacheLaws.completeHead (h : CacheLaws u s) (hq : q ∉ waitersOf s) (ha : jobActive (s.queue q).head = false) (r : CqRec) :
    CacheLaws u (completeHead q r s) :=
  h.leave ((completeHead_changes ..).cache rfl) (fun _ hk => completeHead_queue_ne _ _ hk) hq ha
    (chainView_of_no_record (completeHead_no_record r))

theorem CacheLaws.finishControl (h : CacheLaws u s) (hx : ctlIn .executing (s.queue q).head = true) (st : Status) (n : Nat)
    (d : Detail) (hit : Bool) : CacheLaws u (finishControl q st n d hit s) := by
  obtain ⟨pos, hd, body, hh⟩ := (ctlIn_iff _ _).mp hx
  rw [finishControl_eq hh]
  exact CacheLaws.completeHead (s := { s with cu := { s.cu with work := none } }) (h.of_changes (changes_cu ..) rfl rfl)
    (h.free_of_control hh nofun) (inactive_of_executing hx) _

/-- A record parks, its pin among the 7. -/
theorem CacheLaws.parkControl (h : CacheLaws u s) (hh : (s.queue q).head = .control pos hd body .executing)
    (hpin : ∀ a, body = .chainControl .loadPin a → pinRefused s true a = false) : CacheLaws u (parkControl q s) := by
  have hold : looks s q = .rests := by rw [looks, hh, chainView_of_control (c := .executing) nofun]
  rw [parkControl_eq hh]
  refine h.update rfl (looks_update (fun k hk => State.queue_setHead_ne _ _ hk) (by rw [State.queue_setHead_self])) (h.free_of_control hh nofun)
    (by rw [hold]; rfl) (by rw [hold]; rfl) fun a ha => ?_
  obtain ⟨pos', hd', heq⟩ := (pendingPin_eq_some_iff _ a).mp ha
  cases heq
  exact hpin a rfl

theorem looks_parkControl_waits (hh : (s.queue q).head = .control pos hd body .executing) :
    (looks (parkControl q s) q).waits = (loadAddr body).map fun a => (none, a) := by
  rw [parkControl_eq hh, looks, State.queue_setHead_self]
  rfl

theorem waitersOf_parkControl (q : Fin 4) (s : State) : waitersOf (parkControl q s) = waitersOf s :=
  waitersOf_of_cache ((parkControl_changes q s).cache rfl)

end

/-! ### CHAIN_CONTROL (R90 to R93) -/

section

variable {u : Option (Fin 8)} {s : State} {q : Fin 4} {pos : Nat} {hd : Header} {action : ChainAction} {addr : Word} {pin : Bool}

/-- A LOAD or LOAD_PIN executes. -/
structure Loads (s : State) (q : Fin 4) (pos : Nat) (hd : Header) (action : ChainAction) (addr : Word) (pin : Bool) : Prop where
  head : (s.queue q).head = .control pos hd (.chainControl action addr) .executing
  load : loadAddr (.chainControl action addr) = some addr
  pin : action = .loadPin → pin = true

theorem Loads.executing (hl : Loads s q pos hd action addr pin) : ctlIn .executing (s.queue q).head = true :=
  (ctlIn_iff _ _).mpr ⟨pos, hd, _, hl.head⟩

/-- The record parks before it joins the waiters. -/
theorem Loads.parked (hl : Loads s q pos hd action addr pin) (h : CacheLaws u s) (hfits : pinRefused s pin addr = false) :
    CacheLaws u (parkControl q s) ∧ q ∉ waitersOf (parkControl q s) ∧ (looks (parkControl q s) q).waits = some (none, addr) := by
  refine ⟨h.parkControl hl.head fun a ha => ?_, ?_, ?_⟩
  · cases ha
    rw [← hl.pin rfl]
    exact hfits
  · rw [waitersOf_parkControl]
    exact h.free_of_control hl.head nofun
  · rw [looks_parkControl_waits hl.head, hl.load]
    rfl

theorem CacheLaws.chainLoad (h : CacheLaws u s) (hl : Loads s q pos hd action addr pin) : CacheLaws u (chainLoad q pin addr s) := by
  have hfin := h.finishControl hl.executing
  have hpark : ∀ c : Cache, Machine.parkControl q { s with cache := c } = { Machine.parkControl q s with cache := c } := fun c => by
    rw [parkControl_eq hl.head, parkControl_eq (u := { s with cache := c }) hl.head]
    rfl
  cases hf : findEntry s addr with
  | some e =>
    obtain ⟨haddr, hstate⟩ := findEntry_valid_or_filling hf
    have hfits := h.entries.fits e
    cases hstale : (s.entry e).stale with
    | true =>
      rw [chainLoad_of_stale hf hstale]
      exact hfin ..
    | false =>
      by_cases href : pinRefused s pin addr = false ∨ (s.entry e).pinned = true
      · obtain hv | hfl := hstate
        · rw [chainLoad_of_hit hf hstale hv href]
          have hset : CacheLaws u (s.setEntry e { s.entry e with pinned := (s.entry e).pinned || pin }) :=
            h.setFlags ⟨fun hn => absurd (hv.symm.trans hn) nofun, fun _ => ⟨hv, hstale⟩, hfits.stale⟩ rfl rfl Iff.rfl rfl fun hp => by
              obtain hp | rfl := (Bool.or_eq_true ..).mp hp
              · exact .inl hp
              · exact href.symm.imp_right fun hr => haddr ▸ hr
          exact (hset.touch e).finishControl hl.executing ..
        · have hunpinned : (s.entry e).pinned ≠ true := fun hp => absurd (hfl.symm.trans (hfits.pinned hp).1) nofun
          have hroom := href.resolve_right hunpinned
          rw [chainLoad_of_filling hf hstale hfl hroom]
          obtain ⟨f, hfill, -, hfa⟩ := h.fill_of_filling hfl
          obtain ⟨hlaws, hfree, hwaits⟩ := hl.parked h hroom
          have hcache : (Machine.parkControl q s).cache = s.cache := (parkControl_changes q s).cache rfl
          have hjoin := hlaws.joinFill (by rw [hcache, hfill]) hfree (.inr (by rw [hwaits, hfa, haddr]))
          rw [Machine.joinFill, hpark]
          rwa [Machine.joinFill, hcache] at hjoin
      · obtain ⟨hroom, hp⟩ := not_or.mp href
        rw [chainLoad_of_refused_entry hf hstale (Bool.eq_false_iff.mpr hp) (Bool.not_eq_false _ ▸ hroom)]
        exact hfin ..
  | none =>
    cases href : pinRefused s pin addr with
    | true =>
      rw [chainLoad_of_refused hf href]
      exact hfin ..
    | false =>
      obtain ⟨hlaws, hfree, hwaits⟩ := hl.parked h href
      have hcache : (Machine.parkControl q s).cache = s.cache := (parkControl_changes q s).cache rfl
      cases hreq : requested s addr with
      | true =>
        rw [chainLoad_of_requested hf href hreq]
        have hjoin := hlaws.joinRequest (a := addr) (by rw [requested, hcache]; exact hreq) hfree (.inr hwaits)
        rw [Machine.joinRequest, hpark]
        rwa [Machine.joinRequest, hcache] at hjoin
      | false =>
        cases hplace : placeFree s .control with
        | true =>
          rw [chainLoad_of_place hf href hreq hplace]
          have hjoin := hlaws.placeRequest (a := addr) (p := .control) (by rw [requested, hcache]; exact hreq)
            (by rw [placeFree, hcache]; exact hplace) ((findEntry_eq_none_iff _ _).mpr ?_) hfree (.inr hwaits)
          · rw [Machine.placeRequest, hpark]
            rwa [Machine.placeRequest, hcache] at hjoin
          · rw [entry_congr hcache]
            exact (findEntry_eq_none_iff _ _).mp hf
        | false =>
          rw [chainLoad_of_wait hf href hreq hplace]
          exact h.of_changes (changes_cu ..) rfl rfl

theorem CacheLaws.chainUnpin (h : CacheLaws u s) (hx : ctlIn .executing (s.queue q).head = true) (addr : Word) :
    CacheLaws u (chainUnpin q addr s) := by
  unfold Machine.chainUnpin
  split
  case h_1 e he =>
    dsimp only
    split
    case isTrue hv =>
      have hset : CacheLaws u (s.setEntry e { s.entry e with pinned := false }) :=
        h.setFlags ⟨fun hn => absurd (hv.1.symm.trans hn) nofun, nofun, (h.entries.fits e).stale⟩ rfl rfl Iff.rfl rfl nofun
      exact hset.finishControl hx ..
    case isFalse => exact h.finishControl hx ..
  case h_2 => exact h.finishControl hx ..

theorem CacheLaws.chainControl (h : CacheLaws u s) (hh : (s.queue q).head = .control pos hd (.chainControl action addr) .executing) :
    CacheLaws u (chainControl q action addr s) := by
  have hx : ctlIn .executing (s.queue q).head = true := (ctlIn_iff _ _).mpr ⟨pos, hd, _, hh⟩
  cases action with
  | load => exact h.chainLoad ⟨hh, rfl, nofun⟩
  | loadPin => exact h.chainLoad ⟨hh, rfl, fun _ => rfl⟩
  | unpin => exact h.chainUnpin hx addr
  | invalidate =>
    change CacheLaws u (chainInvalidate q addr s)
    unfold chainInvalidate
    split
    · exact (h.invalidate _).finishControl (by rw [(invalidate_changes ..).queue rfl]; exact hx) ..
    · exact h.finishControl hx ..
  | invalidateAll =>
    change CacheLaws u (chainInvalidateAll q s)
    unfold chainInvalidateAll
    exact (h.invalidateAll _).finishControl (by rw [(invalidateAll_changes ..).queue rfl]; exact hx) ..

/-- A LOAD that waits for the CONTROL place looks up its address again. -/
theorem CacheLaws.retryControlPlace (h : CacheLaws u s) (hunits : UnitsSound s) : CacheLaws u (retryControlPlace s) := by
  unfold Machine.retryControlPlace
  split
  case h_1 q hw =>
    split
    · split
      case h_1 pos hd action addr c hh =>
        have hx : ctlIn .executing (s.queue q).head = true := (hunits.executing q).mpr (by rw [hw]; rfl)
        rw [hh] at hx
        have hc : c = .executing := by simpa [ctlIn] using hx
        exact h.chainControl (hc ▸ hh)
      case h_2 => exact h
    · exact h
  case h_2 => exact h

end

/-! ### ABORT (R67 to R72) -/

section

variable {s : State} {q : Fin 4}

theorem CacheLaws.completeJob {pos : Nat} {hd : Header} {j : JobRec} (h : CacheLaws none s) (hh : (s.queue q).head = .data pos hd j)
    (hj : queuedState j.jstate) (st : Status) : CacheLaws none (completeJob q st s) := by
  have hunseen : Unseen (s.queue q).head := by
    rw [hh]
    exact unseen_of_queued hj
  rw [completeJob_of_data hh]
  exact h.completeHead (h.waiters.not_mem ((unseen_iff _).mp hunseen).1) hunseen.inactive _

theorem CacheLaws.completeControl {pos : Nat} {hd : Header} {body : ControlRec} {c : CtlState} (h : CacheLaws none s)
    (hh : (s.queue q).head = .control pos hd body c) (hq : q ∉ waitersOf s) (st : Status) (n : Nat) (d : Detail) (hit : Bool) :
    CacheLaws none (completeControl q st n d hit s) := by
  simp only [Machine.completeControl, hh]
  exact h.completeHead hq (by rw [hh]; rfl) _

/-- A PARKED target of an ABORT is withdrawn from what it waits for. -/
theorem CacheLaws.abortParked {pos : Nat} {hd : Header} {body : ControlRec} (h : CacheLaws none s) (hjobs : Jobs s)
    (hh : (s.queue q).head = .control pos hd body .parked) : CacheLaws none (abortParked q body s) := by
  have hnone : loadAddr body = none → CacheLaws none (Machine.completeControl q .aborted 0 .none false s) := fun hn =>
    h.completeControl hh (h.free_of_control hh fun _ => hn) _ _ _ _
  cases body with
  | bindSlot p j action =>
    have hc := withdrawSlot_changes p j s
    exact (h.of_changes hc rfl rfl).completeControl ((congrArg QueueRec.head (hc.queue rfl q)).trans hh)
      ((waitersOf_of_cache (hc.cache rfl)).symm ▸ h.free_of_control hh fun _ => rfl) _ _ _ _
  | chainControl action addr =>
    obtain ⟨hlaws, hfree⟩ := h.withdrawWaiter q
    have hc := withdrawWaiter_changes q s
    have hhead : ((Machine.withdrawWaiter q s).queue q).head = .control pos hd (.chainControl action addr) .parked :=
      (congrArg QueueRec.head (hc.queue rfl q)).trans hh
    have hstart : headIn .starting ((Machine.withdrawWaiter q s).queue q).head = false := by rw [hhead]; rfl
    obtain ⟨hretry, hwaiters⟩ := hlaws.retryJobPlace (hjobs.of_changes hc rfl rfl)
    refine hretry.completeControl (pos := pos) (hd := hd) (body := .chainControl action addr) (c := .parked) ?_
      (fun hm => hfree (hwaiters q hstart hm)) _ _ _ _
    rw [retryJobPlace_queue _ hstart, hhead]
  | _ => exact hnone rfl

/-- An executing ABORT. -/
theorem CacheLaws.abortTarget (h : CacheLaws none s) (hjobs : Jobs s) (hx : ctlIn .executing (s.queue q).head = true) (k : Fin 4) :
    CacheLaws none (abortTarget q k s) := by
  have hne : ∀ {x : Head}, (s.queue k).head = x → ctlIn .executing x = false → q ≠ k := fun hk hno heq => by
    rw [heq, hk, hno] at hx
    cases hx
  unfold Machine.abortTarget
  split
  case h_1 pos hd j hh =>
    have hqk := hne hh rfl
    split
    case h_1 hj =>
      exact (h.completeJob hh (.inl hj) _).finishControl (by rw [completeJob_queue_ne _ _ hqk]; exact hx) ..
    case h_2 hj =>
      exact (h.completeJob hh (.inr hj) _).finishControl (by rw [completeJob_queue_ne _ _ hqk]; exact hx) ..
    case h_3 hj =>
      obtain ⟨hlaws, hfree⟩ := h.withdrawWaiter k
      have hc := withdrawWaiter_changes k s
      have hstarts : Starts none (Machine.withdrawWaiter k s) k pos hd j :=
        ⟨hlaws, hjobs.of_changes hc rfl rfl, (congrArg QueueRec.head (hc.queue rfl k)).trans hh, hj, hfree⟩
      have hfailed := hstarts.failStart (.inl rfl) .aborted
      exact hfailed.laws.finishControl (by rw [hfailed.queues q hqk, hc.queue rfl]; exact hx) ..
    case h_4 => exact h.of_changes ((changes_stopReq s true).trans (changes_cu ..)) rfl rfl
  case h_2 pos hd body c hh =>
    cases c with
    | controlWait =>
      have hqk := hne hh rfl
      exact (h.completeControl hh (h.free_of_control hh nofun) _ _ _ _).finishControl
        (by rw [completeControl_queue_ne _ _ _ _ _ hqk]; exact hx) ..
    | parked =>
      have hqk := hne hh rfl
      exact (h.abortParked hjobs hh).finishControl
        (by rw [ControlClosed.abortParked_queue_ne body s hqk (ControlClosed.not_starting_of_executing hx)]; exact hx) ..
    | executing => exact h.finishControl hx ..
  case h_3 => exact h.finishControl hx ..

end

/-! ### Any control record -/

section

variable {s : State} {q : Fin 4}

theorem CacheLaws.executeControl {pos : Nat} {hd : Header} {body : ControlRec} (h : CacheLaws none s) (hjobs : Jobs s)
    (hh : (s.queue q).head = .control pos hd body .executing) : CacheLaws none (executeControl q body s) := by
  have hx : ctlIn .executing (s.queue q).head = true := (ctlIn_iff _ _).mpr ⟨pos, hd, body, hh⟩
  have hfin : ∀ {t : State} {F : List Part}, Changes F s t → Part.queues.isIn F = false → Part.cache.isIn F = false →
      ∀ st n d hit, CacheLaws none (Machine.finishControl q st n d hit t) := fun hc hq hcache st n d hit =>
    (h.of_changes hc hq hcache).finishControl (by rw [hc.queue hq]; exact hx) st n d hit
  have hend := h.finishControl hx
  cases body with
  | defineStream n base length hist producer consumer policy idle =>
    rw [Machine.executeControl, execDefine]
    split
    · exact hend ..
    · split
      · exact hend ..
      · exact hfin (((changes_store ..).trans (changes_setStream ..)).trans (notify_changes ..)) rfl rfl ..
  | retireStream n =>
    rw [Machine.executeControl]
    unfold execRetire
    split
    · exact hfin ((changes_setStream ..).trans (notify_changes ..)) rfl rfl ..
    · exact hend ..
  | readStream n addr rearm =>
    rw [Machine.executeControl, execRead]
    split
    · exact h.of_changes (changes_cu ..) rfl rfl
    · exact hend ..
  | bindSlot p j action =>
    rw [Machine.executeControl]
    unfold execBind
    split
    · have hc := recordPending_changes p j action q s
      split
      · exact (h.of_changes hc rfl rfl).parkControl (body := .bindSlot p j action) (by rw [hc.queue rfl]; exact hh) nofun
      · exact hfin (hc.trans (applySlot_changes ..)) rfl rfl ..
    · exact hend ..
  | clearContext c =>
    rw [Machine.executeControl, execClearContext]
    split
    · exact hend ..
    · split
      · exact hfin (changes_setContext ..) rfl rfl ..
      · exact hend ..
  | chainControl action addr => exact h.chainControl hh
  | abort k tag =>
    rw [Machine.executeControl, execAbort]
    split
    · exact h.abortTarget hjobs hx k
    · exact hend ..
  | marker => exact hend ..

/-! ### The end of a job (R86, R120) -/

theorem CacheLaws.endAbort {u : Option (Fin 8)} (h : CacheLaws u s)
    (hx : ∀ a, s.cu.work = some (.abortWait a q) → ctlIn .executing (s.queue a).head = true) : CacheLaws u (endAbort q s) := by
  by_cases hw : ∃ a, s.cu.work = some (.abortWait a q)
  · obtain ⟨a, hw⟩ := hw
    rw [endAbort_of_waiting hw]
    exact h.finishControl (hx a hw) ..
  · rw [endAbort_of_none fun a ha => hw ⟨a, ha⟩]
    exact h

theorem releasedState_cache (j : JobRec) (s : State) : (releasedState j s).cache = (useEndOf j s).cache :=
  useEndOf_cache_congr j (((endStreams_changes ..).trans (endContext_changes ..)).cache rfl)

theorem CacheLaws.endOfJob (h : CacheLaws none s) (hunits : UnitsSound s) (hst : s.dp.st = .settle) : CacheLaws none (endOfJob s) := by
  obtain ⟨pos, hd, j, hh, hj, heq, -⟩ := hunits.toJobs.endOfJob hst
  have hview : looks s s.dp.jobq = { ChainView.rests with job := some .running, entry := j.chainEnt } := by
    rw [looks, hh, chainView_of_running hj]
  have hactive : jobActive (s.queue s.dp.jobq).head = true := running_active ((headIn_iff _ _).mpr ⟨pos, hd, j, hh, hj⟩)
  have hdrop := endedState_drops hd j s
  have hchanges := endedState_changes hd j s
  have hended : CacheLaws none (endedState hd j s) := by
    refine h.unuse (q := s.dp.jobq) (j := j) (by rw [hview]) (fun k hk => chainView_job_of_inactive ?_) (.inl rfl)
      (h.waiters.not_mem (by rw [hview]; rfl)) ((hchanges.cache rfl).trans (releasedState_cache j s))
      (looks_update hdrop.others (chainView_of_no_record (completeHead_no_record _)))
    exact Bool.eq_false_iff.mpr fun ha => hk (hunits.oneJob k _ ha hactive)
  rw [heq]
  refine (hended.endAbort fun a hw => ?_).of_changes (checkDrain_changes _) rfl rfl
  rw [((releasedState_changes j s).trans hchanges).cu rfl] at hw
  have hx : ctlIn .executing (s.queue a).head = true := (hunits.executing a).mpr (by rw [hw]; rfl)
  have hne : a ≠ s.dp.jobq := by
    rintro rfl
    rw [inactive_of_executing hx] at hactive
    cases hactive
  rw [hdrop.others a hne]
  exact hx

end

end Sys2Proof.Machine
end

section
/-! SUPPORT. The chain cache's laws under every command (R76 to R93). -/

namespace Sys2Proof.Machine

open Sys2Proof

/-! ### The operations that leave the loader alone -/

/-- The units agree, and the cache's laws hold. -/
structure Cached (s : State) : Prop where
  units : UnitsSound s
  laws : CacheLaws none s

/-- From `s` to `t` both are kept. -/
def CacheKept (s t : State) : Prop := Cached s → Cached t

theorem unseen_of_leavesFreely {h : Head} (hl : leavesFreely h) : Unseen h := by
  cases h with
  | data pos hd j => exact unseen_of_queued hl
  | control pos hd body c =>
    obtain rfl | ⟨rfl, p, j, action, rfl⟩ := hl
    · exact unseen_of_rests (chainView_of_control nofun)
    · exact ⟨rfl, rfl⟩
  | empty => exact hl.elim
  | fetching pos => exact hl.elim

section

variable {s t : State} {q : Fin 4} {pos : Nat} {hd : Header} {j : JobRec}

theorem CacheLaws.free_of_unseen {u : Option (Fin 8)} (h : CacheLaws u s) (hu : Unseen (s.queue q).head) : q ∉ waitersOf s :=
  h.waiters.not_mem ((unseen_iff _).mp hu).1

theorem cacheKept_of_changes {F : List Part} (hc : Changes F s t) (hcu : Part.cu.isIn F = false) (hdp : Part.dp.isIn F = false)
    (hq : Part.queues.isIn F = false) (hcache : Part.cache.isIn F = false) : CacheKept s t := fun h =>
  ⟨h.units.keep (UnitsKeep.of_changes hc hcu hdp hq), h.laws.of_changes hc hq hcache⟩

theorem ordinary_cacheKept : Ordinary CacheKept where
  refl := fun _ => id
  trans := fun h h' hs => h' (h hs)
  other := fun hc => cacheKept_of_changes hc rfl rfl rfl rfl
  drain := fun s => cacheKept_of_changes (checkDrain_changes s) rfl rfl rfl rfl
  event := fun s k n r => cacheKept_of_changes (raiseEvent_changes s k n r) rfl rfl rfl rfl
  complete := fun r hl h => ⟨closed_unitsSound.complete r (completable_of_leavesFreely hl) h.units,
    h.laws.completeHead (h.laws.free_of_unseen (unseen_of_leavesFreely hl)) (unseen_of_leavesFreely hl).inactive r⟩
  job := fun {s q pos hd j j'} hh hj hs hs' he h => ⟨closed_unitsSound.job hh hj h.units, by
    have hview : looks (s.setHead q (.data pos hd j')) = looks s := by
      rw [looks_update (t := s.setHead q (.data pos hd j')) (fun k hk => State.queue_setHead_ne _ _ hk) rfl, State.queue_setHead_self,
        chainView_of_queued hs', he, ← chainView_of_queued (pos := pos) (hd := hd) hs, ← hh]
      exact Function.update_eq_self q (looks s)
    exact h.laws.congr rfl hview⟩
  finish := fun hst h => ⟨closed_unitsSound.finish hst h.units, h.laws.endOfJob h.units hst⟩

theorem CacheKept.dpMoves (hm : DpMoves s t) : CacheKept s t := fun h =>
  ⟨h.units.keep (UnitsKeep.dpMoves hm), h.laws.of_changes hm.parts rfl rfl⟩

theorem takeLineEvent_cacheKept (p : PortId) (d : LineDue) (s : State) : CacheKept s (takeLineEvent p d s) :=
  ordinary_cacheKept.takeLineEvent (fun s n f => cacheKept_of_changes (portTake_changes n f s) rfl rfl rfl rfl)
    (fun s n f x => cacheKept_of_changes (portAppend_changes n f x s) rfl rfl rfl rfl)
    (fun s n dir m => cacheKept_of_changes (setMirror_changes n dir m s) rfl rfl rfl rfl) d

/-! ### The units' commands -/

/-- A granted job, its streams claimed, goes on with its chain. -/
theorem Cached.starts (h : Cached s) (hnone : ∀ k, jobActive (s.queue k).head = false) (hh : (s.queue q).head = .data pos hd j)
    (hj : j.jstate = .ready) : Starts none (claimedState q pos hd j s) q pos hd (claimedRec j) := by
  have hview : looks s q = { ChainView.rests with entry := j.chainEnt } := by rw [looks, hh, chainView_of_queued (.inr hj)]
  have hentry : j.chainEnt = none := by
    have hno := h.laws.uses.entry_of_no_job (q := q) (by rw [hview]; rfl)
    rwa [hview] at hno
  have hfree : q ∉ waitersOf s := h.laws.waiters.not_mem (by rw [hview]; rfl)
  have hcache : (claimedState q pos hd j s).cache = s.cache := (claimedState_changes q pos hd j s).cache rfl
  refine ⟨h.laws.setStarting hcache (looks_update (fun k hk => claimedState_queue_ne hk) rfl) hfree (by rw [hview]; nofun) ?_ ?_ (.inl ?_),
    h.units.toJobs.claimed hnone, claimedState_head, rfl, by rwa [waitersOf_of_cache hcache]⟩
  · rw [claimedState_head, chainView_of_starting rfl]
  · rw [claimedState_head, chainView_of_starting rfl]
    rfl
  · rw [claimedState_head, chainView_of_starting rfl]
    exact hentry

theorem exec_grant_cacheKept (reads : List ReadChoice) (s : State) : Answers (CacheKept s) (exec (.grant reads) s) :=
  ordinary_cacheKept.exec_grant (fun q s => cacheKept_of_changes (arbiterMove_changes q s) rfl rfl rfl rfl) reads s
    fun _ hnone hh hj _ h => ⟨closed_unitsSound.chainStep claimedState_head rfl reads (h.units.claimed hnone hh),
      ((h.starts hnone hh hj).chainStep reads).laws⟩

theorem exec_snapshotWriteAnswer_cacheKept (ok : Bool) (h : Cached s) : Answers (CacheKept s) (exec (.snapshotWriteAnswer ok) s) := by
  refine ordinary_cacheKept.exec_snapshotWriteAnswer ok s (fun _ _ _ _ _ _ => cacheKept_of_changes (changes_setStream ..) rfl rfl rfl rfl)
    fun q n a re bs hw t ht st m d hit hs => ?_
  have hx : ctlIn .executing (s.queue q).head = true := (h.units.executing q).mpr (by rw [hw]; rfl)
  rw [← ht] at hx
  exact ⟨controlClosed_unitsSound.conclude st m d hit hx hs.units, hs.laws.finishControl hx st m d hit⟩

theorem exec_fillBegin_cacheLaws (order : List (Fin 4)) (h : Cached s) : Answers (CacheLaws none) (exec (.fillBegin order) s) := by
  refine answers_taken h.laws ?_
  split
  case h_1 r rest hfill hreqs =>
    have hbegin := h.laws.beginFill h.units.toJobs hfill hreqs order
    have hunits : UnitsSound (beginFill r rest order s) := closed_unitsSound.beginFill r rest order s h.units
    obtain ⟨hretry, -⟩ := hbegin.retryJobPlace hunits.toJobs
    exact (hretry.retryControlPlace (closed_unitsSound.retryJobPlace _ hunits)).of_changes (checkDrain_changes _) rfl rfl
  case h_2 => exact h.laws

theorem exec_fillReadAnswer_cacheLaws (off : Nat) (a : Answer) (order : List (Fin 4)) (reads : List ReadChoice) (h : Cached s) :
    Answers (CacheLaws none) (exec (.fillReadAnswer off a order reads) s) := by
  refine answers_taken h.laws ?_
  split
  · exact h.laws
  case h_2 f hf =>
    have hfills := fills_of_fill hf
    split
    · dsimp only
      split
      · exact (h.laws.partDone h.units.toJobs (f := { f with buf := bufTake f.buf off a }) ⟨hfills.target, hfills.waiters⟩ order
          reads).of_changes (checkDrain_changes _) rfl rfl
      · exact h.laws.setFill hfills ⟨rfl, rfl, rfl⟩
    · exact h.laws

theorem exec_controlSelect_cacheLaws (h : Cached s) : Answers (CacheLaws none) (exec .controlSelect s) := by
  refine exec_controlSelect_answers h.laws fun q pos hd body _ hidle hh => ?_
  have hlaws : CacheLaws none (executing q pos hd body s) := by
    refine h.laws.congr rfl ?_
    rw [looks_update (t := executing q pos hd body s) (fun k hk => executing_queue_ne _ _ _ _ hk) rfl, executing_head,
      chainView_of_control (c := .executing) nofun, ← chainView_of_control (pos := pos) (hd := hd) (body := body) (c := .controlWait) nofun, ← hh]
    exact Function.update_eq_self q (looks s)
  exact hlaws.executeControl (h.units.select hidle hh).1.toJobs (executing_head ..)

/-! ### Every command -/

theorem exec_inner_cacheLaws {c : Instr} (hc : inner c = true) (h : Cached s) : Answers (CacheLaws none) (exec c s) := by
  have hunits := exec_inner_unitsSound hc h.units
  have hlaws : Answers (CacheLaws none) (exec c s) → Answers (CacheKept s) (exec c s) := fun hl t ht _ => ⟨hunits t ht, hl t ht⟩
  refine (ControlClosed.exec_inner_of_units ordinary_cacheKept (fun t ht => cacheKept_of_changes ht rfl rfl rfl rfl) hc (fun hu => ?_)
    (fun hd => ControlClosed.exec_datapath ordinary_cacheKept CacheKept.dpMoves hd s)
    (ControlClosed.exec_portCommand ordinary_cacheKept (fun p d _ => takeLineEvent_cacheKept p d s) (fun heq => ?_) hc)).imp
    fun t ht => (ht h).laws
  · cases c with
    | grant reads => exact exec_grant_cacheKept reads s
    | fillBegin order => exact hlaws (exec_fillBegin_cacheLaws order h)
    | fillReadAnswer off a order reads => exact hlaws (exec_fillReadAnswer_cacheLaws off a order reads h)
    | snapshotWriteAnswer ok => exact exec_snapshotWriteAnswer_cacheKept ok h
    | _ => cases hu
  · rw [heq] at hunits hlaws ⊢
    exact hlaws (exec_controlSelect_cacheLaws h)

theorem cacheLaws_of_reset (hc : t.cache = State.reset.cache) (hq : ∀ k, (t.queue k).head = .empty) : CacheLaws none t := by
  have hreset : CacheLaws none State.reset := cacheSound_reset.laws
  refine hreset.congr hc (funext fun k => ?_)
  rw [looks, looks, hq, queue_reset]
  rfl

theorem exec_setupReadAnswer_cacheLaws (off : Nat) (a : Answer) (h : HeadsSound s) (he : SetupSound s) (hs : CacheLaws none s) :
    Answers (CacheLaws none) (exec (.setupReadAnswer off a) s) := fun t ht => by
  refine hs.congr ((exec_changes _ s t ht).cache rfl) (funext fun k => ?_)
  obtain hk | ⟨hsetup, hk⟩ := exec_setupReadAnswer_heads off a s t ht
  · rw [looks, hk k]
    rfl
  · rw [looks, hk k, looks, (h.rest (.inr (he.mp hsetup))).2 k]

theorem exec_cacheLaws (c : Instr) (h : HeadsSound s) (he : EngineSound s) (hs : CacheLaws none s) :
    Answers (CacheLaws none) (exec c s) := by
  cases hin : inner c with
  | true => exact exec_inner_cacheLaws hin ⟨h.units, hs⟩
  | false =>
    cases hreset : resets c with
    | true =>
      cases c with
      | clear =>
        refine answers_taken hs ?_
        split
        · exact cacheLaws_of_reset rfl fun q => congrArg QueueRec.head (queue_reset q)
        · exact hs.of_changes (changes_eng ..) rfl rfl
      | pinReset => exact answers_next (cacheLaws_of_reset rfl fun q => congrArg QueueRec.head (queue_reset q))
      | _ => cases hreset
    | false =>
      by_cases hsetup : ∃ off a, c = .setupReadAnswer off a
      · obtain ⟨off, a, rfl⟩ := hsetup
        exact exec_setupReadAnswer_cacheLaws off a h he.setup hs
      · have hcache : Part.cache.isIn (commandParts c) = false := by
          have hall : (inner c || resets c || !Part.cache.isIn (commandParts c)) = true := by cases c <;> rfl
          simpa [hin, hreset] using hall
        intro t ht
        exact hs.stay ((exec_changes c s t ht).cache hcache)
          (exec_outer_unitsStay hin hreset (fun off a hc => hsetup ⟨off, a, hc⟩) h.reserve t ht).views

end

/-- Settles O12: the entries, the requests and their waiters, the use of entries and the pins, each across the operations of the
loader, the starts and ends of jobs, and the control records; every other command leaves them alone. -/
theorem cacheStaysSound : Obligations.CacheStaysSound := fun s t h he hs hstep => by
  obtain rfl | ⟨c, l, hc⟩ := step_next_cases hstep
  · exact hs
  · have hpending : CacheLaws none { s with pending := l } := hs.laws.congr rfl rfl
    exact (exec_cacheLaws (s := { s with pending := l }) c { h with } { he with } hpending t hc).sound

end Sys2Proof.Machine
end
